-- ==== Sys2Proof/Word.lean ====
section
/-! DEFINITION. The word types of the links' bytes and the small numbered sets of the part (spec/00_scope.md,
Conventions: keys 0..87, pedals 0..2, position scales; spec/11_formats_and_codes.md: bytes on a link). -/

namespace Sys2Proof

/-- A byte as it crosses a link. -/
abbrev Byte := BitVec 8

/-- A 16-bit word: a two-byte field of a body, or one word of the map's storage (R56). -/
abbrev Word16 := BitVec 16

/-- A 32-bit word: a four-byte field of a body, or the check word (R57). -/
abbrev Word32 := BitVec 32

/-- A key, 0 (lowest A) to 87. -/
abbrev Key := Fin 88

/-- A pedal: 0 soft, 1 sostenuto, 2 damper. -/
abbrev Pedal := Fin 3

/-- A directory entry number of the take store. -/
abbrev TakeNo := Fin 32

/-- A key position sample, 0..1023. -/
abbrev KeyPos := Fin 1024

/-- A pedal position sample, 0..255. -/
abbrev PedalPos := Fin 256

/-- A reading of the supply sense input, 0..1023 in units of 0.1 V. -/
abbrev SupplyReading := Fin 1024

/-- A fixed number of like things, one for each number below `n`. -/
abbrev Bank (α : Type) (n : Nat) := Vector α n

end Sys2Proof
end

