-- ==== Sys2Proof/Syntax.lean ====
section
/-! DEFINITION. The commands of the part: one constructor of `Instr` for each row of spec/opcode_table.json, with
the operands the row's rule gives it. A request row carries the link and the raw fields of its body
(spec/11_formats_and_codes.md, section 11.3); `Request` is the same request as it lies in a link's request slot. -/

namespace Sys2Proof

/-- The two client links. -/
inductive Link where
  | a
  | b
deriving DecidableEq, Repr

/-- The two replay layers. -/
inductive LayerId where
  | l0
  | l1
deriving DecidableEq, Repr

/-- The direction of a hammer's passage through a gate (R3). -/
inductive Direction where
  | toward
  | away
deriving DecidableEq, Repr

/-- The parts of one instant's work when the clock advances or enters RUNNING whose order the spec leaves open:
the capture unit's frame event and re-entry, each layer's latch, each layer's entry into PLAYING, the scheduler. -/
inductive Phase where
  | capture
  | latch (y : LayerId)
  | enter (y : LayerId)
  | schedule
deriving DecidableEq, Repr

/-- The three pedal positions as they stand at one instant. -/
structure PedalReadings where
  p0 : PedalPos
  p1 : PedalPos
  p2 : PedalPos
deriving DecidableEq, Repr

/-- A take record in its stored layout (section 11.1). -/
structure Record where
  kind   : Byte
  target : Byte
  value  : Word16
  time   : Word32
deriving DecidableEq, Repr

/-- The fields of a key entry body (section 11.4), from T to the rebound gap. -/
structure KeyFields where
  t       : Word16
  sd      : Word16
  knots   : Bank Word16 9
  g       : Word16
  lfix    : Word16
  dtravel : BitVec 24
  s       : Word16
  rm      : Word16
  rebound : Byte
deriving DecidableEq, Repr

/-- The fields of a pedal entry body (section 11.4), from the rest drive to the actuator deadband. -/
structure PedalFields where
  rest     : Word16
  full     : Word16
  lead     : Word16
  deadband : Byte
deriving DecidableEq, Repr

/-- A MAP WRITE body. A class byte other than 0 or 1 names no entry; its bytes are kept as they came. -/
inductive MapBody where
  | key (number : Byte) (fields : KeyFields) (reserved : Word16)
  | pedal (number : Byte) (fields : PedalFields) (reserved : Byte)
  | other (bytes : List Byte)
deriving DecidableEq, Repr

/-- The fields of a LAYER SET body after its layer byte (section 11.3). -/
structure RawSettings where
  winLow     : Byte
  winHigh    : Byte
  transpose  : Byte
  scale      : Byte
  velOffset  : Byte
  timeOffset : Word16
  flags      : Byte
  priority   : Byte
deriving DecidableEq, Repr

/-- A request of the catalogue of section 10.3 with the raw fields of its body. -/
inductive Request where
  | captureStart
  | captureStop
  | captureSet (release repetition down : Word16) (deadband : Byte)
  | takeOpen
  | append (take : Byte) (records : List Record)
  | close (take : Byte) (endTime : Word32)
  | read (take : Byte) (start : Word32) (count : Byte)
  | info (take : Byte)
  | erase (take : Byte)
  | clockRun
  | clockPause
  | clockStop
  | clockLocate (position : Word32)
  | clockSource (source : Byte) (length : Word16)
  | mapRead (cls number : Byte)
  | mapWrite (body : MapBody)
  | mapClear
  | mapAccept
  | layerBind (layer source take : Byte)
  | layerMarks (layer low high : Byte)
  | layerFeed (layer : Byte) (records : List Record)
  | layerSet (layer : Byte) (settings : RawSettings)
  | layerCue (layer cueKind : Byte) (cueValue : Word32) (entryKind : Byte) (entryTick : Word32)
  | layerFree (layer : Byte)
  | layerInfo (layer : Byte)
  | dropsRead
  | planSet (late rise : Word16)
  | allOff
  | keysClear (keys : BitVec 88)
  | quietEnter
  | quietLeave
  | driveSet (slots : Byte) (vnom : Word16) (sagPercent : Byte)
  | driveInfo (first count : Byte)
  | calRun (kind : Byte) (keys : BitVec 88) (stopOnFault : Byte) (velocity : Word16) (repeats : Byte)
  | calStop
  | status
  | noticeClear (flags : Word16)
  | noticeMask (mask : Word16)
  | partReset
deriving DecidableEq, Repr

/-- The commands: the 63 rows of spec/opcode_table.json. Events come from the sensors, the lines and the wall
timer; a request row is the instant at which the owning block takes the request that stands in the link's slot. -/
inductive Instr where
  | powerOnReset
  | keySample (readings : List (Key × KeyPos))
  | gate1Event (key : Key) (dir : Direction)
  | gate2Event (key : Key) (dir : Direction)
  | windowExpiry (key : Key)
  | clockAdvance (pedals : PedalReadings) (order : List Phase)
  | servicePeriod
  | integrityCheck
  | supplyReading (reading : SupplyReading)
  | syncPulse
  | lossIntervalExpiry
  | strikeGraceExpiry (key : Key)
  | reboundEnd (key : Key)
  | letGoExpiry (key : Key)
  | wakeExpiry
  | pulseRequest
  | pulseFire
  | pulseGraceExpiry (key : Key)
  | restDeadline
  | requestTransaction (link : Link) (bytes : List Byte) (duringReset : Bool)
  | transactionDiscarded (link : Link) (bytes : List Byte)
  | fetch (link : Link) (duringReset : Bool)
  | captureStart (link : Link) (pedals : PedalReadings)
  | captureStop (link : Link)
  | captureSet (link : Link) (release repetition down : Word16) (deadband : Byte)
  | takeOpen (link : Link)
  | append (link : Link) (take : Byte) (records : List Record)
  | close (link : Link) (take : Byte) (endTime : Word32)
  | read (link : Link) (take : Byte) (start : Word32) (count : Byte)
  | info (link : Link) (take : Byte)
  | erase (link : Link) (take : Byte)
  | clockRun (link : Link) (pedals : PedalReadings) (order : List Phase)
  | clockPause (link : Link)
  | clockStop (link : Link)
  | clockLocate (link : Link) (position : Word32)
  | clockSource (link : Link) (source : Byte) (length : Word16)
  | mapRead (link : Link) (cls number : Byte)
  | mapWrite (link : Link) (body : MapBody)
  | mapClear (link : Link)
  | mapAccept (link : Link)
  | layerBind (link : Link) (layer source take : Byte)
  | layerMarks (link : Link) (layer low high : Byte)
  | layerFeed (link : Link) (layer : Byte) (records : List Record)
  | layerSet (link : Link) (layer : Byte) (settings : RawSettings)
  | layerCue (link : Link) (layer cueKind : Byte) (cueValue : Word32) (entryKind : Byte) (entryTick : Word32)
  | layerFree (link : Link) (layer : Byte)
  | layerInfo (link : Link) (layer : Byte)
  | dropsRead (link : Link)
  | planSet (link : Link) (late rise : Word16)
  | allOff (link : Link)
  | keysClear (link : Link) (keys : BitVec 88)
  | quietEnter (link : Link)
  | quietLeave (link : Link)
  | driveSet (link : Link) (slots : Byte) (vnom : Word16) (sagPercent : Byte)
  | driveInfo (link : Link) (first count : Byte)
  | calRun (link : Link) (kind : Byte) (keys : BitVec 88) (stopOnFault : Byte) (velocity : Word16) (repeats : Byte)
  | calStop (link : Link)
  | status (link : Link)
  | noticeClear (link : Link) (flags : Word16)
  | noticeMask (link : Link) (mask : Word16)
  | partReset (link : Link)
  | resetLineLow
  | fetchSelectInactive (link : Link) (shifted : Nat)
deriving DecidableEq, Repr

end Sys2Proof
end

