-- ==== Sys2Proof/Decode.lean ====
section
/-! DEFINITION. The bytes of a link: byte order (most significant byte first), the 8-byte record layout (section 11.1),
the framing of a request transaction (R164), and the reading and writing of every request body of the catalogue
(section 11.3, R166). `decodeTableWord` is over the rows of spec/opcode_table.json that give bits: there are none. -/

namespace Sys2Proof

/-- Byte `i` of a list of bytes, 0 past its end. -/
def byteAt (bs : List Byte) (i : Nat) : Byte := bs.getD i 0

/-- The two-byte number whose most significant byte is byte `i`. -/
def word16At (bs : List Byte) (i : Nat) : Word16 := byteAt bs i ++ byteAt bs (i + 1)

/-- The three-byte number whose most significant byte is byte `i`. -/
def word24At (bs : List Byte) (i : Nat) : BitVec 24 := word16At bs i ++ byteAt bs (i + 2)

/-- The four-byte number whose most significant byte is byte `i`. -/
def word32At (bs : List Byte) (i : Nat) : Word32 := word16At bs i ++ word16At bs (i + 2)

/-- A two-byte number, most significant byte first. -/
def bytes16 (w : Word16) : List Byte := [w.extractLsb' 8 8, w.extractLsb' 0 8]

/-- A three-byte number, most significant byte first. -/
def bytes24 (w : BitVec 24) : List Byte := [w.extractLsb' 16 8, w.extractLsb' 8 8, w.extractLsb' 0 8]

/-- A four-byte number, most significant byte first. -/
def bytes32 (w : Word32) : List Byte :=
  [w.extractLsb' 24 8, w.extractLsb' 16 8, w.extractLsb' 8 8, w.extractLsb' 0 8]

/-- The 8 bytes of a record (section 11.1). -/
def Record.bytes (r : Record) : List Byte := [r.kind, r.target] ++ bytes16 r.value ++ bytes32 r.time

/-- The record whose 8 bytes begin at byte `i`. -/
def recordAt (bs : List Byte) (i : Nat) : Record :=
  { kind := byteAt bs i, target := byteAt bs (i + 1), value := word16At bs (i + 2), time := word32At bs (i + 4) }

/-- The bytes of a list of records, in list order. -/
def recordsBytes (rs : List Record) : List Byte := rs.flatMap Record.bytes

/-- `n` records from the front of a list of bytes. -/
def readRecords : Nat → List Byte → List Record
  | 0, _ => []
  | n + 1, bs => recordAt bs 0 :: readRecords n (bs.drop 8)

/-- The eleven bytes of a key set: key k in byte floor(k / 8) at bit k − 8·floor(k / 8). -/
def keySetBytes (ks : BitVec 88) : List Byte := (List.range 11).map fun i => ks.extractLsb' (8 * i) 8

/-- The key set whose eleven bytes begin at byte `i`. -/
def keySetAt (bs : List Byte) (i : Nat) : BitVec 88 :=
  byteAt bs (i + 10) ++ byteAt bs (i + 9) ++ byteAt bs (i + 8) ++ byteAt bs (i + 7) ++ byteAt bs (i + 6) ++
    byteAt bs (i + 5) ++ byteAt bs (i + 4) ++ byteAt bs (i + 3) ++ byteAt bs (i + 2) ++ byteAt bs (i + 1) ++ byteAt bs i

/-- The fields of a key entry body as bytes (section 11.4, from T on, without the reserved field). -/
def KeyFields.bytes (e : KeyFields) : List Byte :=
  bytes16 e.t ++ bytes16 e.sd ++ e.knots.toList.flatMap bytes16 ++ bytes16 e.g ++ bytes16 e.lfix ++
    bytes24 e.dtravel ++ bytes16 e.s ++ bytes16 e.rm ++ [e.rebound]

/-- The key entry fields whose bytes begin at byte `i`. -/
def keyFieldsAt (bs : List Byte) (i : Nat) : KeyFields :=
  { t := word16At bs i, sd := word16At bs (i + 2)
    knots := ⟨#[word16At bs (i + 4), word16At bs (i + 6), word16At bs (i + 8), word16At bs (i + 10),
      word16At bs (i + 12), word16At bs (i + 14), word16At bs (i + 16), word16At bs (i + 18),
      word16At bs (i + 20)], rfl⟩
    g := word16At bs (i + 22), lfix := word16At bs (i + 24), dtravel := word24At bs (i + 26)
    s := word16At bs (i + 29), rm := word16At bs (i + 31), rebound := byteAt bs (i + 33) }

/-- The fields of a pedal entry body as bytes (section 11.4, without the reserved field). -/
def PedalFields.bytes (e : PedalFields) : List Byte :=
  bytes16 e.rest ++ bytes16 e.full ++ bytes16 e.lead ++ [e.deadband]

/-- The pedal entry fields whose bytes begin at byte `i`. -/
def pedalFieldsAt (bs : List Byte) (i : Nat) : PedalFields :=
  { rest := word16At bs i, full := word16At bs (i + 2), lead := word16At bs (i + 4), deadband := byteAt bs (i + 6) }

/-- A MAP WRITE body as bytes. -/
def MapBody.bytes : MapBody → List Byte
  | .key n e res => [0, n] ++ e.bytes ++ bytes16 res
  | .pedal n e res => [1, n] ++ e.bytes ++ [res]
  | .other bs => bs

/-- A MAP WRITE body read from its bytes, where its length is one its class admits (section 11.3). -/
def decodeMapBody (bs : List Byte) : Option MapBody :=
  if bs.length = 38 ∧ byteAt bs 0 = 0 then some (.key (byteAt bs 1) (keyFieldsAt bs 2) (word16At bs 36))
  else if bs.length = 10 ∧ byteAt bs 0 = 1 then some (.pedal (byteAt bs 1) (pedalFieldsAt bs 2) (byteAt bs 9))
  else if (bs.length = 38 ∨ bs.length = 10) ∧ byteAt bs 0 ≠ 0 ∧ byteAt bs 0 ≠ 1 then some (.other bs)
  else none

/-- The settings fields of a LAYER SET body as bytes. -/
def RawSettings.bytes (r : RawSettings) : List Byte :=
  [r.winLow, r.winHigh, r.transpose, r.scale, r.velOffset] ++ bytes16 r.timeOffset ++ [r.flags, r.priority]

/-- The settings fields whose bytes begin at byte `i`. -/
def rawSettingsAt (bs : List Byte) (i : Nat) : RawSettings :=
  { winLow := byteAt bs i, winHigh := byteAt bs (i + 1), transpose := byteAt bs (i + 2), scale := byteAt bs (i + 3)
    velOffset := byteAt bs (i + 4), timeOffset := word16At bs (i + 5), flags := byteAt bs (i + 7)
    priority := byteAt bs (i + 8) }

/-- The kind code of a request (section 11.3). -/
def Request.kind : Request → Byte
  | .captureStart => 0x01
  | .captureStop => 0x02
  | .captureSet .. => 0x03
  | .takeOpen => 0x10
  | .append .. => 0x11
  | .close .. => 0x12
  | .read .. => 0x13
  | .info .. => 0x14
  | .erase .. => 0x15
  | .clockRun => 0x20
  | .clockPause => 0x21
  | .clockStop => 0x22
  | .clockLocate .. => 0x23
  | .clockSource .. => 0x24
  | .mapRead .. => 0x30
  | .mapWrite .. => 0x31
  | .mapClear => 0x32
  | .mapAccept => 0x33
  | .layerBind .. => 0x40
  | .layerMarks .. => 0x41
  | .layerFeed .. => 0x42
  | .layerSet .. => 0x43
  | .layerCue .. => 0x44
  | .layerFree .. => 0x45
  | .layerInfo .. => 0x46
  | .dropsRead => 0x58
  | .planSet .. => 0x59
  | .allOff => 0x5A
  | .keysClear .. => 0x60
  | .quietEnter => 0x61
  | .quietLeave => 0x62
  | .driveSet .. => 0x63
  | .driveInfo .. => 0x64
  | .calRun .. => 0x70
  | .calStop => 0x71
  | .status => 0x7C
  | .noticeClear .. => 0x7D
  | .noticeMask .. => 0x7E
  | .partReset => 0x7F

/-- The body of a request as bytes (section 11.3). -/
def Request.body : Request → List Byte
  | .captureSet r p d db => bytes16 r ++ bytes16 p ++ bytes16 d ++ [db]
  | .append t rs => t :: recordsBytes rs
  | .close t e => t :: bytes32 e
  | .read t i n => t :: bytes32 i ++ [n]
  | .info t => [t]
  | .erase t => [t]
  | .clockLocate p => bytes32 p
  | .clockSource s l => s :: bytes16 l
  | .mapRead c n => [c, n]
  | .mapWrite b => b.bytes
  | .layerBind y s t => [y, s, t]
  | .layerMarks y l h => [y, l, h]
  | .layerFeed y rs => y :: recordsBytes rs
  | .layerSet y st => y :: st.bytes
  | .layerCue y ck cv ek et => [y, ck] ++ bytes32 cv ++ [ek] ++ bytes32 et
  | .layerFree y => [y]
  | .layerInfo y => [y]
  | .planSet l r => bytes16 l ++ bytes16 r
  | .keysClear ks => keySetBytes ks
  | .driveSet n v p => n :: bytes16 v ++ [p]
  | .driveInfo f c => [f, c]
  | .calRun k ks s v r => k :: keySetBytes ks ++ [s] ++ bytes16 v ++ [r]
  | .noticeClear f => bytes16 f
  | .noticeMask m => bytes16 m
  | _ => []

/-- What the link's own check of a request gives (R166). -/
inductive Checked where
  | badKind
  | badLen
  | request (r : Request)
deriving DecidableEq, Repr

/-- The request `r` where the body has the length its kind asks for, BADLEN otherwise. -/
def ofLength (bs : List Byte) (n : Nat) (r : Request) : Checked := if bs.length = n then .request r else .badLen

/-- The number of records a body of 1 + 8n bytes carries, where n is 1..30. -/
def recordCount (bs : List Byte) : Option Nat :=
  let n := (bs.length - 1) / 8
  if bs.length = 1 + 8 * n ∧ 1 ≤ n ∧ n ≤ 30 then some n else none

/-- The link's check of a kind byte and a body: BADKIND, then BADLEN, then the request (R166, section 11.3). -/
def decodeRequest (kind : Byte) (bs : List Byte) : Checked :=
  if kind = 0x01 then ofLength bs 0 .captureStart
  else if kind = 0x02 then ofLength bs 0 .captureStop
  else if kind = 0x03 then ofLength bs 7 (.captureSet (word16At bs 0) (word16At bs 2) (word16At bs 4) (byteAt bs 6))
  else if kind = 0x10 then ofLength bs 0 .takeOpen
  else if kind = 0x11 then
    match recordCount bs with
    | some n => .request (.append (byteAt bs 0) (readRecords n (bs.drop 1)))
    | none => .badLen
  else if kind = 0x12 then ofLength bs 5 (.close (byteAt bs 0) (word32At bs 1))
  else if kind = 0x13 then ofLength bs 6 (.read (byteAt bs 0) (word32At bs 1) (byteAt bs 5))
  else if kind = 0x14 then ofLength bs 1 (.info (byteAt bs 0))
  else if kind = 0x15 then ofLength bs 1 (.erase (byteAt bs 0))
  else if kind = 0x20 then ofLength bs 0 .clockRun
  else if kind = 0x21 then ofLength bs 0 .clockPause
  else if kind = 0x22 then ofLength bs 0 .clockStop
  else if kind = 0x23 then ofLength bs 4 (.clockLocate (word32At bs 0))
  else if kind = 0x24 then ofLength bs 3 (.clockSource (byteAt bs 0) (word16At bs 1))
  else if kind = 0x30 then ofLength bs 2 (.mapRead (byteAt bs 0) (byteAt bs 1))
  else if kind = 0x31 then
    match decodeMapBody bs with
    | some b => .request (.mapWrite b)
    | none => .badLen
  else if kind = 0x32 then ofLength bs 0 .mapClear
  else if kind = 0x33 then ofLength bs 0 .mapAccept
  else if kind = 0x40 then ofLength bs 3 (.layerBind (byteAt bs 0) (byteAt bs 1) (byteAt bs 2))
  else if kind = 0x41 then ofLength bs 3 (.layerMarks (byteAt bs 0) (byteAt bs 1) (byteAt bs 2))
  else if kind = 0x42 then
    match recordCount bs with
    | some n => .request (.layerFeed (byteAt bs 0) (readRecords n (bs.drop 1)))
    | none => .badLen
  else if kind = 0x43 then ofLength bs 10 (.layerSet (byteAt bs 0) (rawSettingsAt bs 1))
  else if kind = 0x44 then
    ofLength bs 11 (.layerCue (byteAt bs 0) (byteAt bs 1) (word32At bs 2) (byteAt bs 6) (word32At bs 7))
  else if kind = 0x45 then ofLength bs 1 (.layerFree (byteAt bs 0))
  else if kind = 0x46 then ofLength bs 1 (.layerInfo (byteAt bs 0))
  else if kind = 0x58 then ofLength bs 0 .dropsRead
  else if kind = 0x59 then ofLength bs 4 (.planSet (word16At bs 0) (word16At bs 2))
  else if kind = 0x5A then ofLength bs 0 .allOff
  else if kind = 0x60 then ofLength bs 11 (.keysClear (keySetAt bs 0))
  else if kind = 0x61 then ofLength bs 0 .quietEnter
  else if kind = 0x62 then ofLength bs 0 .quietLeave
  else if kind = 0x63 then ofLength bs 4 (.driveSet (byteAt bs 0) (word16At bs 1) (byteAt bs 3))
  else if kind = 0x64 then ofLength bs 2 (.driveInfo (byteAt bs 0) (byteAt bs 1))
  else if kind = 0x70 then
    ofLength bs 16 (.calRun (byteAt bs 0) (keySetAt bs 1) (byteAt bs 12) (word16At bs 13) (byteAt bs 15))
  else if kind = 0x71 then ofLength bs 0 .calStop
  else if kind = 0x7C then ofLength bs 0 .status
  else if kind = 0x7D then ofLength bs 2 (.noticeClear (word16At bs 0))
  else if kind = 0x7E then ofLength bs 2 (.noticeMask (word16At bs 0))
  else if kind = 0x7F then ofLength bs 0 .partReset
  else .badKind

/-- A request transaction that is complete when select goes inactive: its kind byte and as many body bytes as its
length byte declares; the bytes after them are ignored (R164). `none` where it is not complete or its first byte is
not 0x51. -/
def completeRequest : List Byte → Option (Byte × List Byte)
  | first :: kind :: len :: rest =>
    if first = 0x51 ∧ len.toNat ≤ rest.length then some (kind, rest.take len.toNat) else none
  | _ => none

/-- The bytes of the request transaction of a request (section 11.2). -/
def Request.transaction (r : Request) : List Byte :=
  [0x51, r.kind, BitVec.ofNat 8 r.body.length] ++ r.body

/-- The command a word of the table's bits spells. No row of spec/opcode_table.json gives bits, so no word spells one. -/
def decodeTableWord (_nbits _w : Nat) : Option Instr := none

end Sys2Proof
end

