-- ==== Sys2Proof/Config.lean ====
section
/-! DEFINITION. The constants of the part. The manual leaves none of them to an implementation; each docstring names
the rule that gives the number. The manual leaves no value of an instruction open, so no opaque value stands here. -/

namespace Sys2Proof.Config

/-- The highest clock position (section 3.1). -/
abbrev clockLimit : Nat := 2147483647
/-- The highest frame boundary of the clock's range (R46). -/
abbrev lastBoundary : Nat := 2147483600
/-- Ticks in a frame. -/
abbrev frame : Nat := 200
/-- How far ahead of the clock position records are taken (R109). -/
abbrev horizon : Nat := 4400
/-- Places of the strike plan (R107). -/
abbrev planPlaces : Nat := 128
/-- Entries of the drop list (R122). -/
abbrev dropPlaces : Nat := 16
/-- Records of a layer's ring (R72). -/
abbrev ringPlaces : Nat := 256
/-- Records of a block of the take store (R22). -/
abbrev blockRecords : Nat := 512
/-- Wall time in µs of a clock tick. -/
abbrev tickMicros : Nat := 50
/-- Wall time in µs between key samples (R1). -/
abbrev sampleMicros : Nat := 500
/-- Wall time in µs between supply readings (R143). -/
abbrev supplyMicros : Nat := 1000
/-- Wall time in µs of a service period (R38). -/
abbrev serviceMicros : Nat := 10000
/-- Wall time in µs of a gate-1 window (R5). -/
abbrev windowMicros : Nat := 60000
/-- Wall time in µs from the intended strike instant to the grace expiry (R133). -/
abbrev strikeGraceMicros : Nat := 10000
/-- Wall time in µs from a pulse's fire to its grace expiry (R141). -/
abbrev pulseGraceMicros : Nat := 120000
/-- Wall time in µs of the let-go window (R139). -/
abbrev letGoMicros : Nat := 1000000
/-- Wall time in µs from QUIET LEAVE to the wake expiry (R145). -/
abbrev wakeMicros : Nat := 200000
/-- Wall time in µs of a rest wait (R152). -/
abbrev restMicros : Nat := 2000000
/-- Wall time in µs between two pulses of a run (R152). -/
abbrev pulseSpacingMicros : Nat := 150000
/-- Pulses on one key (R156). -/
abbrev probeBudget : Nat := 64
/-- Service periods between integrity checks (R65). -/
abbrev checkPeriods : Nat := 64
/-- Demand drive of a strike planned in the map's FAULT (R67). -/
abbrev safeDemand : Nat := 1600
/-- Lead of a strike planned in the map's FAULT (R67). -/
abbrev safeLead : Nat := 2000
/-- Intended flight time of a strike planned in the map's FAULT (R67). -/
abbrev safeFlight : Nat := 100000
/-- Stand-in gate spacing of an UNSET key entry (R53). -/
abbrev standInSpacing : Nat := 3000
/-- Stand-in repetition minimum of an UNSET key entry (R53). -/
abbrev standInRepetition : Nat := 1000
/-- Stand-in rebound gap of an UNSET key entry (R53). -/
abbrev standInRebound : Nat := 10

end Sys2Proof.Config
end

