-- ==== Sys2Proof/Machine/State.lean ====
section
/-! DEFINITION. The state of the part, block by block as the manual's block overview has it, the two stop reasons,
and the state after a power-on reset. Every field's docstring names the rule that gives it; fields that are the
model's own (serial numbers, the queue of waiting commands) say so. -/

namespace Sys2Proof.Machine

/-- No rule of the spec stops the part, so no meaning faults: the type has no value. Safe. -/
inductive Fault where
deriving DecidableEq, Repr

/-- Why a command has no outcome. -/
inductive Refusal where
  /-- Raised by an arm of `exec` whose command has no meaning yet; no arm raises it. Safe: nothing can be proved of such a command. -/
  | notModelled (mnemonic : String)
deriving DecidableEq, Repr

/-- Status codes (section 11.2). -/
inductive Status where
  | ok | badKind | badLen | badVal | state | noTake | inUse | held | full | order | calRun | notReady | none
deriving DecidableEq, Repr

/-- A reply as a block places it (R167): status, the kind of the request answered, the body. -/
structure Reply where
  status : Status
  kind   : Byte
  body   : List Byte
deriving DecidableEq, Repr

/-- The link states with what the two slots hold in each (section 10.2): both empty; the request in service; one reply. -/
inductive LinkState where
  | idle
  | serving (request : Request)
  | reply (reply : Reply)
deriving DecidableEq, Repr

/-- A fetch transaction in progress (R168): the bytes it shifts out, and whether the reply slot still holds what it found. -/
structure Fetch where
  out   : List Byte
  holds : Bool
deriving DecidableEq, Repr

/-- One client link (sections 10.2 and 10.4). -/
structure LinkRec where
  /-- Link state, request slot and reply slot. -/
  slots   : LinkState
  /-- The notice set, 16 flags (section 11.5). -/
  notices : Word16
  /-- The notice mask. -/
  mask    : Word16
  /-- The fetch transaction under way, from its first byte to select going inactive. -/
  fetch   : Option Fetch
  /-- The model's own: the wall instant at which a PART RESET of the other link found a PART RESET in service on this link,
  which is still carried out at that instant (R173, notes/assumptions/24). -/
  resetDue : Option Nat
deriving DecidableEq, Repr

/-- The reset cause record (section 10.6). -/
inductive ResetCause where
  | power | linkA | linkB
deriving DecidableEq, Repr

/-- The wall timer and its divisions (R1, R38, R143). -/
structure WallTimer where
  /-- Microseconds since the end of the power-on reset. -/
  now     : Nat
  /-- The wall instant of the next key sample. -/
  sample  : Nat
  /-- The wall instant of the next supply reading. -/
  supply  : Nat
  /-- The wall instant at which the running service period ends. -/
  service : Nat
deriving DecidableEq, Repr

/-- Capture states of a key (section 1.2). -/
inductive CapKeyState where
  | up | gate1 | down
deriving DecidableEq, Repr

/-- The capture unit's record of a key. The window expiry of section 1.2 is the gate-1 instant plus 60,000 µs and is
present exactly with it, so it is computed (`CapKey.windowExpiry`). -/
structure CapKey where
  state     : CapKeyState
  gate1At   : Option Nat
  lastPos   : KeyPos
  held      : Bool
  /-- The model's own: the release threshold in force when the last position was sampled (R2, notes/assumptions/30). -/
  releaseAt : Nat
deriving DecidableEq, Repr

/-- The capture unit's record of a pedal (section 1.5): the last four frame samples, oldest first. -/
structure CapPedal where
  w0 : Nat
  w1 : Nat
  w2 : Nat
  w3 : Nat
  lastEmitted : Nat
  firstFrame  : Bool
deriving DecidableEq, Repr

/-- States of the capture unit (section 1.6). -/
inductive CaptureState where
  | idle | paused | recording
deriving DecidableEq, Repr

/-- The capture unit. -/
structure Capture where
  state      : CaptureState
  target     : Option TakeNo
  origin     : Option Nat
  release    : Nat
  repetition : Nat
  down       : Nat
  deadband   : Nat
  keys       : Bank CapKey 88
  pedals     : Bank CapPedal 3
deriving DecidableEq, Repr

/-- States of a directory entry (section 2.2). -/
inductive TakeState where
  | free | opened | closed
deriving DecidableEq, Repr

/-- The writer of an OPEN take. -/
inductive Writer where
  | link (l : Link)
  | capture
deriving DecidableEq, Repr

/-- A directory entry (section 2.2); its number is its place in the directory. -/
structure TakeEntry where
  state    : TakeState
  writer   : Option Writer
  length   : Nat
  lastTime : Nat
  blocks   : List Nat
  bound    : Nat
  origin   : Option Nat
deriving DecidableEq, Repr

/-- The take store: record memory as (address, byte) pairs in canonical form, the directory, and the free pool in
ascending block number. Byte `8·(512·b + p) + j` is byte `j` of place `p` of block `b`. -/
structure Store where
  mem  : List Host.Cell
  dir  : Bank TakeEntry 32
  pool : List Nat
deriving DecidableEq, Repr

/-- States of the performance clock (section 3.2). -/
inductive ClockState where
  | stopped | running | paused
deriving DecidableEq, Repr

/-- The clock's source. -/
inductive ClockSource where
  | internal | sync
deriving DecidableEq, Repr

/-- The clock's tracking states. -/
inductive Tracking where
  | tracking | lost | fault
deriving DecidableEq, Repr

/-- The performance clock (section 3.2). -/
structure Clock where
  state       : ClockState
  position    : Nat
  source      : ClockSource
  syncLength  : Nat
  tracking    : Tracking
  owed        : Int
  lastPulse   : Nat
  /-- The wall instant at which the clock last entered RUNNING (R49). -/
  entered     : Nat
  /-- The wall instant of the next advance while RUNNING (R40). -/
  nextAdvance : Nat
  /-- The advance onto the next frame boundary has been withheld once (R50). -/
  withheld    : Bool
deriving DecidableEq, Repr

/-- A key entry as its twenty 16-bit words (R56). -/
structure KeyEntry where
  state   : Word16
  t       : Word16
  sd      : Word16
  knots   : Bank Word16 9
  g       : Word16
  lfix    : Word16
  dLow    : Word16
  dHigh   : Word16
  s       : Word16
  rm      : Word16
  rebound : Word16
  result  : Word16
deriving DecidableEq, Repr

/-- A pedal entry as its five 16-bit words (R56). -/
structure PedalEntry where
  state    : Word16
  rest     : Word16
  full     : Word16
  lead     : Word16
  deadband : Word16
deriving DecidableEq, Repr

/-- Integrity states of the map (section 4.6). -/
inductive Integrity where
  | good | fault
deriving DecidableEq, Repr

/-- The calibration map. -/
structure CalMap where
  keys      : Bank KeyEntry 88
  pedals    : Bank PedalEntry 3
  check     : Word32
  integrity : Integrity
  count     : Nat
  /-- The model's own: the map's half of the service-period event now due has been taken by INTEGRITY_CHECK. -/
  counted   : Bool
deriving DecidableEq, Repr

/-- Layer settings (section 5.4). -/
structure Settings where
  winLow     : Nat
  winHigh    : Nat
  transpose  : Int
  scale      : Nat
  velOffset  : Int
  timeOffset : Int
  mute       : Bool
  yieldKeys  : Bool
  pass       : Bank Bool 3
  priority   : Nat
deriving DecidableEq, Repr

/-- States of a layer (section 5.1). -/
inductive LayerState where
  | free | bound | cued | playing | ended
deriving DecidableEq, Repr

/-- A layer's source; a stream carries its binding link. -/
inductive Source where
  | take (n : TakeNo)
  | stream (l : Link)
deriving DecidableEq, Repr

/-- A replay layer (section 5.1). `staged` is the staged settings while pending is set. -/
structure Layer where
  state      : LayerState
  source     : Option Source
  ring       : List Record
  low        : Nat
  high       : Nat
  cursor     : Nat
  fedTime    : Nat
  endFed     : Bool
  cue        : Option Nat
  origin     : Option Nat
  chase      : Bank (Option Nat) 3
  endFetched : Bool
  staged     : Option Settings
  latched    : Settings
  demands    : Bank (Option Nat) 3
  highArmed  : Bool
  lowArmed   : Bool
deriving DecidableEq, Repr

/-- The auto flag of a RELEASE action (section 7.1). -/
inductive AutoFlag where
  | repetition | ending
deriving DecidableEq, Repr

/-- Wait reasons of a STRIKE action (section 7.1). -/
inductive WaitReason where
  | key | slot | sag | waking
deriving DecidableEq, Repr

/-- What an action does: its kind with the fields present for it (section 7.1). -/
inductive ActionBody where
  | strike (key : Key) (velocity demand flight : Nat) (wait : Option WaitReason)
  | depress (key : Key) (demand : Nat)
  | release (key : Key) (auto : Option AutoFlag)
  | pedal (pedal : Pedal) (value : Nat)
deriving DecidableEq, Repr

/-- An action of the strike plan. `serial` is the model's own: actions are numbered as they are inserted, which is
what R117 ('inserted before it') and R108 ('the action that made it OPEN') refer to. -/
structure Action where
  serial : Nat
  layer  : LayerId
  event  : Nat
  due    : Int
  lead   : Nat
  body   : ActionBody
deriving DecidableEq, Repr

/-- A key memory while it is OPEN (R108); `serial` names the action that made it OPEN. -/
structure KeyMemory where
  layer   : LayerId
  depress : Bool
  event   : Nat
  serial  : Nat
deriving DecidableEq, Repr

/-- Drop reasons (R122). -/
inductive DropReason where
  | range | unset | merge | late | sag | quiet | blocked | hot | yielded | missed
deriving DecidableEq, Repr

/-- The target of a drop list entry: a key or a pedal with its number. -/
inductive DropTarget where
  | key (n : Nat)
  | pedal (n : Nat)
deriving DecidableEq, Repr

/-- An entry of the drop list (R122). -/
structure DropEntry where
  reason   : DropReason
  target   : DropTarget
  layer    : LayerId
  event    : Nat
  velocity : Option Nat
deriving DecidableEq, Repr

/-- The strike scheduler (section 7.1). A key memory that is CLOSED is `none`. -/
structure Scheduler where
  plan       : List Action
  memory     : Bank (Option KeyMemory) 88
  drops      : List DropEntry
  late       : Nat
  rise       : Nat
  /-- The model's own: the serial number of the next action inserted. -/
  nextSerial : Nat
deriving DecidableEq, Repr

/-- Drive states of a key (section 8.1). -/
inductive DriveState where
  | rest | strike | sustain | letgo | probe | blocked
deriving DecidableEq, Repr

/-- What was fired: a replay strike with the fields kept at the fire (R118, R133), or a calibration pulse. -/
inductive FireKind where
  | strike (layer : LayerId) (event velocity demand flight intended : Nat)
  | pulse
deriving DecidableEq, Repr

/-- A fire in flight (section 8.1). -/
structure Fire where
  kind    : FireKind
  firedAt : Nat
  grace   : Nat
  applied : Nat
deriving DecidableEq, Repr

/-- The drive unit's record of a key (section 8.1). -/
structure DriveKey where
  state         : DriveState
  owner         : Option LayerId
  lastPos       : KeyPos
  lastFire      : Option Nat
  fire          : Option Fire
  sustainDemand : Option Nat
  reboundGap    : Option Nat
  sustain       : Option Nat
  reboundEnd    : Option Nat
  letGoAt       : Option Nat
  /-- The model's own: the repetition threshold in force when the last position was sampled (R2, notes/assumptions/30). -/
  repetitionAt  : Nat
  heat          : Nat
  warm          : Bool
  hot           : Bool
deriving DecidableEq, Repr

/-- The drive unit's record of a pedal (section 8.10). -/
structure PedalDrive where
  merged  : Option Nat
  applied : Option Nat
  output  : Nat
deriving DecidableEq, Repr

/-- Drive power states (section 8.9). -/
inductive Power where
  | active | quietPending | quiet | waking
deriving DecidableEq, Repr

/-- A calibration pulse that is pending (R141). -/
structure PendingPulse where
  key   : Key
  level : Nat
deriving DecidableEq, Repr

/-- The drive unit. The wait queue holds the serial numbers of the strikes answered SLOT (R132). -/
structure Drive where
  power      : Power
  wakeAt     : Option Nat
  sag        : Bool
  vmeas      : Nat
  vnom       : Nat
  sagPercent : Nat
  slots      : Nat
  keys       : Bank DriveKey 88
  queue      : List Nat
  pulse      : Option PendingPulse
  pedals     : Bank PedalDrive 3
deriving DecidableEq, Repr

/-- Run states (section 9.1). -/
inductive RunState where
  | idle | running | stopping
deriving DecidableEq, Repr

/-- Run kinds. -/
inductive RunKind where
  | threshold | proof
deriving DecidableEq, Repr

/-- Phases of the threshold search (R154). -/
inductive SearchPhase where
  | first | down | up | fine
deriving DecidableEq, Repr

/-- What the controller waits for on the current key (section 9.1). -/
inductive RunWait where
  | none
  | rest (deadline : Nat)
  | pending
  | inFlight
deriving DecidableEq, Repr

/-- Results of a key (section 4.1), in the order of their codes. -/
inductive RunResult where
  | none | ok | noStrike | stuck | budget | disturbed | aborted | leadRange
deriving DecidableEq, Repr

/-- The current key's entry and the map's integrity state, read at the start of the key (R151). -/
structure EntryCopy where
  entry     : KeyEntry
  integrity : Integrity
deriving DecidableEq, Repr

/-- The calibration run controller (section 9.1). `flight` and `lead` are the proof strike's (R158). -/
structure RunController where
  state       : RunState
  kind        : RunKind
  keys        : BitVec 88
  current     : Option Key
  copy        : Option EntryCopy
  phase       : SearchPhase
  level       : Nat
  flight      : Nat
  lead        : Nat
  lastMiss    : Option Nat
  coarse      : Option Nat
  probes      : Nat
  velSum      : Nat
  errSum      : Int
  hits        : Nat
  wait        : RunWait
  lastFire    : Option Nat
  failed      : Bool
  stopOnFault : Bool
  velocity    : Nat
  repeats     : Nat
deriving DecidableEq, Repr

/-- The state of the part. -/
structure State where
  /-- The model's own: the commands that wait, first in, first out. -/
  pending  : List Instr
  wall     : WallTimer
  /-- The RESET line is held low (R174). -/
  resetLow : Bool
  cause    : ResetCause
  linkA    : LinkRec
  linkB    : LinkRec
  cap      : Capture
  store    : Store
  clk      : Clock
  map      : CalMap
  layer0   : Layer
  layer1   : Layer
  sched    : Scheduler
  drive    : Drive
  run      : RunController
deriving DecidableEq, Repr

/-- A link at the end of a power-on reset (R174): RESET_DONE alone is set, every position of the mask enabled. -/
def LinkRec.reset : LinkRec := { slots := .idle, notices := 0x0004, mask := 0xFFFF, fetch := none, resetDue := none }

/-- The wall timer at the end of a power-on reset (R38, R1, R143). -/
def WallTimer.reset : WallTimer :=
  { now := 0, sample := Config.sampleMicros, supply := Config.supplyMicros, service := Config.serviceMicros }

/-- A key record of the capture unit after a power-on reset (R4, R2). -/
def CapKey.reset : CapKey := { state := .up, gate1At := none, lastPos := 0, held := false, releaseAt := 400 }

/-- The capture unit after a power-on reset (R21, R2). -/
def Capture.reset : Capture :=
  { state := .idle, target := none, origin := none, release := 400, repetition := 500, down := 600, deadband := 4
    keys := Vector.replicate 88 CapKey.reset
    pedals := Vector.replicate 3 { w0 := 0, w1 := 0, w2 := 0, w3 := 0, lastEmitted := 0, firstFrame := true } }

/-- A FREE directory entry (R36). -/
def TakeEntry.free : TakeEntry :=
  { state := .free, writer := none, length := 0, lastTime := 0, blocks := [], bound := 0, origin := none }

/-- The take store after a power-on reset of a part whose record memory has not been written (R36). -/
def Store.reset : Store := { mem := [], dir := Vector.replicate 32 TakeEntry.free, pool := List.range 256 }

/-- The clock after a power-on reset (R51). -/
def Clock.reset : Clock :=
  { state := .stopped, position := 0, source := .internal, syncLength := 2000, tracking := .tracking, owed := 0
    lastPulse := 0, entered := 0, nextAdvance := 0, withheld := false }

/-- A key entry with every word zero (R68). -/
def KeyEntry.zero : KeyEntry :=
  { state := 0, t := 0, sd := 0, knots := Vector.replicate 9 0, g := 0, lfix := 0, dLow := 0, dHigh := 0, s := 0
    rm := 0, rebound := 0, result := 0 }

/-- A pedal entry with every word zero (R68). -/
def PedalEntry.zero : PedalEntry := { state := 0, rest := 0, full := 0, lead := 0, deadband := 0 }

/-- The map after a power-on reset (R68). -/
def CalMap.reset : CalMap :=
  { keys := Vector.replicate 88 KeyEntry.zero, pedals := Vector.replicate 3 PedalEntry.zero, check := 0
    integrity := .good, count := 0, counted := false }

/-- Layer settings after a reset (section 5.4). -/
def Settings.reset : Settings :=
  { winLow := 0, winHigh := 87, transpose := 0, scale := 16, velOffset := 0, timeOffset := 0, mute := false
    yieldKeys := false, pass := Vector.replicate 3 true, priority := 0 }

/-- A layer after either reset (R90). -/
def Layer.reset : Layer :=
  { state := .free, source := none, ring := [], low := 64, high := 192, cursor := 0, fedTime := 0, endFed := false
    cue := none, origin := none, chase := Vector.replicate 3 none, endFetched := false, staged := none
    latched := Settings.reset, demands := Vector.replicate 3 none, highArmed := true, lowArmed := true }

/-- The scheduler after a power-on reset (R128). -/
def Scheduler.reset : Scheduler :=
  { plan := [], memory := Vector.replicate 88 none, drops := [], late := 40, rise := 600, nextSerial := 0 }

/-- A key record of the drive unit after a power-on reset (R149, R2). -/
def DriveKey.reset : DriveKey :=
  { state := .rest, owner := none, lastPos := 0, lastFire := none, fire := none, sustainDemand := none
    reboundGap := none, sustain := none, reboundEnd := none, letGoAt := none, repetitionAt := 500, heat := 0, warm := false
    hot := false }

/-- A pedal record of the drive unit after either reset (R149). -/
def PedalDrive.reset : PedalDrive := { merged := none, applied := none, output := 0 }

/-- The drive unit after a power-on reset (R149). -/
def Drive.reset : Drive :=
  { power := .quiet, wakeAt := none, sag := false, vmeas := 0, vnom := 480, sagPercent := 80, slots := 12
    keys := Vector.replicate 88 DriveKey.reset, queue := [], pulse := none
    pedals := Vector.replicate 3 PedalDrive.reset }

/-- The run controller after a power-on reset (R163); where R163 names no value the model's log does. -/
def RunController.reset : RunController :=
  { state := .idle, kind := .threshold, keys := 0, current := none, copy := none, phase := .first, level := 0
    flight := 0, lead := 0, lastMiss := none, coarse := none, probes := 0, velSum := 0, errSum := 0, hits := 0
    wait := .none, lastFire := none, failed := false, stopOnFault := false, velocity := 400, repeats := 4 }

/-- The part at the end of its first power-on reset (R174), with no command waiting. -/
def State.reset : State :=
  { pending := [], wall := WallTimer.reset, resetLow := false, cause := .power, linkA := LinkRec.reset
    linkB := LinkRec.reset, cap := Capture.reset, store := Store.reset, clk := Clock.reset, map := CalMap.reset
    layer0 := Layer.reset, layer1 := Layer.reset, sched := Scheduler.reset, drive := Drive.reset
    run := RunController.reset }

end Sys2Proof.Machine
end

