-- ==== Sys2Proof/Machine/Ops.lean ====
section
/-! DEFINITION. The named operations every block uses: reading and writing a bank, one byte or one record of record
memory, a link, a layer, a key record, a clamp, and how a block's answer to a request becomes a reply (R167). -/

namespace Sys2Proof

/-- The other layer. -/
def LayerId.other : LayerId → LayerId
  | .l0 => .l1
  | .l1 => .l0

/-- The other link. -/
def Link.other : Link → Link
  | .a => .b
  | .b => .a

end Sys2Proof

namespace Sys2Proof.Machine

/-! ### Banks -/

/-- Item `k` of a bank. -/
def bankGet {α : Type} {n : Nat} (b : Bank α n) (k : Fin n) : α := b[k.val]

/-- A bank with item `k` replaced. -/
def bankSet {α : Type} {n : Nat} (b : Bank α n) (k : Fin n) (x : α) : Bank α n := b.set k.val x

/-- A bank with every item replaced by a function of its number and itself. -/
def bankMap {α : Type} {n : Nat} (f : Fin n → α → α) (b : Bank α n) : Bank α n :=
  Vector.ofFn fun k => f k (bankGet b k)

/-- Every key, in ascending number. -/
def allKeys : List Key := List.finRange 88

/-- Every pedal, in ascending number. -/
def allPedals : List Pedal := List.finRange 3

/-- Every take number, in ascending order. -/
def allTakes : List TakeNo := List.finRange 32

/-! ### Numbers -/

/-- A number clamped to `lo..hi`. -/
def clampNat (lo hi x : Nat) : Nat := if x < lo then lo else if hi < x then hi else x

/-- A signed number clamped to `lo..hi`. -/
def clampInt (lo hi x : Int) : Int := if x < lo then lo else if hi < x then hi else x

/-- floor(2·sum + n over 2n): the mean of `n` numbers rounded with halves upward. -/
def roundedMean (sum : Int) (n : Nat) : Int := (2 * sum + n) / (2 * n)

/-! ### Record memory: a list of (address, byte) pairs in rising address, no byte 0 listed -/

/-- What an address that is not listed reads as. DESIGN CHOICE (notes/assumptions/1): 0; no read of a take reaches one (R22). -/
def unlistedByte : Byte := 0

/-- One byte of record memory. -/
def memRead : List Host.Cell → Nat → Byte
  | [], _ => unlistedByte
  | (x, b) :: rest, a => if x = a then b else memRead rest a

/-- Record memory with one byte written; the canonical form is kept. -/
def memWrite : List Host.Cell → Nat → Byte → List Host.Cell
  | [], a, b => if b = unlistedByte then [] else [(a, b)]
  | (x, c) :: rest, a, b =>
    if a < x then (if b = unlistedByte then (x, c) :: rest else (a, b) :: (x, c) :: rest)
    else if a = x then (if b = unlistedByte then rest else (a, b) :: rest)
    else (x, c) :: memWrite rest a b

/-- The canonical form from a least address on: addresses strictly rising, no entry equal to an unlisted byte. -/
def memWfFrom : Nat → List Host.Cell → Bool
  | _, [] => true
  | lo, (x, b) :: rest => decide (lo ≤ x) && b != unlistedByte && memWfFrom (x + 1) rest

/-- The canonical form of record memory. -/
def Memory.wf (m : List Host.Cell) : Bool := memWfFrom 0 m

/-- The `n` bytes of record memory from an address on. -/
def memReadBytes (m : List Host.Cell) (a : Nat) : Nat → List Byte
  | 0 => []
  | n + 1 => memRead m a :: memReadBytes m (a + 1) n

/-- Record memory with a list of bytes written from an address on. -/
def memWriteBytes (m : List Host.Cell) (a : Nat) : List Byte → List Host.Cell
  | [] => m
  | b :: bs => memWriteBytes (memWrite m a b) (a + 1) bs

/-- The address of the first byte of a place of a block. -/
def placeAddr (block place : Nat) : Nat := 8 * (Config.blockRecords * block + place)

/-- The record stored at an address. -/
def memRecord (m : List Host.Cell) (a : Nat) : Record := recordAt (memReadBytes m a 8) 0

/-! ### Reading and writing parts of the state -/

/-- A link's record. -/
def State.link (s : State) : Link → LinkRec
  | .a => s.linkA
  | .b => s.linkB

/-- The state with a link's record replaced. -/
def State.setLink (s : State) (l : Link) (r : LinkRec) : State :=
  match l with
  | .a => { s with linkA := r }
  | .b => { s with linkB := r }

/-- A layer. -/
def State.layer (s : State) : LayerId → Layer
  | .l0 => s.layer0
  | .l1 => s.layer1

/-- The state with a layer replaced. -/
def State.setLayer (s : State) (y : LayerId) (r : Layer) : State :=
  match y with
  | .l0 => { s with layer0 := r }
  | .l1 => { s with layer1 := r }

/-- The capture unit's record of a key. -/
def State.capKey (s : State) (k : Key) : CapKey := bankGet s.cap.keys k

/-- The state with the capture unit's record of a key replaced. -/
def State.setCapKey (s : State) (k : Key) (r : CapKey) : State :=
  { s with cap := { s.cap with keys := bankSet s.cap.keys k r } }

/-- The drive unit's record of a key. -/
def State.driveKey (s : State) (k : Key) : DriveKey := bankGet s.drive.keys k

/-- The state with the drive unit's record of a key replaced. -/
def State.setDriveKey (s : State) (k : Key) (r : DriveKey) : State :=
  { s with drive := { s.drive with keys := bankSet s.drive.keys k r } }

/-- A directory entry. -/
def Store.entry (st : Store) (t : TakeNo) : TakeEntry := bankGet st.dir t

/-- The take store with a directory entry replaced. -/
def Store.setEntry (st : Store) (t : TakeNo) (e : TakeEntry) : Store := { st with dir := bankSet st.dir t e }

/-- The present wall instant. -/
def State.now (s : State) : Nat := s.wall.now

/-- The clock is RUNNING. -/
def State.running (s : State) : Bool := s.clk.state = .running

/-! ### Key sets -/

/-- Key `k` is a member of a key set. -/
def inKeySet (ks : BitVec 88) (k : Key) : Bool := ks.getLsbD k.val

/-- The key set whose members satisfy a test. -/
def keySetOf (f : Key → Bool) : BitVec 88 :=
  allKeys.foldl (fun acc k => if f k then acc ||| BitVec.twoPow 88 k.val else acc) 0

/-- The members of a key set in ascending number. -/
def keysOf (ks : BitVec 88) : List Key := allKeys.filter (inKeySet ks)

/-! ### Replies -/

/-- What a block hands back for a request: the status, the reply's body, and the part afterwards. -/
structure Answer where
  status : Status
  body   : List Byte
  state  : State

/-- A refusal with an empty body that leaves the part as it was. -/
def refuse (st : Status) (s : State) : Answer := { status := st, body := [], state := s }

/-- A number as `n` bytes, most significant first. -/
def bytesOfNat : Nat → Nat → List Byte
  | 0, _ => []
  | n + 1, x => BitVec.ofNat 8 (x / 256 ^ n) :: bytesOfNat n x

/-- A one-byte item. -/
def byte1 (x : Nat) : List Byte := bytesOfNat 1 x
/-- A two-byte item. -/
def byte2 (x : Nat) : List Byte := bytesOfNat 2 x
/-- A four-byte item: counts and positions are sent so (section 11.2). -/
def byte4 (x : Nat) : List Byte := bytesOfNat 4 x
/-- A set-or-clear flag. -/
def flagByte (b : Bool) : List Byte := [if b then 1 else 0]
/-- A one-byte item that may be absent. -/
def optByte1 (x : Option Nat) : List Byte := byte1 (x.getD 255)
/-- A two-byte item that may be absent. -/
def optByte2 (x : Option Nat) : List Byte := byte2 (x.getD 65535)
/-- A four-byte item that may be absent. -/
def optByte4 (x : Option Nat) : List Byte := byte4 (x.getD 4294967295)
/-- A signed one-byte item. -/
def signed1 (x : Int) : List Byte := [BitVec.ofInt 8 x]
/-- A signed two-byte item. -/
def signed2 (x : Int) : List Byte := bytes16 (BitVec.ofInt 16 x)

end Sys2Proof.Machine
end

