-- ==== Sys2Proof/Machine/Flags.lean ====
section
/-! DEFINITION. Every flag the spec computes: the notices of a link and its attention line (section 10.4), the WARM and
HOT flags (R142), live SAG (R143), and the output lines that follow the state (R129, section 8.9). -/

namespace Sys2Proof.Machine

/-- The notices with their positions (section 11.5). -/
inductive Notice where
  | reply | busy | resetDone | streamLow0 | streamLow1 | streamHigh0 | streamHigh1 | layerEnd | calDone | keyFault
  | mapFault | sag | sync | storeFull | drops | clockLimit
deriving DecidableEq, Repr

/-- The position of a notice (section 11.5). -/
def Notice.position : Notice → Nat
  | .reply => 0 | .busy => 1 | .resetDone => 2 | .streamLow0 => 3 | .streamLow1 => 4 | .streamHigh0 => 5
  | .streamHigh1 => 6 | .layerEnd => 7 | .calDone => 8 | .keyFault => 9 | .mapFault => 10 | .sag => 11
  | .sync => 12 | .storeFull => 13 | .drops => 14 | .clockLimit => 15

/-- The flag of a notice as a bit of a notice set. -/
def Notice.flag (n : Notice) : Word16 := BitVec.twoPow 16 n.position

/-- A notice is set in a link's notice set. -/
def State.noticed (s : State) (l : Link) (n : Notice) : Bool := (s.link l).notices.getLsbD n.position

/-- A link's record with a notice raised (R169). -/
def LinkRec.raise (r : LinkRec) (n : Notice) : LinkRec := { r with notices := r.notices ||| n.flag }

/-- A notice raised in one link's set (R169). -/
def raise (l : Link) (n : Notice) (s : State) : State := s.setLink l ((s.link l).raise n)

/-- A notice raised in both links' sets at one instant (R169). -/
def raiseBoth (n : Notice) (s : State) : State := { s with linkA := s.linkA.raise n, linkB := s.linkB.raise n }

/-- The reply slot of a link is full. -/
def LinkRec.replyFull (r : LinkRec) : Bool :=
  match r.slots with
  | .reply _ => true
  | _ => false

/-- A link's attention output is asserted (R170), never while RESET is held low (R174). -/
def State.attention (s : State) (l : Link) : Bool :=
  !s.resetLow &&
    ((s.link l).replyFull || (s.link l).notices &&& (s.link l).mask != 0 || s.noticed l .mapFault)

/-- What a link drives on its data-out wire (R164, R168, R174, section 10.8): nothing, a steady low, or the bytes of a fetch. -/
inductive DataOut where
  | highZ
  | low
  | shifting (bytes : List Byte)
deriving DecidableEq, Repr

/-- Data-out of a link between transactions and in a fetch: high-impedance while RESET is low (R174) and while select is
inactive (section 10.8), the bytes found at its first byte while a fetch is under way (R168). -/
def State.dataOut (s : State) (l : Link) : DataOut :=
  if s.resetLow then .highZ
  else
    match (s.link l).fetch with
    | some f => .shifting f.out
    | none => .highZ

/-- Data-out of a link while it receives the bytes of a transaction: high-impedance while RESET is low (R174), low in a
request transaction (R164). The spec says nothing of a transaction that is ignored or whose first byte names neither kind,
nor of the wire before the first byte: none (notes/assumptions/26). -/
def State.dataOutReceiving (s : State) (bytes : List Byte) (duringReset : Bool) : Option DataOut :=
  if s.resetLow then some .highZ
  else if duringReset then none
  else if bytes.head? = some 0x51 then some .low
  else none

/-- A heat flag with its hysteresis: set at `on` or more, cleared below `off` (R142). -/
def heatFlag (on off heat : Nat) (flag : Bool) : Bool := if on ≤ heat then true else if heat < off then false else flag

/-- A key record with its heat replaced and both flags judged (R142). -/
def DriveKey.withHeat (d : DriveKey) (heat : Nat) : DriveKey :=
  { d with heat := heat, warm := heatFlag 24000 20000 heat d.warm, hot := heatFlag 48000 40000 heat d.hot }

/-- The least supply not in SAG: ceil(Vnom·sag percent / 100) (R101). -/
def vsag (vnom sagPercent : Nat) : Nat := (vnom * sagPercent + 99) / 100

/-- The sag threshold in force. -/
def Drive.vsag (d : Drive) : Nat := Machine.vsag d.vnom d.sagPercent

/-- Live SAG after a judgement of the latest reading (R143). -/
def Drive.judgedSag (d : Drive) : Bool :=
  if d.sag then !decide (d.vsag + 8 ≤ d.vmeas) else decide (d.vmeas < d.vsag)

/-- SAG is judged in this drive power state (R143). -/
def Power.judgesSag : Power → Bool
  | .active => true
  | .quietPending => true
  | .quiet => false
  | .waking => false

/-- SUPPLY_EN is on (section 8.9). -/
def Power.supplyEn : Power → Bool
  | .quiet => false
  | _ => true

/-- The applied sustain of a key in SUSTAIN (R102): 0 while the rebound gap runs, halved while WARM or HOT is set. -/
def DriveKey.appliedSustain (d : DriveKey) : Nat :=
  match d.sustain with
  | none => 0
  | some c => if d.warm || d.hot then c / 2 else c

/-- The solenoid output of a key (section 8.1). -/
def DriveKey.output (d : DriveKey) : Nat :=
  match d.state with
  | .strike => (d.fire.map Fire.applied).getD 0
  | .probe => (d.fire.map Fire.applied).getD 0
  | .sustain => d.appliedSustain
  | _ => 0

/-- The last position of a key stands at or above the repetition threshold that was in force when it was sampled (R2): the
key is touched. -/
def DriveKey.touched (d : DriveKey) : Bool := decide (d.repetitionAt ≤ d.lastPos.val)

/-- A key is drive-owned while its drive record is not in REST (section 1.2.1). -/
def State.driveOwned (s : State) (k : Key) : Bool := (s.driveKey k).state ≠ .rest

/-- A key's drive state holds a strike slot (R132). -/
def DriveState.holdsSlot : DriveState → Bool
  | .strike => true
  | .probe => true
  | _ => false

/-- The number of slots held (R132). -/
def State.slotsHeld (s : State) : Nat := (allKeys.filter fun k => (s.driveKey k).state.holdsSlot).length

/-- Fewer slots are held than the slot count (R131, order 7). -/
def State.slotFree (s : State) : Bool := s.slotsHeld < s.drive.slots

/-- Every key is in REST (R144). -/
def State.allRest (s : State) : Bool := allKeys.all fun k => (s.driveKey k).state = .rest

/-- A calibration run is active: RUNNING or STOPPING (R42, R62, R144). -/
def State.runActive (s : State) : Bool := s.run.state ≠ .idle

end Sys2Proof.Machine
end

