-- ==== Sys2Proof/Machine/Operands.lean ====
section
/-! DEFINITION. The forms a request's fields take, read as their owning blocks decode them (R176): layer, take and key
numbers, enumerations, the settings of LAYER SET, the codes each enumeration has on a link (section 11), record
legality (R175), and the map's stored words (R56). -/

namespace Sys2Proof

/-- Link codes: LINK_A, LINK_B. -/
def Link.code : Link → Nat
  | .a => 0 | .b => 1

/-- Layer number codes. -/
def LayerId.code : LayerId → Nat
  | .l0 => 0 | .l1 => 1

/-! ### Records (R175) -/

/-- Kind code of a STRIKE record. -/
abbrev kindStrike : Nat := 1
/-- Kind code of a DEPRESS record. -/
abbrev kindDepress : Nat := 2
/-- Kind code of a RELEASE record. -/
abbrev kindRelease : Nat := 3
/-- Kind code of a PEDAL record. -/
abbrev kindPedal : Nat := 4
/-- Kind code of a MARK record. -/
abbrev kindMark : Nat := 5
/-- Kind code of an END record. -/
abbrev kindEnd : Nat := 6

/-- A record of the given kind, target, value and time. -/
def mkRecord (kind target value time : Nat) : Record :=
  { kind := BitVec.ofNat 8 kind, target := BitVec.ofNat 8 target, value := BitVec.ofNat 16 value
    time := BitVec.ofNat 32 time }

/-- A record is an END. -/
def Record.isEnd (r : Record) : Bool := r.kind.toNat = kindEnd

/-- The legality of a record (R175). -/
def Record.legal (r : Record) : Bool :=
  decide (r.time.toNat ≤ Config.clockLimit) &&
    if r.kind.toNat = kindStrike then
      decide (r.target.toNat ≤ 87) && decide (1 ≤ r.value.toNat) && decide (r.value.toNat ≤ 1023)
    else if r.kind.toNat = kindDepress then decide (r.target.toNat ≤ 87) && decide (r.value.toNat = 0)
    else if r.kind.toNat = kindRelease then decide (r.target.toNat ≤ 87) && decide (r.value.toNat = 0)
    else if r.kind.toNat = kindPedal then decide (r.target.toNat ≤ 2) && decide (r.value.toNat ≤ 255)
    else if r.kind.toNat = kindMark then decide (r.target.toNat = 0)
    else if r.kind.toNat = kindEnd then decide (r.target.toNat = 0) && decide (r.value.toNat = 0)
    else false

end Sys2Proof

namespace Sys2Proof.Machine

/-- A layer byte (R70): 0 or 1. -/
def layerOf (b : Byte) : Option LayerId := if b = 0 then some .l0 else if b = 1 then some .l1 else none

/-- A take number byte, 0..31. -/
def takeOf (b : Byte) : Option TakeNo := if h : b.toNat < 32 then some ⟨b.toNat, h⟩ else none

/-- A key number, 0..87. -/
def keyOf (n : Nat) : Option Key := if h : n < 88 then some ⟨n, h⟩ else none

/-- A pedal number, 0..2. -/
def pedalOf (n : Nat) : Option Pedal := if h : n < 3 then some ⟨n, h⟩ else none

/-! ### Codes -/

/-- Status codes (section 11.2). -/
def Status.code : Status → Nat
  | .ok => 0 | .badKind => 1 | .badLen => 2 | .badVal => 3 | .state => 4 | .noTake => 5 | .inUse => 6 | .held => 7
  | .full => 8 | .order => 9 | .calRun => 10 | .notReady => 14 | .none => 15

/-- Capture state codes, in the order of section 1.6. -/
def CaptureState.code : CaptureState → Nat
  | .idle => 0 | .paused => 1 | .recording => 2

/-- Take state codes, in the order of section 2.2. -/
def TakeState.code : TakeState → Nat
  | .free => 0 | .opened => 1 | .closed => 2

/-- Writer codes, in the order of section 2.2. -/
def Writer.code : Writer → Nat
  | .link l => l.code | .capture => 2

/-- Clock state codes, in the order of section 3.2. -/
def ClockState.code : ClockState → Nat
  | .stopped => 0 | .running => 1 | .paused => 2

/-- Clock source codes (section 11.3). -/
def ClockSource.code : ClockSource → Nat
  | .internal => 0 | .sync => 1

/-- Tracking state codes, in the order of section 3.2. -/
def Tracking.code : Tracking → Nat
  | .tracking => 0 | .lost => 1 | .fault => 2

/-- Integrity state codes (section 11.4). -/
def Integrity.code : Integrity → Nat
  | .good => 0 | .fault => 1

/-- Layer state codes, in the order of section 5.1. -/
def LayerState.code : LayerState → Nat
  | .free => 0 | .bound => 1 | .cued => 2 | .playing => 3 | .ended => 4

/-- Drop reason codes, in the order of the table of R122. -/
def DropReason.code : DropReason → Nat
  | .range => 0 | .unset => 1 | .merge => 2 | .late => 3 | .sag => 4 | .quiet => 5 | .blocked => 6 | .hot => 7
  | .yielded => 8 | .missed => 9

/-- Drive state codes, in the order of section 8.1. -/
def DriveState.code : DriveState → Nat
  | .rest => 0 | .strike => 1 | .sustain => 2 | .letgo => 3 | .probe => 4 | .blocked => 5

/-- Drive power state codes, in the order of section 8.9. -/
def Power.code : Power → Nat
  | .active => 0 | .quietPending => 1 | .quiet => 2 | .waking => 3

/-- Run state codes, in the order of section 9.1. -/
def RunState.code : RunState → Nat
  | .idle => 0 | .running => 1 | .stopping => 2

/-- Run kind codes (section 11.3). -/
def RunKind.code : RunKind → Nat
  | .threshold => 0 | .proof => 1

/-- Run result codes (R56). -/
def RunResult.code : RunResult → Nat
  | .none => 0 | .ok => 1 | .noStrike => 2 | .stuck => 3 | .budget => 4 | .disturbed => 5 | .aborted => 6
  | .leadRange => 7

/-- Reset cause codes (section 11.5). -/
def ResetCause.code : ResetCause → Nat
  | .power => 0 | .linkA => 1 | .linkB => 2

/-! ### Settings (section 5.4, section 11.3) -/

/-- The settings a LAYER SET body gives; none where a value is out of range, the window is reversed or a reserved flag
bit is set (R76, R176). -/
def settingsOf (r : RawSettings) : Option Settings :=
  let st : Settings :=
    { winLow := r.winLow.toNat, winHigh := r.winHigh.toNat, transpose := r.transpose.toInt, scale := r.scale.toNat
      velOffset := r.velOffset.toInt, timeOffset := r.timeOffset.toInt, mute := r.flags.getLsbD 0
      yieldKeys := r.flags.getLsbD 1
      pass := ⟨#[r.flags.getLsbD 2, r.flags.getLsbD 3, r.flags.getLsbD 4], rfl⟩
      priority := r.priority.toNat }
  if r.flags.toNat < 32 ∧ st.winLow ≤ 87 ∧ st.winHigh ≤ 87 ∧ st.winLow ≤ st.winHigh ∧ -12 ≤ st.transpose ∧
      st.transpose ≤ 12 ∧ st.scale ≤ 32 ∧ st.priority ≤ 7
  then some st else none

/-- A pedal's pass setting. -/
def Settings.passes (st : Settings) (p : Pedal) : Bool := bankGet st.pass p

/-- The flags byte of a settings report. -/
def Settings.flagsByte (st : Settings) : Byte :=
  (if st.mute then 1 else 0) ||| (if st.yieldKeys then 2 else 0) ||| (if st.passes 0 then 4 else 0) |||
    (if st.passes 1 then 8 else 0) ||| (if st.passes 2 then 16 else 0)

/-- A full set of settings as the fields of a LAYER SET body. -/
def Settings.bytes (st : Settings) : List Byte :=
  byte1 st.winLow ++ byte1 st.winHigh ++ signed1 st.transpose ++ byte1 st.scale ++ signed1 st.velOffset ++
    signed2 st.timeOffset ++ [st.flagsByte] ++ byte1 st.priority

/-! ### The map's stored words (R56) -/

/-- The words of a key entry, in order. -/
def KeyEntry.words (e : KeyEntry) : List Word16 :=
  [e.state, e.t, e.sd] ++ e.knots.toList ++ [e.g, e.lfix, e.dLow, e.dHigh, e.s, e.rm, e.rebound, e.result]

/-- The words of a pedal entry, in order. -/
def PedalEntry.words (e : PedalEntry) : List Word16 := [e.state, e.rest, e.full, e.lead, e.deadband]

/-- The total of a list of words. -/
def wordSum (ws : List Word16) : Nat := (ws.map BitVec.toNat).sum

/-- A key entry is SET. -/
def KeyEntry.isSet (e : KeyEntry) : Bool := e.state = 1

/-- A pedal entry is SET. -/
def PedalEntry.isSet (e : PedalEntry) : Bool := e.state = 1

/-- Dtravel from its two words (R56). -/
def KeyEntry.dtravel (e : KeyEntry) : Nat := e.dLow.toNat + 65536 * e.dHigh.toNat

/-- Knot D_k of a key entry. -/
def KeyEntry.knot (e : KeyEntry) (k : Fin 9) : Nat := (bankGet e.knots k).toNat

/-- The gate spacing a reader is given (R53). -/
def KeyEntry.spacing (e : KeyEntry) : Nat := if e.isSet then e.s.toNat else Config.standInSpacing

/-- The repetition minimum a reader is given (R53). -/
def KeyEntry.repetitionMin (e : KeyEntry) : Nat := if e.isSet then e.rm.toNat else Config.standInRepetition

/-- The rebound gap a reader is given (R53). -/
def KeyEntry.reboundGap (e : KeyEntry) : Nat := if e.isSet then e.rebound.toNat else Config.standInRebound

/-- The sustain drive a reader is given (R53). -/
def KeyEntry.sustainDrive (e : KeyEntry) : Nat := if e.isSet then e.sd.toNat else 0

/-- The rest drive, full drive and actuator deadband the drive unit is given (R55). -/
def PedalEntry.restDrive (e : PedalEntry) : Nat := if e.isSet then e.rest.toNat else 0
/-- See `PedalEntry.restDrive`. -/
def PedalEntry.fullDrive (e : PedalEntry) : Nat := if e.isSet then e.full.toNat else 0
/-- See `PedalEntry.restDrive`. -/
def PedalEntry.actDeadband (e : PedalEntry) : Nat := if e.isSet then e.deadband.toNat else 1

end Sys2Proof.Machine
end

