-- ==== Sys2Proof/Machine/Arith.lean ====
section
/-! DEFINITION. The strike arithmetic (spec/06_strike_arithmetic.md), the hammer velocity of a captured strike (R7), and
the arithmetic of calibration runs (R155, R157, R159). Every formula is exact, with the floors the rules show. -/

namespace Sys2Proof.Machine

/-- The velocity of a hammer from the gate spacing in µm and the interval in µs (R7). -/
def hammerVelocity (spacing dt : Nat) : Nat :=
  let d := if dt = 0 then 1 else dt
  clampNat 1 1023 ((400 * spacing + d) / (2 * d))

/-- Stage A: the event clock-time O + (t − C) + time offset, exact and signed (R92). -/
def eventTime (origin time cue : Nat) (offset : Int) : Int := (origin : Int) + ((time : Int) - cue) + offset

/-- Stage B: the layer velocity (R93). -/
def layerVelocity (v scale : Nat) (offset : Int) : Nat :=
  (clampInt 1 1023 (((v * scale + 8) / 16 : Nat) + offset)).toNat

/-- Stage D: the corrected velocity v' (R94). -/
def gainVelocity (v g : Nat) : Nat := clampNat 1 1023 ((v * g + 8192) / 16384)

/-- A knot by number; v' ≤ 1023 keeps the number within 0..8. -/
def KeyEntry.knotAt (e : KeyEntry) (k : Nat) : Nat := if h : k < 9 then e.knot ⟨k, h⟩ else e.knot 8

/-- Stage E: the curve at v' (R95). -/
def curveAt (e : KeyEntry) (v : Nat) : Int :=
  let k := v / 128
  let frac := v - 128 * k
  (e.knotAt k : Int) + (((e.knotAt (k + 1) : Int) - e.knotAt k) * frac + 64) / 128

/-- Stage E: the demand drive, floored at the threshold drive (R96). -/
def demandAt (e : KeyEntry) (v : Nat) : Nat := (max (curveAt e v) e.t.toNat).toNat

/-- Stage F: the lead in ticks (R98). -/
def leadAt (e : KeyEntry) (v : Nat) : Nat :=
  clampNat 1 4000 ((e.lfix.toNat * v + e.dtravel + 50 * v - 1) / (50 * v))

/-- Stage F: the intended flight time F in µs (R98). -/
def flightAt (e : KeyEntry) (v : Nat) : Nat := e.lfix.toNat + e.dtravel / v

/-- What stages D to F give a strike (R94 to R98). -/
structure StrikeValues where
  demand : Nat
  lead   : Nat
  flight : Nat
deriving DecidableEq, Repr

/-- The safe values of a strike while the map is in FAULT (R67, R97). -/
def safeStrike : StrikeValues :=
  { demand := Config.safeDemand, lead := Config.safeLead, flight := Config.safeFlight }

/-- Stages D to F for a velocity on an entry, with the integrity state read at the same instant (R97, R106). -/
def strikeValues (e : KeyEntry) (integrity : Integrity) (velocity : Nat) : StrikeValues :=
  match integrity with
  | .fault => safeStrike
  | .good =>
    let v := gainVelocity velocity e.g.toNat
    { demand := demandAt e v, lead := leadAt e v, flight := flightAt e v }

/-- The lead of a DEPRESS action: ceil(Lfix / 50), at least 1 (R99). -/
def depressLead (e : KeyEntry) : Nat := max 1 ((e.lfix.toNat + 49) / 50)

/-- The compensation voltage Vc (R101). -/
def Drive.vc (d : Drive) : Nat := max d.vmeas d.vsag

/-- Stage H: the applied drive of a demand (R101). -/
def compensate (demand vnom vc : Nat) : Nat := min 4095 ((demand * vnom + vc / 2) / vc)

/-- The applied drive of a demand with the drive unit's present supply values (R101). -/
def Drive.applied (d : Drive) (demand : Nat) : Nat := compensate demand d.vnom d.vc

/-- The actuator drive of a merged pedal demand before compensation (R103); the span of a SET entry is never negative. -/
def pedalDrive (e : PedalEntry) (p : Nat) : Nat :=
  ((e.restDrive : Int) + (((e.fullDrive : Int) - e.restDrive) * p * 2 + 255) / 510).toNat

/-- The heat after a fire (R104). -/
def heatAfterFire (heat applied : Nat) : Nat := min 65535 (heat + applied / 16)

/-- The heat after a service period (R105). -/
def heatAfterPeriod (heat appliedSustain : Nat) : Nat := min 65535 (heat - heat / 128 + appliedSustain / 64)

/-- Knot i of an entry a threshold search creates (R157). -/
def createdKnot (t i : Nat) : Nat := t + ((4095 - t) * i + 4) / 8

/-- The sustain drive that stands below a new threshold (R64, R157): max(0, T − 64). -/
def sustainBelow (t : Nat) : Nat := t - 64

/-- The new gain of a proof (R159). -/
def provedGain (g target average : Nat) : Nat := clampNat 8192 32767 ((2 * g * target + average) / (2 * average))

/-- The new fixed lead of a proof (R159). -/
def provedLead (lfix : Nat) (errAverage : Int) : Nat := (clampInt 0 20000 (lfix + errAverage)).toNat

/-- The first frame boundary at or after a tick. -/
def boundaryFrom (t : Nat) : Nat := Config.frame * ((t + (Config.frame - 1)) / Config.frame)

/-- The first frame boundary above a tick. -/
def boundaryAbove (t : Nat) : Nat := Config.frame * (t / Config.frame + 1)

/-- A tick is a frame boundary. -/
def onBoundary (t : Nat) : Bool := t % Config.frame = 0

/-- The multiple of the sync length nearest a position, the higher of two equally near (R48). -/
def expectedPosition (p l : Nat) : Nat := l * ((2 * p + l) / (2 * l))

end Sys2Proof.Machine
end

