-- ==== Sys2Proof/Machine/TakeStore.lean ====
section
/-! DEFINITION. The take store (spec/02_the_take_store.md): opening, appending, closing, erasing, reading, the cue
search and the refill of a layer's ring. -/

namespace Sys2Proof.Machine

/-- The address of record `i` of a take through its block list (R22). -/
def TakeEntry.recordAddr (e : TakeEntry) (i : Nat) : Nat :=
  placeAddr (e.blocks.getD (i / Config.blockRecords) 0) (i % Config.blockRecords)

/-- Record `i` of a take (R22). -/
def Store.record (st : Store) (t : TakeNo) (i : Nat) : Record := memRecord st.mem ((st.entry t).recordAddr i)

/-- The records of a take from an index on, `n` of them. -/
def Store.records (st : Store) (t : TakeNo) (i : Nat) : Nat → List Record
  | 0 => []
  | n + 1 => st.record t i :: Store.records st t (i + 1) n

/-- The lowest FREE directory entry (R24). -/
def Store.freeEntry (st : Store) : Option TakeNo := allTakes.find? fun t => (st.entry t).state = .free

/-- Allocation of R24 and R25: the lowest FREE entry and the lowest free block become an empty OPEN take; none where
either is missing. -/
def Store.openTake (st : Store) (w : Writer) : Option (TakeNo × Store) :=
  match st.freeEntry, st.pool with
  | some t, b :: pool =>
    some (t, { st with
      dir := bankSet st.dir t
        { state := .opened, writer := some w, length := 0, lastTime := 0, blocks := [b], bound := 0, origin := none }
      pool := pool })
  | _, _ => none

/-- A record written at index length, the length and last time following it. -/
def Store.putRecord (st : Store) (t : TakeNo) (e : TakeEntry) (r : Record) : Store :=
  { st with
    mem := memWriteBytes st.mem (e.recordAddr e.length) r.bytes
    dir := bankSet st.dir t { e with length := e.length + 1, lastTime := r.time.toNat } }

/-- One record appended to an OPEN take with room kept for END (R26); none where the pool has no block for it. -/
def Store.appendRecord (st : Store) (t : TakeNo) (r : Record) : Option Store :=
  let e := st.entry t
  if e.length + 1 < Config.blockRecords * e.blocks.length then some (st.putRecord t e r)
  else
    match st.pool with
    | [] => none
    | b :: pool => some (Store.putRecord { st with pool := pool } t { e with blocks := e.blocks ++ [b] } r)

/-- A take closed with its END in the reserved place, at the later of its last time and the given time (R30). -/
def Store.closeTake (st : Store) (t : TakeNo) (time : Nat) : Store :=
  let e := st.entry t
  let st' := st.putRecord t e (mkRecord kindEnd 0 0 (max e.lastTime time))
  st'.setEntry t { (st'.entry t) with state := .closed, writer := none }

/-- A block put into the free pool in its place. -/
def poolInsert (b : Nat) : List Nat → List Nat
  | [] => [b]
  | x :: rest => if b < x then b :: x :: rest else if b = x then x :: rest else x :: poolInsert b rest

/-- A take removed, its blocks back in the pool (R32). -/
def Store.eraseTake (st : Store) (t : TakeNo) : Store :=
  { st with
    dir := bankSet st.dir t TakeEntry.free
    pool := (st.entry t).blocks.foldl (fun pool b => poolInsert b pool) st.pool }

/-- The capture origin of a take written into its entry (R25). -/
def Store.setOrigin (st : Store) (t : TakeNo) (origin : Nat) : Store :=
  st.setEntry t { (st.entry t) with origin := some origin }

/-- The bound-layer count of a take changed (R33). -/
def Store.setBound (st : Store) (t : TakeNo) (f : Nat → Nat) : Store :=
  st.setEntry t { (st.entry t) with bound := f (st.entry t).bound }

/-- Every bound-layer count set to 0 (R37). -/
def Store.unbindAll (st : Store) : Store := { st with dir := bankMap (fun _ e => { e with bound := 0 }) st.dir }

/-- What APPEND and LAYER FEED answer after their records: the code of the failing test or OK, and the count accepted. -/
structure Accepted where
  status : Status
  count  : Nat
deriving DecidableEq, Repr

/-- The records of an APPEND taken one by one under R28. -/
def Store.appendAll (t : TakeNo) : List Record → Nat → Store → Accepted × Store
  | [], n, st => ({ status := .ok, count := n }, st)
  | r :: rs, n, st =>
    if !r.legal || r.isEnd then ({ status := .badVal, count := n }, st)
    else if r.time.toNat < (st.entry t).lastTime then ({ status := .order, count := n }, st)
    else
      match st.appendRecord t r with
      | none => ({ status := .full, count := n }, st)
      | some st' => Store.appendAll t rs (n + 1) st'

/-! ### The cue search (R34) -/

/-- The time of the first MARK record with value `n` among `fuel` records from index `i`. -/
def Store.findMark (st : Store) (t : TakeNo) (n : Nat) : Nat → Nat → Option Nat
  | 0, _ => none
  | fuel + 1, i =>
    let r := st.record t i
    if r.kind.toNat = kindMark ∧ r.value.toNat = n then some r.time.toNat else Store.findMark st t n fuel (i + 1)

/-- The lowest index from `i` whose record is at time `c` or later or is the END. -/
def Store.findCue (st : Store) (t : TakeNo) (c : Nat) : Nat → Nat → Nat
  | 0, i => i
  | fuel + 1, i =>
    let r := st.record t i
    if c ≤ r.time.toNat ∨ r.isEnd then i else Store.findCue st t c fuel (i + 1)

/-- The value of the last PEDAL record of a pedal below index `i`. -/
def Store.pedalBefore (st : Store) (t : TakeNo) (p : Pedal) : Nat → Option Nat
  | 0 => none
  | i + 1 =>
    let r := st.record t i
    if r.kind.toNat = kindPedal ∧ r.target.toNat = p.val then some r.value.toNat else Store.pedalBefore st t p i

/-- What a cue search reports: the cue index and the chased pedal values. -/
structure CueFound where
  index : Nat
  chase : Bank (Option Nat) 3

/-- The cue search for a cue time (R34). -/
def Store.cueSearch (st : Store) (t : TakeNo) (c : Nat) : CueFound :=
  let i := st.findCue t c (st.entry t).length 0
  { index := i, chase := Vector.ofFn fun p => st.pedalBefore t p i }

/-! ### Replies about takes -/

/-- The body of the replies to APPEND: count accepted, length, last time (R28). -/
def Store.appendBody (st : Store) (t : TakeNo) (n : Nat) : List Byte :=
  byte4 n ++ byte4 (st.entry t).length ++ byte4 (st.entry t).lastTime

/-- The body of the reply to INFO (R31). -/
def Store.infoBody (st : Store) (t : TakeNo) : List Byte :=
  let e := st.entry t
  byte1 e.state.code ++ optByte1 (e.writer.map Writer.code) ++ byte4 e.length ++ byte4 e.lastTime ++
    byte4 e.blocks.length ++ byte4 e.bound ++ optByte4 e.origin ++ byte4 st.pool.length

/-- The tests APPEND and CLOSE share (R27): the writer's own OPEN take, or the refusal. -/
def Store.writable (st : Store) (take : Byte) (l : Link) : Except Status TakeNo :=
  match takeOf take with
  | none => .error .badVal
  | some t =>
    match (st.entry t).state with
    | .free => .error .noTake
    | .closed => .error .state
    | .opened => if (st.entry t).writer = some (.link l) then .ok t else .error .held

/-- The answer to TAKE OPEN (R24). -/
def answerTakeOpen (l : Link) (s : State) : Answer :=
  match s.store.openTake (.link l) with
  | none => refuse .full s
  | some (t, st) => { status := .ok, body := byte1 t.val ++ byte4 st.pool.length, state := { s with store := st } }

/-- The answer to APPEND (R27, R28). -/
def answerAppend (l : Link) (take : Byte) (rs : List Record) (s : State) : Answer :=
  match s.store.writable take l with
  | .error st => refuse st s
  | .ok t =>
    let (acc, st) := Store.appendAll t rs 0 s.store
    { status := acc.status, body := st.appendBody t acc.count, state := { s with store := st } }

/-- The answer to CLOSE (R30). -/
def answerClose (l : Link) (take : Byte) (endTime : Word32) (s : State) : Answer :=
  if takeOf take = none ∨ Config.clockLimit < endTime.toNat then refuse .badVal s
  else
    match s.store.writable take l with
    | .error st => refuse st s
    | .ok t =>
      let st := s.store.closeTake t endTime.toNat
      { status := .ok, body := byte4 (st.entry t).length ++ byte4 (st.entry t).lastTime, state := { s with store := st } }

/-- The answer to READ (R31). -/
def answerRead (take : Byte) (start : Word32) (count : Byte) (s : State) : Answer :=
  match takeOf take with
  | none => refuse .badVal s
  | some t =>
    let e := s.store.entry t
    if e.state = .free then refuse .noTake s
    else if count.toNat < 1 ∨ 30 < count.toNat then refuse .badVal s
    else if e.length < start.toNat then refuse .badVal s
    else
      let n := min count.toNat (e.length - start.toNat)
      { status := .ok
        body := byte1 e.state.code ++ byte4 e.length ++ recordsBytes (s.store.records t start.toNat n)
        state := s }

/-- The answer to INFO (R31). -/
def answerInfo (take : Byte) (s : State) : Answer :=
  match takeOf take with
  | none => refuse .badVal s
  | some t => { status := .ok, body := s.store.infoBody t, state := s }

/-- The answer to ERASE (R32). -/
def answerErase (take : Byte) (s : State) : Answer :=
  match takeOf take with
  | none => refuse .badVal s
  | some t =>
    let e := s.store.entry t
    match e.state with
    | .free => refuse .noTake s
    | .opened => refuse .inUse s
    | .closed =>
      if e.bound ≠ 0 then refuse .inUse s
      else
        let st := s.store.eraseTake t
        { status := .ok, body := byte4 e.blocks.length ++ byte4 st.pool.length, state := { s with store := st } }

end Sys2Proof.Machine
end

