-- ==== Sys2Proof/Machine/CaptureOps.lean ====
section
/-! DEFINITION. The capture unit (spec/01_keys_pedals_and_capture.md): records written into the capture take, closing it,
the hand-over of a key to the drive unit and back (R12, R13), gate events on keys the part is not driving, key
samples, frame samples, the capture origin and the re-entry into RECORDING. -/

namespace Sys2Proof.Machine

/-- The window expiry of a key: its gate-1 instant plus 60,000 µs (R5, R11). -/
def CapKey.windowExpiry (k : CapKey) : Option Nat := k.gate1At.map (· + Config.windowMicros)

/-- The take time of the present instant (R10). -/
def State.takeTime (s : State) : Nat := s.clk.position - s.cap.origin.getD 0

/-- The capture take closed with an END at the given take time, the origin set to the clock position where it was not
fixed; the capture unit is IDLE afterwards (R18, R25). With no target take only the unit's state changes. -/
def closeCapture (endTime : Nat) (s : State) : State :=
  let idle : Capture := { s.cap with state := .idle, target := none, origin := none }
  match s.cap.target with
  | none => { s with cap := idle }
  | some t =>
    let st := match s.cap.origin with
      | some _ => s.store
      | none => s.store.setOrigin t s.clk.position
    { s with store := st.closeTake t endTime, cap := idle }

/-- The closing of CAPTURE STOP and of a clock stop: END at the present take time, or at 0 with no origin fixed (R18). -/
def stopCapture (s : State) : State :=
  closeCapture (match s.cap.origin with
    | some _ => s.takeTime
    | none => 0) s

/-- A record written into the capture take while RECORDING (R10, R29); refused FULL, the record is lost and the take is
closed with its time, STORE_FULL raised in both sets (R19). -/
def captureWrite (kind target value time : Nat) (s : State) : State :=
  match s.cap.state, s.cap.target with
  | .recording, some t =>
    match s.store.appendRecord t (mkRecord kind target value time) with
    | some st => { s with store := st }
    | none => raiseBoth .storeFull (closeCapture time s)
  | _, _ => s

/-- A RELEASE record written for a key at the present instant and held cleared, where the unit is RECORDING; nothing
otherwise (R8, R9). DEDUCED: held is cleared though the record is lost by FULL (R19, notes/assumptions/27). -/
def captureRelease (k : Key) (s : State) : State :=
  if s.cap.state = .recording then
    captureWrite kindRelease k.val 0 s.takeTime (s.setCapKey k { (s.capKey k) with held := false })
  else s

/-- A key's drive record has left REST (R12): its window is abandoned, its capture state is UP, a held note ends. -/
def ownKey (k : Key) (s : State) : State :=
  let c := s.capKey k
  let s' := s.setCapKey k { c with state := .up, gate1At := none, held := false }
  if c.held then captureWrite kindRelease k.val 0 s'.takeTime s' else s'

/-- A key's drive record has returned to REST (R13). -/
def disownKey (k : Key) (s : State) : State :=
  s.setCapKey k { (s.capKey k) with state := .up, gate1At := none, held := false }

/-- A gate-1 event on a key (R5, R11): the instant and its window begin; a key not drive-owned enters GATE1. -/
def captureGate1 (k : Key) (s : State) : State :=
  let c := s.capKey k
  if s.driveOwned k then s.setCapKey k { c with gate1At := some s.now }
  else s.setCapKey k { c with state := .gate1, gate1At := some s.now }

/-- The velocity of a passage of a key completed now, where a gate-1 instant is present (R7, R11). -/
def passageVelocity (k : Key) (s : State) : Option Nat :=
  (s.capKey k).gate1At.map fun t => hammerVelocity (bankGet s.map.keys k).spacing (s.now - t)

/-- A gate-2 event on a key that is not drive-owned (R6). DEDUCED: held is set though the STRIKE record is lost by FULL (R19,
notes/assumptions/27). -/
def captureGate2 (k : Key) (s : State) : State :=
  let c := s.capKey k
  match c.state, passageVelocity k s with
  | .gate1, some v =>
    let recording := s.cap.state = .recording
    let s' := s.setCapKey k { c with state := .down, gate1At := none, held := c.held || recording }
    captureWrite kindStrike k.val v s'.takeTime s'
  | _, _ => s

/-- The end of a key's gate-1 window (R8, R11): judged against the down threshold of this instant (R20) and, DEDUCED, against
the release threshold in force when the last position was sampled (R2, notes/assumptions/30). DEDUCED: held is set though the
DEPRESS record is lost by FULL (R19, notes/assumptions/27). -/
def captureWindowEnd (k : Key) (s : State) : State :=
  let c := s.capKey k
  let ended : CapKey := { c with gate1At := none }
  if s.driveOwned k then s.setCapKey k ended
  else
    match c.state with
    | .gate1 =>
      if s.cap.down < c.lastPos.val then
        if c.held then s.setCapKey k { ended with state := .down }
        else
          let s' := s.setCapKey k { ended with state := .down, held := decide (s.cap.state = .recording) }
          captureWrite kindDepress k.val 0 s'.takeTime s'
      else if c.releaseAt ≤ c.lastPos.val then
        s.setCapKey k { ended with state := if c.held then .down else .up }
      else
        let s' := s.setCapKey k { ended with state := .up }
        if c.held then captureRelease k s' else s'
    | _ => s.setCapKey k ended

/-- The capture unit's part of a key sample (R1, R2, R9). -/
def captureSample (k : Key) (p : KeyPos) (s : State) : State :=
  let c := s.capKey k
  let sampled : CapKey := { c with lastPos := p, releaseAt := s.cap.release }
  let s' := s.setCapKey k sampled
  if s.driveOwned k ∨ s.cap.release ≤ p.val then s'
  else
    match c.state with
    | .up => s'
    | .gate1 => if c.held then captureRelease k s' else s'
    | .down =>
      let s'' := s'.setCapKey k { sampled with state := .up }
      if c.held then captureRelease k s'' else s''

/-! ### Pedals and frame samples (section 1.5) -/

/-- A pedal's reading among the three. -/
def readingAt (r : PedalReadings) (p : Pedal) : Nat :=
  if p = 0 then r.p0.val else if p = 1 then r.p1.val else r.p2.val

/-- The window of a pedal after a frame sample (R14). -/
def CapPedal.sampled (c : CapPedal) (x : Nat) : CapPedal :=
  if c.firstFrame then { c with w0 := x, w1 := x, w2 := x, w3 := x }
  else { c with w0 := c.w1, w1 := c.w2, w2 := c.w3, w3 := x }

/-- The average of a pedal's window (R14). -/
def CapPedal.average (c : CapPedal) : Nat := (c.w0 + c.w1 + c.w2 + c.w3 + 2) / 4

/-- Some layer with pedal pass set holds a demand for a pedal, so that its capture is suppressed (R15). -/
def State.pedalDriven (s : State) (p : Pedal) : Bool :=
  (s.layer0.latched.passes p && (bankGet s.layer0.demands p).isSome) ||
    (s.layer1.latched.passes p && (bankGet s.layer1.demands p).isSome)

/-- One pedal's frame sample (R14, R15), for a take time; nothing once the unit has left RECORDING (R19). DEDUCED: the last
emitted value and the first-frame mark change though the PEDAL record is lost by FULL (R19, notes/assumptions/31). -/
def framePedal (r : PedalReadings) (time : Nat) (s : State) (p : Pedal) : State :=
  if s.cap.state = .recording then
    let c := (bankGet s.cap.pedals p).sampled (readingAt r p)
    let put (c : CapPedal) (s : State) : State := { s with cap := { s.cap with pedals := bankSet s.cap.pedals p c } }
    if s.pedalDriven p then put { c with firstFrame := true } s
    else if c.firstFrame ∨ s.cap.deadband ≤ max c.average c.lastEmitted - min c.average c.lastEmitted then
      captureWrite kindPedal p.val c.average time (put { c with lastEmitted := c.average, firstFrame := false } s)
    else put c s
  else s

/-- A frame sample at a frame boundary (R14): pedals 0, 1 and 2 in that order. -/
def frameSample (r : PedalReadings) (boundary : Nat) (s : State) : State :=
  allPedals.foldl (framePedal r (boundary - s.cap.origin.getD 0)) s

/-- Every first-frame mark set: each entry to RECORDING does so (R15). -/
def Capture.markFirst (c : Capture) : Capture :=
  { c with pedals := bankMap (fun _ p => { p with firstFrame := true }) c.pedals }

/-- The origin fixed at a boundary and RECORDING entered (R17). -/
def fixOrigin (boundary : Nat) (s : State) : State :=
  match s.cap.target with
  | none => s
  | some t =>
    { s with
      store := s.store.setOrigin t boundary
      cap := { s.cap.markFirst with state := .recording, origin := some boundary } }

/-- A frame event at the capture unit (R14, R17): the origin where it is awaited, then the frame sample. -/
def captureFrame (r : PedalReadings) (boundary : Nat) (s : State) : State :=
  let s' := if s.cap.state = .paused ∧ s.cap.origin = none then fixOrigin boundary s else s
  frameSample r boundary s'

/-- A key released while nothing was being written, which the re-entry into RECORDING releases in the take (R17, R2). -/
def State.releasedUnseen (s : State) (k : Key) : Bool :=
  let c := s.capKey k
  !s.driveOwned k && c.held &&
    (c.state = .up || (c.state = .gate1 && decide (c.lastPos.val < c.releaseAt)))

/-- The capture unit re-enters RECORDING with its origin when the clock re-enters RUNNING (R17). -/
def captureReenter (s : State) : State :=
  if s.cap.state = .paused ∧ s.cap.origin ≠ none then
    let s' : State := { s with cap := { s.cap.markFirst with state := .recording } }
    allKeys.foldl (fun s k => if s.releasedUnseen k then captureRelease k s else s) s'
  else s

/-- The capture unit follows the clock into PAUSED (R17). -/
def capturePause (s : State) : State :=
  if s.cap.state = .recording then { s with cap := { s.cap with state := .paused } } else s

/-! ### Requests of the capture unit -/

/-- The answer to CAPTURE START (R16): a take opened for the capture unit, held cleared, PAUSED; the origin is fixed at
once where the clock is RUNNING on a frame boundary (R17). -/
def answerCaptureStart (r : PedalReadings) (s : State) : Answer :=
  if s.cap.state ≠ .idle then refuse .state s
  else
    match s.store.openTake .capture with
    | none => refuse .full s
    | some (t, st) =>
      let s' : State :=
        { s with
          store := st
          cap := { s.cap with
            state := .paused, target := some t, origin := none
            keys := bankMap (fun _ c => { c with held := false }) s.cap.keys } }
      { status := .ok
        body := byte1 t.val ++ byte1 CaptureState.paused.code
        state := if s'.running && onBoundary s'.clk.position then captureFrame r s'.clk.position s' else s' }

/-- The answer to CAPTURE STOP (R18). -/
def answerCaptureStop (s : State) : Answer :=
  match s.cap.state, s.cap.target with
  | .idle, _ => refuse .state s
  | _, none => { status := .ok, body := [], state := stopCapture s }
  | _, some t =>
    let s' := stopCapture s
    { status := .ok, body := byte1 t.val ++ byte4 (s'.store.entry t).length, state := s' }

/-- The thresholds of a CAPTURE SET stand in their ranges and in their order (R20). -/
def thresholdsGood (release repetition down : Nat) : Bool :=
  decide (50 ≤ release) && decide (release ≤ 900) && decide (60 ≤ repetition) && decide (repetition ≤ 950) &&
    decide (70 ≤ down) && decide (down ≤ 1000) && decide (release < repetition) && decide (repetition < down)

/-- The answer to CAPTURE SET (R20). -/
def answerCaptureSet (release repetition down : Word16) (deadband : Byte) (s : State) : Answer :=
  if thresholdsGood release.toNat repetition.toNat down.toNat then
    let db := clampNat 1 32 deadband.toNat
    { status := .ok
      body := byte2 release.toNat ++ byte2 repetition.toNat ++ byte2 down.toNat ++ byte1 db
      state := { s with cap := { s.cap with
        release := release.toNat, repetition := repetition.toNat, down := down.toNat, deadband := db } } }
  else refuse .badVal s

/-- The capture unit at a soft reset (R4, R21): the take is closed first, the key records, marks and origin reset. -/
def softResetCapture (s : State) : State :=
  let s' := if s.cap.state = .idle then s else stopCapture s
  { s' with cap := { s'.cap.markFirst with
    state := .idle, target := none, origin := none
    keys := bankMap (fun _ c => { c with state := .up, gate1At := none, held := false }) s'.cap.keys } }

end Sys2Proof.Machine
end

