-- ==== Sys2Proof/Machine/DriveOps.lean ====
section
/-! DEFINITION. The drive unit's own operations (spec/08_solenoid_drive.md): the change of a key's drive state with its
hand-over to the capture unit (R129), fire, detection, sustain, let-go, the pedal actuators and the supply. What the
scheduler does on the drive unit's reports is in Plan.lean. -/

namespace Sys2Proof.Machine

/-- A key's drive record replaced; the capture unit takes the key over or gives it up where it leaves REST or returns to
it, at the same instant (R129, R12, R13). -/
def putDriveKey (k : Key) (d : DriveKey) (s : State) : State :=
  let was := (s.driveKey k).state
  let s' := s.setDriveKey k d
  if was = .rest ∧ d.state ≠ .rest then ownKey k s'
  else if was ≠ .rest ∧ d.state = .rest then disownKey k s'
  else s'

/-- A key record entering LETGO (R139): drive off, no owner, a fresh let-go expiry; the fire in flight stays. -/
def DriveKey.lettingGo (d : DriveKey) (now : Nat) : DriveKey :=
  { d with
    state := .letgo, owner := none, sustainDemand := none, reboundGap := none, sustain := none, reboundEnd := none
    letGoAt := some (now + Config.letGoMicros) }

/-- A key put into LETGO at this instant (R137, R138, R139). -/
def enterLetGo (k : Key) (s : State) : State := putDriveKey k ((s.driveKey k).lettingGo s.now) s

/-- A key record entering REST (R129, R139): no owner, no let-go expiry, no fire in flight. -/
def DriveKey.resting (d : DriveKey) : DriveKey :=
  { d with
    state := .rest, owner := none, fire := none, sustainDemand := none, reboundGap := none, sustain := none
    reboundEnd := none, letGoAt := none }

/-- A key put into REST. -/
def enterRest (k : Key) (s : State) : State := putDriveKey k (s.driveKey k).resting s

/-- Sustain drive begins on a key in SUSTAIN (R136): the sustain demand compensated and held (R102). -/
def beginSustain (k : Key) (s : State) : State :=
  let d := s.driveKey k
  s.setDriveKey k { d with sustain := some (s.drive.applied (d.sustainDemand.getD 0)), reboundEnd := none }

/-- A detection (R134): the fire in flight removed, SUSTAIN with its rebound gap from the echo's gate-2 instant. -/
def detect (k : Key) (s : State) : State :=
  let d := s.driveKey k
  let gap := d.reboundGap.getD 0
  let s' := putDriveKey k
    { d with
      state := .sustain, fire := none, sustain := none
      reboundEnd := some (s.now + Config.tickMicros * gap) } s
  if gap = 0 then beginSustain k s' else s'

/-- A key let go or struck again: it is in STRIKE or SUSTAIN. -/
def DriveState.holdsKey : DriveState → Bool
  | .strike => true
  | .sustain => true
  | _ => false

/-- A strike fires on a key (R133) for an action's layer, event clock-time, layer velocity, demand and F. -/
def fireStrike (k : Key) (y : LayerId) (event velocity demand flight : Nat) (s : State) : State :=
  let d := s.driveKey k
  let e := bankGet s.map.keys k
  let applied := s.drive.applied demand
  let intended := s.now + flight
  putDriveKey k
    (DriveKey.withHeat
      { d with
        state := .strike, owner := some y, lastFire := some s.clk.position
        fire := some
          { kind := .strike y event velocity demand flight intended, firedAt := s.now
            grace := intended + Config.strikeGraceMicros, applied := applied }
        sustainDemand := some e.sustainDrive, reboundGap := some e.reboundGap, sustain := none, reboundEnd := none }
      (heatAfterFire d.heat applied)) s

/-- A calibration pulse fires on a key (R141): PROBE, no owner, a fire in flight of kind PULSE. -/
def firePulse (k : Key) (level : Nat) (s : State) : State :=
  let d := s.driveKey k
  let applied := s.drive.applied level
  putDriveKey k
    (DriveKey.withHeat
      { d with
        state := .probe, owner := none
        fire := some { kind := .pulse, firedAt := s.now, grace := s.now + Config.pulseGraceMicros, applied := applied } }
      (heatAfterFire d.heat applied)) s

/-- A DEPRESS carried out on a key in REST (R137): SUSTAIN at once with the action's demand. -/
def depressKey (k : Key) (y : LayerId) (demand : Nat) (s : State) : State :=
  beginSustain k
    (putDriveKey k
      { (s.driveKey k) with
        state := .sustain, owner := some y, sustainDemand := some demand, reboundGap := some 0, sustain := none
        reboundEnd := none } s)

/-! ### Pedal actuators (R146) -/

/-- The greatest demand present among the two layers for a pedal. -/
def State.mergedDemand (s : State) (p : Pedal) : Option Nat :=
  match bankGet s.layer0.demands p, bankGet s.layer1.demands p with
  | some a, some b => some (max a b)
  | some a, none => some a
  | none, b => b

/-- The pedal outputs are on in this drive power state (section 8.9). -/
def Power.drivesPedals : Power → Bool
  | .active => true
  | .quietPending => true
  | .quiet => false
  | .waking => false

/-- A pedal is driven from its merged demand under the deadband test (R146, R103). DEDUCED: the test holds for a pedal made
UNSET while it is driven too, where R55 has it driven at 0 from its next change of demand (notes/assumptions/32). -/
def drivePedal (p : Pedal) (s : State) : State :=
  let merged := s.mergedDemand p
  let r := bankGet s.drive.pedals p
  let e := bankGet s.map.pedals p
  let put (r : PedalDrive) : State := { s with drive := { s.drive with pedals := bankSet s.drive.pedals p r } }
  if s.drive.power.drivesPedals then
    match merged, r.applied with
    | none, _ => put { merged := none, applied := none, output := 0 }
    | some m, none => put { merged := merged, applied := some m, output := s.drive.applied (pedalDrive e m) }
    | some m, some a =>
      if m = 0 ∨ m = 255 ∨ e.actDeadband ≤ max m a - min m a then
        put { merged := merged, applied := some m, output := s.drive.applied (pedalDrive e m) }
      else put { r with merged := merged }
  else put { merged := merged, applied := none, output := 0 }

/-- Every pedal driven from its merged demand: the entry to ACTIVE (R145, R146). -/
def driveAllPedals (s : State) : State := allPedals.foldl (fun s p => drivePedal p s) s

/-- Every pedal output off, the merged demands kept (R144, R146). -/
def pedalsOff (s : State) : State :=
  { s with drive := { s.drive with pedals := bankMap (fun _ r => { r with applied := none, output := 0 }) s.drive.pedals } }

/-- A layer's demand for a pedal changed; the drive unit merges at each change (R86, R146). -/
def setDemand (y : LayerId) (p : Pedal) (v : Option Nat) (s : State) : State :=
  if bankGet (s.layer y).demands p = v then s
  else drivePedal p (s.setLayer y { (s.layer y) with demands := bankSet (s.layer y).demands p v })

/-- Every pedal demand of a layer becomes absent. -/
def dropDemands (y : LayerId) (s : State) : State := allPedals.foldl (fun s p => setDemand y p none s) s

/-! ### Supply and power -/

/-- SAG judged at once against the latest reading, where the drive power state judges it; SAG is raised in both sets
when it becomes live (R143). -/
def judgeSag (s : State) : State :=
  if s.drive.power.judgesSag then
    let live := s.drive.judgedSag
    let s' : State := { s with drive := { s.drive with sag := live } }
    if live && !s.drive.sag then raiseBoth .sag s' else s'
  else s

/-- Entry into QUIET (R144): SUPPLY_EN off with the state, live SAG cleared, every pedal output 0. -/
def enterQuiet (s : State) : State :=
  pedalsOff { s with drive := { s.drive with power := .quiet, sag := false, wakeAt := none } }

/-- QUIET_PENDING becomes QUIET at the instant the last key not in REST enters REST (R144). -/
def quietIfAtRest (s : State) : State :=
  if s.drive.power = .quietPending ∧ s.allRest then enterQuiet s else s

/-- Entry into ACTIVE (R143, R145, R146): SAG judged, the pedals driven from their merged demands. -/
def enterActive (s : State) : State :=
  driveAllPedals (judgeSag { s with drive := { s.drive with power := .active, wakeAt := none } })

/-- The heat update of a service period for one key record (R105, R142). -/
def DriveKey.period (d : DriveKey) : DriveKey :=
  d.withHeat (heatAfterPeriod d.heat (if d.state = .sustain then d.appliedSustain else 0))

/-- The drive unit's part of a service-period event (R105). -/
def heatPeriod (s : State) : State :=
  { s with drive := { s.drive with keys := bankMap (fun _ d => d.period) s.drive.keys } }

/-- The drive unit at a soft reset (R149). -/
def softResetDrive (s : State) : State :=
  { s with drive := { s.drive with
    keys := bankMap (fun _ d =>
      let d' : DriveKey := { d with fire := none, lastFire := none }
      match d.state with
      | .rest => d'
      | .letgo => d'
      | _ => d'.lettingGo s.now) s.drive.keys
    queue := []
    pulse := none
    pedals := Vector.replicate 3 PedalDrive.reset } }

end Sys2Proof.Machine
end

