-- ==== Sys2Proof/Machine/LayerOps.lean ====
section
/-! DEFINITION. The replay layers (spec/05_replay_layers.md): refills, flow notices, feeding, latching, cueing, entry into
PLAYING and into ENDED, the stop, and the layer report. Taking a record into the plan is in Plan.lean. -/

namespace Sys2Proof.Machine

/-- The refill of a take layer's ring (R35): whole, to 256 records or the END, when the ring is below its low mark and the
cursor below the take's length. -/
def refill (y : LayerId) (s : State) : State :=
  let l := s.layer y
  match l.source with
  | some (.take t) =>
    let len := (s.store.entry t).length
    if l.ring.length < l.low ∧ l.cursor < len then
      let n := min (Config.ringPlaces - l.ring.length) (len - l.cursor)
      s.setLayer y { l with ring := l.ring ++ s.store.records t l.cursor n, cursor := l.cursor + n }
    else s
  | _ => s

/-- The low flow notice of a layer. -/
def lowNotice : LayerId → Notice
  | .l0 => .streamLow0
  | .l1 => .streamLow1

/-- The high flow notice of a layer. -/
def highNotice : LayerId → Notice
  | .l0 => .streamHigh0
  | .l1 => .streamHigh1

/-- The front record leaves the ring (R72, R83): a take layer refills, a stream layer's low crossing is judged (R75). -/
def popRing (y : LayerId) (s : State) : State :=
  let l := s.layer y
  let l' : Layer := { l with ring := l.ring.tail }
  match l.source with
  | some (.stream link) =>
    if l.low ≤ l.ring.length ∧ l'.ring.length < l.low ∧ l.lowArmed ∧ ¬ l.endFed then
      raise link (lowNotice y) (s.setLayer y { l' with lowArmed := false, highArmed := true })
    else s.setLayer y l'
  | _ => refill y (s.setLayer y l')

/-- A record joins the back of a stream layer's ring (R74); the high crossing is judged (R75). -/
def joinRing (y : LayerId) (link : Link) (r : Record) (s : State) : State :=
  let l := s.layer y
  let l' : Layer :=
    { l with ring := l.ring ++ [r], fedTime := r.time.toNat, endFed := l.endFed || r.isEnd }
  if l.ring.length ≤ l.high ∧ l.high < l'.ring.length ∧ l.highArmed then
    raise link (highNotice y) (s.setLayer y { l' with highArmed := false, lowArmed := true })
  else s.setLayer y l'

/-- The records of a LAYER FEED taken one by one under R74. -/
def feedAll (y : LayerId) (link : Link) : List Record → Nat → State → Accepted × State
  | [], n, s => ({ status := .ok, count := n }, s)
  | r :: rs, n, s =>
    let l := s.layer y
    if l.endFed then ({ status := .state, count := n }, s)
    else if !r.legal then ({ status := .badVal, count := n }, s)
    else if r.time.toNat < l.fedTime then ({ status := .order, count := n }, s)
    else if Config.ringPlaces ≤ l.ring.length then ({ status := .full, count := n }, s)
    else feedAll y link rs (n + 1) (joinRing y link r s)

/-- Staged settings latched (R77): the latched set replaced whole, and the demands of pedals no longer passed dropped. -/
def latch (y : LayerId) (s : State) : State :=
  match (s.layer y).staged with
  | none => s
  | some st =>
    allPedals.foldl (fun s p => if st.passes p then s else setDemand y p none s)
      (s.setLayer y { (s.layer y) with latched := st, staged := none })

/-- The strike plan holds an action of a layer. -/
def State.planHolds (s : State) (y : LayerId) : Bool := s.sched.plan.any fun a => a.layer = y

/-- The layer enters ENDED where it is PLAYING, its END is taken and no action of it remains (R85). -/
def endIfDone (y : LayerId) (s : State) : State :=
  let l := s.layer y
  if l.state = .playing ∧ l.endFetched ∧ ¬ s.planHolds y then
    raiseBoth .layerEnd (dropDemands y (s.setLayer y { l with state := .ended }))
  else s

/-- A CUED layer enters PLAYING where the clock is RUNNING at or above its origin (R82). -/
def enterPlaying (y : LayerId) (s : State) : State :=
  let l := s.layer y
  match l.state, l.origin with
  | .cued, some o =>
    if s.running ∧ o ≤ s.clk.position then
      let s1 := s.setLayer y { l with state := .playing, chase := Vector.replicate 3 none }
      let s2 := allPedals.foldl (fun s p =>
        match bankGet l.chase p with
        | some v => if l.latched.passes p then setDemand y p (some v) s else s
        | none => s) s1
      endIfDone y s2
    else s
  | _, _ => s

/-- A layer at a clock stop (R87). -/
def stopLayer (y : LayerId) (s : State) : State :=
  let l := s.layer y
  if l.state = .cued ∨ l.state = .playing then
    let l' : Layer :=
      { l with state := .bound, cue := none, origin := none, chase := Vector.replicate 3 none, endFetched := false }
    let l'' : Layer := match l.source with
      | some (.stream _) =>
        { l' with ring := [], fedTime := 0, endFed := false, highArmed := true, lowArmed := true }
      | _ => l'
    dropDemands y (s.setLayer y l'')
  else s

/-- The layer part of LAYER FREE (R88, R33). -/
def releaseLayer (y : LayerId) (s : State) : State :=
  let s1 := dropDemands y s
  let l := s1.layer y
  let s2 : State := match l.source with
    | some (.take t) => { s1 with store := s1.store.setBound t (· - 1) }
    | _ => s1
  s2.setLayer y
    { l with
      state := .free, source := none, ring := [], cursor := 0, fedTime := 0, endFed := false, cue := none
      origin := none, chase := Vector.replicate 3 none, endFetched := false, highArmed := true, lowArmed := true }

/-! ### The layer report (R89) -/

/-- The source bytes of a layer report: source code, take number, binding link, each 255 where absent. -/
def sourceBytes : Option Source → List Byte
  | none => byte1 255 ++ byte1 255 ++ byte1 255
  | some (.take t) => byte1 0 ++ byte1 t.val ++ byte1 255
  | some (.stream l) => byte1 1 ++ byte1 255 ++ byte1 l.code

/-- The layer report (R89). -/
def layerReport (l : Layer) : List Byte :=
  let isTake : Bool := match l.source with
    | some (.take _) => true
    | _ => false
  let isStream : Bool := match l.source with
    | some (.stream _) => true
    | _ => false
  byte1 l.state.code ++ sourceBytes l.source ++ byte4 l.ring.length ++ byte1 l.low ++ byte1 l.high ++
    optByte4 (if isTake then some l.cursor else none) ++ optByte4 (if isStream then some l.fedTime else none) ++
    flagByte l.endFed ++ flagByte l.endFetched ++ optByte4 l.cue ++ optByte4 l.origin ++ l.latched.bytes ++
    (match l.staged with
      | some st => st.bytes
      | none => List.replicate 9 255) ++
    allPedals.flatMap fun p => optByte1 (bankGet l.demands p)

/-! ### Requests of the layers -/

/-- The answer to LAYER BIND (R71, R33, R176). -/
def answerLayerBind (link : Link) (layer source take : Byte) (s : State) : Answer :=
  match layerOf layer with
  | none => refuse .badVal s
  | some y =>
    let l := s.layer y
    let bound (src : Source) (s : State) : State :=
      s.setLayer y
        { l with
          state := .bound, source := some src, ring := [], cursor := 0, fedTime := 0, endFed := false, cue := none
          origin := none, chase := Vector.replicate 3 none, endFetched := false, demands := Vector.replicate 3 none
          highArmed := true, lowArmed := true }
    if source ≠ 0 ∧ source ≠ 1 then refuse .badVal s
    else if source = 1 ∧ take ≠ 0 then refuse .badVal s
    else if l.state ≠ .free then refuse .state s
    else if source = 1 then
      let s' := bound (.stream link) s
      { status := .ok, body := layerReport (s'.layer y), state := s' }
    else
      match takeOf take with
      | none => refuse .badVal s
      | some t =>
        match (s.store.entry t).state with
        | .free => refuse .noTake s
        | .opened => refuse .inUse s
        | .closed =>
          let s' := refill y (bound (.take t) { s with store := s.store.setBound t (· + 1) })
          { status := .ok, body := layerReport (s'.layer y), state := s' }

/-- The answer to LAYER MARKS (R73). -/
def answerLayerMarks (layer low high : Byte) (s : State) : Answer :=
  match layerOf layer with
  | none => refuse .badVal s
  | some y =>
    let lo := clampNat 16 240 low.toNat
    let h := clampNat 17 255 high.toNat
    let hi := if lo < h then h else lo + 1
    { status := .ok, body := byte1 lo ++ byte1 hi
      state := refill y (s.setLayer y { (s.layer y) with low := lo, high := hi }) }

/-- The answer to LAYER FEED before the scheduler's takings (R74). -/
def answerLayerFeed (link : Link) (layer : Byte) (rs : List Record) (s : State) : Answer :=
  match layerOf layer with
  | none => refuse .badVal s
  | some y =>
    match (s.layer y).state, (s.layer y).source with
    | .free, _ => refuse .state s
    | .ended, _ => refuse .state s
    | _, some (.stream binder) =>
      if binder = link then
        let (acc, s') := feedAll y link rs 0 s
        { status := acc.status
          body := byte4 acc.count ++ byte4 (s'.layer y).ring.length ++ byte4 (s'.layer y).fedTime
          state := s' }
      else refuse .held s
    | _, _ => refuse .state s

/-- The answer to LAYER SET (R76, R77): latched at once unless the clock is RUNNING. -/
def answerLayerSet (layer : Byte) (raw : RawSettings) (s : State) : Answer :=
  match layerOf layer, settingsOf raw with
  | some y, some st =>
    let s' := s.setLayer y { (s.layer y) with staged := some st }
    { status := .ok, body := st.bytes ++ flagByte (!s.running), state := if s.running then s' else latch y s' }
  | _, _ => refuse .badVal s

/-- The cue of a LAYER CUE as its codes give it: a cue time or a mark number (section 11.3). -/
inductive CueKind where
  | time (c : Nat)
  | mark (n : Nat)
deriving DecidableEq, Repr

/-- The cue named by a cue kind byte and a cue value (R176). -/
def cueOf (kind : Byte) (value : Word32) : Option CueKind :=
  if kind = 0 then some (.time value.toNat) else if kind = 1 then some (.mark value.toNat) else none

/-- A cue value lies in its range (R79, order 2). -/
def CueKind.inRange : CueKind → Bool
  | .time c => c ≤ Config.clockLimit
  | .mark n => n ≤ 65535

/-- The entry boundary of a LAYER CUE (R79); none where the entry tick or the boundary is out of range (order 3). -/
def entryBoundary (next : Bool) (tick : Nat) (clk : Clock) : Option Nat :=
  let b :=
    if next then (if clk.state = .running then boundaryAbove clk.position else boundaryFrom clk.position)
    else boundaryFrom tick
  if (next ∨ tick ≤ Config.clockLimit) ∧ b ≤ Config.lastBoundary then some b else none

/-- A layer cued on a take at a cue time (R80). -/
def cueTake (y : LayerId) (t : TakeNo) (c o : Nat) (s : State) : State :=
  let found := s.store.cueSearch t c
  refill y (s.setLayer y
    { (s.layer y) with
      state := .cued, ring := [], cursor := found.index, cue := some c, origin := some o, chase := found.chase
      endFetched := false })

/-- A stream layer cued (R81). -/
def cueStream (y : LayerId) (o : Nat) (s : State) : State :=
  let l := s.layer y
  let l' : Layer := if l.state = .ended then { l with ring := [], fedTime := 0, endFed := false } else l
  s.setLayer y
    { l' with state := .cued, cue := some 0, origin := some o, chase := Vector.replicate 3 none, endFetched := false }

/-- The answer to LAYER CUE before the scheduler's takings (R79 to R82). -/
def answerLayerCue (layer cueKind : Byte) (cueValue : Word32) (entryKind : Byte) (entryTick : Word32) (s : State) :
    Answer :=
  match layerOf layer, cueOf cueKind cueValue with
  | some y, some cue =>
    let l := s.layer y
    if entryKind ≠ 0 ∧ entryKind ≠ 1 then refuse .badVal s
    else if entryKind = 1 ∧ entryTick ≠ 0 then refuse .badVal s
    else if l.state ≠ .bound ∧ l.state ≠ .ended then refuse .state s
    else if !cue.inRange then refuse .badVal s
    else
      match entryBoundary (decide (entryKind = 1)) entryTick.toNat s.clk with
      | none => refuse .badVal s
      | some o =>
        match l.source with
        | some (.take t) =>
          let c? := match cue with
            | .time c => some c
            | .mark n => s.store.findMark t n (s.store.entry t).length 0
          match c? with
          | none => refuse .badVal s
          | some c =>
            let s' := enterPlaying y (cueTake y t c o s)
            { status := .ok
              body := layerReport (s'.layer y) ++ byte4 (s.store.cueSearch t c).index
              state := s' }
        | _ =>
          let s' := enterPlaying y (cueStream y o s)
          { status := .ok, body := layerReport (s'.layer y), state := s' }
  | _, _ => refuse .badVal s

/-- The answer to LAYER INFO (R89). -/
def answerLayerInfo (layer : Byte) (s : State) : Answer :=
  match layerOf layer with
  | none => refuse .badVal s
  | some y => { status := .ok, body := layerReport (s.layer y), state := s }

end Sys2Proof.Machine
end

