-- ==== Sys2Proof/Machine/Plan.lean ====
section
/-! DEFINITION. The strike scheduler (spec/07_the_strike_plan.md) with the drive unit's answers to it (R131, R132): the plan,
the key memory, the drop list, offers, the slot arbiter, due processing, the taking of records, merging, the
auto-release and the end releases. -/

namespace Sys2Proof.Machine

/-! ### The plan and its lists -/

/-- An action put into the plan after every action whose due tick is at or below its own (R107). -/
def planInsert (a : Action) : List Action → List Action
  | [] => [a]
  | b :: rest => if b.due ≤ a.due then b :: planInsert a rest else a :: b :: rest

/-- The key of an action on a key. -/
def Action.key? (a : Action) : Option Key :=
  match a.body with
  | .strike k .. => some k
  | .depress k _ => some k
  | .release k _ => some k
  | .pedal .. => none

/-- The key of a STRIKE action. -/
def Action.strikeKey? (a : Action) : Option Key :=
  match a.body with
  | .strike k .. => some k
  | _ => none

/-- The wait reason of a STRIKE action. -/
def Action.wait (a : Action) : Option WaitReason :=
  match a.body with
  | .strike _ _ _ _ w => w
  | _ => none

/-- The action with a serial number. -/
def State.action (s : State) (n : Nat) : Option Action := s.sched.plan.find? fun a => a.serial = n

/-- The serial numbers of the plan, in plan order. -/
def State.planSerials (s : State) : List Nat := s.sched.plan.map Action.serial

/-- The lateness of an action (section 7.4). -/
def State.lateness (s : State) (a : Action) : Int := (s.clk.position : Int) - a.due

/-- An entry added at the end of a drop list of 16 (R122). -/
def pushDrop (e : DropEntry) (l : List DropEntry) : List DropEntry :=
  let l' := l ++ [e]
  l'.drop (l'.length - Config.dropPlaces)

/-- An entry added to the drop list, DROPS raised in both sets (R122). -/
def addDrop (e : DropEntry) (s : State) : State :=
  raiseBoth .drops { s with sched := { s.sched with drops := pushDrop e s.sched.drops } }

/-- An action removed from the plan and withdrawn from the wait queue, nothing reported. -/
def removeAction (n : Nat) (s : State) : State :=
  { s with
    sched := { s.sched with plan := s.sched.plan.filter fun a => a.serial ≠ n }
    drive := { s.drive with queue := s.drive.queue.filter fun m => m ≠ n } }

/-- An action leaves the plan, the leaving reported to its layer (R121). -/
def leavePlan (a : Action) (s : State) : State := endIfDone a.layer (removeAction a.serial s)

/-- A STRIKE action dropped with its own fields (R122). -/
def dropStrike (reason : DropReason) (a : Action) (s : State) : State :=
  match a.body with
  | .strike k v _ _ _ =>
    leavePlan a (addDrop { reason := reason, target := .key k.val, layer := a.layer, event := a.event, velocity := some v } s)
  | _ => s

/-- A STRIKE action with its wait reason replaced. -/
def Action.withWait (a : Action) (w : WaitReason) : Action :=
  match a.body with
  | .strike k v d f _ => { a with body := .strike k v d f (some w) }
  | _ => a

/-- A strike told to wait (R118): the reason replaced; a strike answered SLOT stands in the wait queue, another does not. -/
def waitStrike (w : WaitReason) (a : Action) (s : State) : State :=
  let q := s.drive.queue.filter fun m => m ≠ a.serial
  { s with
    sched := { s.sched with plan := s.sched.plan.map fun b => if b.serial = a.serial then b.withWait w else b }
    drive := { s.drive with queue := if w = .slot then q ++ [a.serial] else q } }

/-! ### Offers (R118, R131) -/

/-- The drive unit's answers to an offer (R118). -/
inductive OfferAnswer where
  | taken
  | wait (w : WaitReason)
  | refused (r : DropReason)
deriving DecidableEq, Repr

/-- The key was fired less than its repetition minimum ago (R131, order 5). -/
def firedTooSoon (k : Key) (s : State) : Bool :=
  match (s.driveKey k).lastFire with
  | some f => decide ((s.clk.position : Int) - f < (bankGet s.map.keys k).repetitionMin)
  | none => false

/-- Orders 1 to 6 of the offer test of R131 on a key; none where the strike may be granted a slot. -/
def offerTest (k : Key) (s : State) : Option OfferAnswer :=
  let d := s.driveKey k
  match s.drive.power with
  | .quiet => some (.refused .quiet)
  | .quietPending => some (.refused .quiet)
  | .waking => some (.wait .waking)
  | .active =>
    if d.state = .blocked then some (.refused .blocked)
    else if d.hot then some (.refused .hot)
    else if d.state ≠ .rest ∨ d.touched ∨ firedTooSoon k s then some (.wait .key)
    else if s.drive.sag then some (.wait .sag)
    else none

/-- The drive unit's answer to an offer on a key (R131). -/
def offerAnswer (k : Key) (s : State) : OfferAnswer :=
  match offerTest k s with
  | some a => a
  | none => if s.slotFree then .taken else .wait .slot

/-- The yield test (R118): the layer yields and the pianist holds the key. -/
def yieldsNow (a : Action) (k : Key) (s : State) : Bool :=
  (s.layer a.layer).latched.yieldKeys && (s.driveKey k).state = .rest && (s.driveKey k).touched

/-- A strike taken (R118, R133): it fires and leaves the plan. -/
def takeStrike (a : Action) (s : State) : State :=
  match a.body with
  | .strike k v d f _ => leavePlan a (fireStrike k a.layer a.event v d f s)
  | _ => s

/-- An answer of the drive unit carried out on a strike (R118). -/
def applyAnswer (ans : OfferAnswer) (a : Action) (s : State) : State :=
  match ans with
  | .taken => takeStrike a s
  | .wait w => waitStrike w a s
  | .refused r => dropStrike r a s

/-- A due strike offered, after the yield test (R118). -/
def offerStrike (a : Action) (k : Key) (s : State) : State :=
  if yieldsNow a k s then dropStrike .yielded a s else applyAnswer (offerAnswer k s) a s

/-! ### The slot arbiter (R132) -/

/-- Strike `a` comes before strike `b` in the arbiter's order, `b` standing earlier in the plan (R132). -/
def arbiterBefore (s : State) (a b : Action) : Bool :=
  let pa := (s.layer a.layer).latched.priority
  let pb := (s.layer b.layer).latched.priority
  decide (a.due < b.due) || (decide (a.due = b.due) && (decide (pb < pa) || (decide (pb = pa) &&
    match a.strikeKey?, b.strikeKey? with
    | some ka, some kb => decide (ka < kb)
    | _, _ => false)))

/-- The first queued strike in the arbiter's order (R132). -/
def arbiterPick (s : State) : Option Action :=
  (s.sched.plan.filter fun a => a.serial ∈ s.drive.queue ∧ a.strikeKey?.isSome).foldl
    (fun best a =>
      match best with
      | none => some a
      | some b => if arbiterBefore s a b then some a else some b) none

/-- The arbiter looks while a slot is free and the queue holds a strike, at most `fuel` times (R132). -/
def arbiterLoop : Nat → State → State
  | 0, s => s
  | fuel + 1, s =>
    if s.slotFree then
      match arbiterPick s with
      | none => s
      | some a =>
        match a.strikeKey? with
        | none => s
        | some k => arbiterLoop fuel (applyAnswer ((offerTest k s).getD .taken) a s)
    else s

/-- The arbiter looks again (R132): each look takes one strike out of the queue, so the queue's length bounds them. -/
def arbiter (s : State) : State := arbiterLoop s.drive.queue.length s

/-! ### Releases and depressions at the drive unit (R137) -/

/-- A RELEASE handed to the drive unit (R137): the owner's release lets the key go, the arbiter looking where that gives back
a slot (R132); another release is discarded. -/
def handRelease (k : Key) (y : LayerId) (s : State) : State :=
  let d := s.driveKey k
  if d.state.holdsKey ∧ d.owner = some y then
    if d.state.holdsSlot then arbiter (enterLetGo k s) else enterLetGo k s
  else s

/-- A DEPRESS handed to the drive unit (R137): carried out on a key in REST while ACTIVE, discarded otherwise. -/
def handDepress (k : Key) (y : LayerId) (demand : Nat) (s : State) : State :=
  if (s.driveKey k).state = .rest ∧ s.drive.power = .active then depressKey k y demand s else s

/-! ### Due processing (R117 to R120) -/

/-- A RELEASE or DEPRESS is held in the plan while a STRIKE of its key and layer inserted before it is there (R117). -/
def heldBehind (a : Action) (s : State) : Bool :=
  match a.key? with
  | none => false
  | some k => s.sched.plan.any fun b => b.strikeKey? = some k && b.layer = a.layer && decide (b.serial < a.serial)

/-- A waiting strike the scheduler may offer again (R119): one that stands in the drive unit's wait queue is the arbiter's. -/
def reofferable (s : State) (a : Action) : Bool :=
  match a.wait with
  | none => false
  | some .slot => decide (a.serial ∉ s.drive.queue)
  | some _ => true

/-- The waiting strikes that a report of the named keys offers again (R119). -/
def reoffers (named : Key → Bool) (s : State) : List Nat :=
  (s.sched.plan.filter fun a => reofferable s a && a.strikeKey?.any named).map Action.serial

/-- The keys whose drive state differs: those the drive unit reports between two states of one event (R130). -/
def changedKeys (s t : State) (k : Key) : Bool := (s.driveKey k).state ≠ (t.driveKey k).state

/-- An action a processing acts on (R117 to R119): it is due, and a RELEASE or DEPRESS is not held, and a STRIKE is at its
first processing or is named in `again`. -/
def processable (again : List Nat) (s : State) (a : Action) : Bool :=
  decide (a.due ≤ (s.clk.position : Int)) &&
    match a.body with
    | .pedal .. => true
    | .release .. => !heldBehind a s
    | .depress .. => !heldBehind a s
    | .strike .. => a.wait.isNone || decide (a.serial ∈ again)

/-- One action processed (R117, R118, R137). At its first processing a strike's lateness is tested before anything else, its
yield test included. DEDUCED: R118 says both 'first tested for yield' and 'dropped LATE without being offered', and that
the yield test is made at every offer (notes/assumptions/28). -/
def carryOut (a : Action) (s : State) : State :=
  match a.body with
  | .pedal p v => leavePlan a (if (s.layer a.layer).latched.passes p then setDemand a.layer p (some v) s else s)
  | .release k _ => leavePlan a (handRelease k a.layer s)
  | .depress k d => leavePlan a (handDepress k a.layer d s)
  | .strike k .. =>
    if a.wait.isNone ∧ (s.sched.late : Int) < s.lateness a then dropStrike .late a s else offerStrike a k s

/-- A processing goes through the actions `todo` in plan order (R117). Where one changes the drive state of a key, that is
reported and opens the re-offers of R119 with their own processing of the whole plan, the waiting strikes of the changed
keys added to `again` (notes/assumptions/15). At most `fuel` actions are looked at. -/
def processLoop : Nat → List Nat → List Nat → State → State
  | 0, _, _, s => s
  | _ + 1, _, [], s => s
  | fuel + 1, again, n :: todo, s =>
    match s.action n with
    | none => processLoop fuel again todo s
    | some a =>
      if processable again s a then
        let t := carryOut a s
        let rest := again.filter fun m => m ≠ n
        if allKeys.any (changedKeys s t) then
          processLoop fuel (rest ++ reoffers (changedKeys s t) t) t.planSerials t
        else processLoop fuel rest todo t
      else processLoop fuel again todo s

/-- The due actions processed while the clock is RUNNING, the waiting strikes of the named keys offered again (R117, R119).
Each processing of the whole plan after the first follows an action that left the plan, which bounds the looks. -/
def processDue (named : Key → Bool) (s : State) : State :=
  if s.running then processLoop ((s.sched.plan.length + 1) * (s.sched.plan.length + 1)) (reoffers named s) s.planSerials s
  else s

/-- The drive unit's report of one key (R119, R130). -/
def reportKey (k : Key) (s : State) : State := processDue (fun j => j = k) s

/-- The drive unit's report of a change of SAG or of the drive power state (R119, R130). -/
def reportSupply (s : State) : State := processDue (fun _ => true) s

/-- What follows a change the drive unit made of its keys between `s` and `t` (R130, R132): the arbiter looks again, then
every key whose drive state has changed is reported. -/
def respond (s t : State) : State :=
  let u := arbiter t
  if allKeys.any (changedKeys s u) then processDue (changedKeys s u) u else u

/-- The reason a waiting strike is dropped with when its lateness passes the tolerance (R120). -/
def WaitReason.lateDrop : WaitReason → DropReason
  | .key => .late
  | .slot => .late
  | .sag => .sag
  | .waking => .quiet

/-- Waiting strikes whose lateness exceeds the late tolerance are dropped at a clock advance (R120). DEDUCED: they enter the
drop list in plan order, of which R120 says nothing (notes/assumptions/29). -/
def judgeLateness (s : State) : State :=
  s.planSerials.foldl (fun s n =>
    match s.action n with
    | some a =>
      match a.wait with
      | some w => if (s.sched.late : Int) < s.lateness a then dropStrike w.lateDrop a s else s
      | none => s
    | none => s) s

/-! ### Insertion (R112 to R116) -/

/-- The memory of a key replaced. -/
def setMemory (k : Key) (m : Option KeyMemory) (s : State) : State :=
  { s with sched := { s.sched with memory := bankSet s.sched.memory k m } }

/-- The layer that holds a key in the plan's sense, with the reference tick of an auto-release (R113, R115). -/
def State.holder (s : State) (k : Key) : Option (LayerId × Nat) :=
  match bankGet s.sched.memory k with
  | some m => some (m.layer, m.event)
  | none =>
    let d := s.driveKey k
    if d.state.holdsKey then d.owner.map fun y => (y, s.clk.position) else none

/-- A key is held by a layer (R113). -/
def State.heldBy (s : State) (y : LayerId) (k : Key) : Bool :=
  match s.holder k with
  | some (z, _) => z = y
  | none => false

/-- The keys a layer holds, in ascending order (R116). -/
def State.keysHeld (s : State) (y : LayerId) : List Key := allKeys.filter (s.heldBy y)

/-- An action inserted in the plan under the next serial number. -/
def insertAction (y : LayerId) (event : Nat) (due : Int) (lead : Nat) (body : ActionBody) (s : State) : State :=
  let a : Action := { serial := s.sched.nextSerial, layer := y, event := event, due := due, lead := lead, body := body }
  { s with sched := { s.sched with plan := planInsert a s.sched.plan, nextSerial := s.sched.nextSerial + 1 } }

/-- A RELEASE inserted; it closes the key's memory where its layer is the memory's (R108). -/
def insertRelease (y : LayerId) (k : Key) (event : Nat) (auto : Option AutoFlag) (s : State) : State :=
  let s' := insertAction y event event 0 (.release k auto) s
  match bankGet s.sched.memory k with
  | some m => if m.layer = y then setMemory k none s' else s'
  | none => s'

/-- A strike of the other layer conflicts with a new strike on its key (R114). -/
def conflicts (y : LayerId) (k : Key) (event rm : Nat) (a : Action) : Bool :=
  a.strikeKey? = some k && a.layer ≠ y && decide (max a.event event - min a.event event < rm)

/-- A planned strike removed by a merge (R114): dropped MERGE; the memory it had made OPEN closes (R108). -/
def mergeOut (k : Key) (s : State) (a : Action) : State :=
  let s' := match bankGet s.sched.memory k with
    | some m => if m.serial = a.serial then setMemory k none s else s
    | none => s
  dropStrike .merge a s'

/-- The auto-release of R115, where the key is held by a layer. -/
def autoRelease (k : Key) (due : Int) (s : State) : State :=
  match s.holder k with
  | some (y, ref) => insertRelease y k (max (due - s.sched.rise) ref).toNat (some .repetition) s
  | none => s

/-- A STRIKE inserted past the merge test and the auto-release test (R112, R114, R115). DEDUCED: strikes that one merge
removes enter the drop list in plan order, of which R114 says nothing (notes/assumptions/29). -/
def insertStrike (y : LayerId) (k : Key) (event velocity rm : Nat) (sv : StrikeValues) (s : State) : State :=
  let rivals := s.sched.plan.filter (conflicts y k event rm)
  let py := (s.layer y).latched.priority
  let pz := (s.layer y.other).latched.priority
  if rivals.isEmpty || decide (pz < py) || (decide (pz = py) && y == .l0) then
    let due : Int := (event : Int) - sv.lead
    let s1 := autoRelease k due (rivals.foldl (mergeOut k) s)
    setMemory k (some { layer := y, depress := false, event := event, serial := s1.sched.nextSerial })
      (insertAction y event due sv.lead (.strike k velocity sv.demand sv.flight none) s1)
  else addDrop { reason := .merge, target := .key k.val, layer := y, event := event, velocity := some velocity } s

/-- The record handed on for a key of the window, transposed to `k` (R84, R92, R97, R99, R112). -/
def handKeyRecord (y : LayerId) (r : Record) (k : Key) (s : State) : State :=
  let l := s.layer y
  let e := bankGet s.map.keys k
  let t := eventTime (l.origin.getD 0) r.time.toNat (l.cue.getD 0) l.latched.timeOffset
  let dropped (reason : DropReason) (v : Option Nat) (s : State) : State :=
    addDrop
      { reason := reason, target := .key k.val, layer := y, event := (clampInt 0 Config.clockLimit t).toNat, velocity := v } s
  if t < 0 ∨ (Config.clockLimit : Int) < t then dropped .range none s
  else if r.kind.toNat = kindStrike then
    let v := layerVelocity r.value.toNat l.latched.scale l.latched.velOffset
    if e.isSet then insertStrike y k t.toNat v e.rm.toNat (strikeValues e s.map.integrity v) s
    else dropped .unset (some v) s
  else if r.kind.toNat = kindDepress then
    if e.isSet then
      setMemory k (some { layer := y, depress := true, event := t.toNat, serial := s.sched.nextSerial })
        (insertAction y t.toNat (t - depressLead e) (depressLead e) (.depress k e.sd.toNat) s)
    else dropped .unset none s
  else insertRelease y k t.toNat none s

/-- A PEDAL record handed on (R84, R92, R97, R99). -/
def handPedalRecord (y : LayerId) (r : Record) (p : Pedal) (s : State) : State :=
  let l := s.layer y
  let e := bankGet s.map.pedals p
  let t := eventTime (l.origin.getD 0) r.time.toNat (l.cue.getD 0) l.latched.timeOffset
  let dropped (reason : DropReason) (s : State) : State :=
    addDrop
      { reason := reason, target := .pedal p.val, layer := y, event := (clampInt 0 Config.clockLimit t).toNat, velocity := none } s
  if t < 0 ∨ (Config.clockLimit : Int) < t then dropped .range s
  else if e.isSet then
    insertAction y t.toNat (t - e.lead.toNat) e.lead.toNat (.pedal p r.value.toNat) s
  else dropped .unset s

/-- A layer's END taken (R85, R116): end fetched, an end release for every key the layer holds. -/
def handEnd (y : LayerId) (r : Record) (s : State) : State :=
  let l := s.layer y
  let t := (clampInt 0 Config.clockLimit
    (eventTime (l.origin.getD 0) r.time.toNat (l.cue.getD 0) l.latched.timeOffset)).toNat
  let held := s.keysHeld y
  held.foldl (fun s k => insertRelease y k t (some .ending) s) (s.setLayer y { l with endFetched := true })

/-- A record of a key outside or inside the window (R84). -/
def handWindow (y : LayerId) (r : Record) (s : State) : State :=
  let l := s.layer y
  let key := r.target.toNat
  if key < l.latched.winLow ∨ l.latched.winHigh < key then s
  else if r.kind.toNat ≠ kindRelease ∧ l.latched.mute then s
  else
    let k : Int := key + l.latched.transpose
    match if k < 0 then none else keyOf k.toNat with
    | some k => handKeyRecord y r k s
    | none =>
      addDrop
        { reason := .range, target := .key key, layer := y
          event := (clampInt 0 Config.clockLimit
            (eventTime (l.origin.getD 0) r.time.toNat (l.cue.getD 0) l.latched.timeOffset)).toNat
          velocity := none } s

/-- A record taken from a layer's ring, handled by its kind (R84). -/
def handRecord (y : LayerId) (r : Record) (s : State) : State :=
  if r.kind.toNat = kindEnd then handEnd y r s
  else if r.kind.toNat = kindPedal then
    match pedalOf r.target.toNat with
    | some p => if (s.layer y).latched.passes p then handPedalRecord y r p s else s
    | none => s
  else if r.kind.toNat = kindStrike ∨ r.kind.toNat = kindDepress ∨ r.kind.toNat = kindRelease then handWindow y r s
  else s

/-! ### Taking (R109 to R111) -/

/-- The places of the plan a record needs (R109). -/
def recordNeed (y : LayerId) (r : Record) (s : State) : Nat :=
  if r.kind.toNat = kindStrike then 2
  else if r.kind.toNat = kindEnd then max 1 (s.keysHeld y).length
  else 1

/-- The front record of a layer where it is ready, with its event clock-time (R109). -/
def readyRecord (y : LayerId) (s : State) : Option (Record × Int) :=
  let l := s.layer y
  match l.ring with
  | [] => none
  | r :: _ =>
    let t := eventTime (l.origin.getD 0) r.time.toNat (l.cue.getD 0) l.latched.timeOffset
    if (l.state = .cued ∨ l.state = .playing) ∧ ¬ l.endFetched ∧ s.running ∧
        t ≤ (s.clk.position : Int) + Config.horizon ∧ s.sched.plan.length + recordNeed y r s ≤ Config.planPlaces
    then some (r, t) else none

/-- The layer whose front record is taken next, with the record (R110). -/
def nextTaking (s : State) : Option (LayerId × Record) :=
  match readyRecord .l0 s, readyRecord .l1 s with
  | none, none => none
  | some (r, _), none => some (.l0, r)
  | none, some (r, _) => some (.l1, r)
  | some (r0, t0), some (r1, t1) =>
    if t1 < t0 ∨ (t1 = t0 ∧ s.layer0.latched.priority < s.layer1.latched.priority) then some (.l1, r1) else some (.l0, r0)

/-- An action inserted between `s` and `t` is already due (R112). -/
def insertedDue (s t : State) : Bool :=
  t.sched.plan.any fun a => decide (s.sched.nextSerial ≤ a.serial) && decide (a.due ≤ (t.clk.position : Int))

/-- The processing that the insertion of an action already due opens (R111, R112, R117). -/
def processInserted (s t : State) : State := if insertedDue s t then processDue (fun _ => false) t else t

/-- One taking handled whole (R111): the record leaves its ring, becomes what R84 and the arithmetic make of it, and what
it inserted is processed where it is already due; the layer may end (R85). -/
def takeRecord (y : LayerId) (r : Record) (s : State) : State :=
  endIfDone y (processInserted s (handRecord y r (popRing y s)))

/-- Takings one after another, at most `fuel` of them (R111). -/
def takeLoop : Nat → State → State
  | 0, s => s
  | fuel + 1, s =>
    match nextTaking s with
    | none => s
    | some (y, r) => takeLoop fuel (takeRecord y r s)

/-- The records a layer can still offer without another command: those of its ring and those a refill can copy. -/
def State.recordsLeft (s : State) (y : LayerId) : Nat :=
  let l := s.layer y
  l.ring.length + match l.source with
    | some (.take t) => (s.store.entry t).length - l.cursor
    | _ => 0

/-- Every ready record taken (R111): a taking uses up one record that is left, so their number bounds the takings. -/
def takeAll (s : State) : State := takeLoop (s.recordsLeft .l0 + s.recordsLeft .l1) s

/-! ### Events of the whole plan -/

/-- The scheduler at a clock stop and at ALL OFF: the plan and the wait queue empty, every memory CLOSED (R125, R126). -/
def clearPlan (s : State) : State :=
  { s with
    sched := { s.sched with plan := [], memory := Vector.replicate 88 none }
    drive := { s.drive with queue := [] } }

/-- The scheduler at the freeing of a layer (R127). -/
def freePlan (y : LayerId) (s : State) : State :=
  let gone := (s.sched.plan.filter fun a => a.layer = y).map Action.serial
  { s with
    sched := { s.sched with
      plan := s.sched.plan.filter fun a => a.layer ≠ y
      memory := bankMap (fun _ m => match m with
        | some m => if m.layer = y then none else some m
        | none => none) s.sched.memory }
    drive := { s.drive with queue := s.drive.queue.filter fun n => n ∉ gone } }

/-- The wait queue given up when the clock enters PAUSED; the strikes stay in the plan with their reason (R119). -/
def withdrawQueue (s : State) : State := { s with drive := { s.drive with queue := [] } }

/-- The scheduler at a soft reset (R128). -/
def softResetPlan (s : State) : State :=
  { s with sched := { s.sched with plan := [], memory := Vector.replicate 88 none, drops := [] } }

/-- The keys in STRIKE or SUSTAIN that satisfy a test put into LETGO, in ascending order (R138). -/
def letGoKeys (f : DriveKey → Bool) (s : State) : State :=
  allKeys.foldl (fun s k => if (s.driveKey k).state.holdsKey && f (s.driveKey k) then enterLetGo k s else s) s

/-- The keys a layer's freeing, a stop, ALL OFF or QUIET ENTER lets go, with the arbiter's look and the reports after them
(R130, R132, R138). -/
def letGoReported (f : DriveKey → Bool) (s : State) : State := respond s (letGoKeys f s)

/-- The drop list entry of a strike whose grace ran out (R135). -/
def missedEntry (k : Key) (y : LayerId) (event velocity : Nat) : DropEntry :=
  { reason := .missed, target := .key k.val, layer := y, event := event, velocity := some velocity }

/-- An entry of the drop list as DROPS READ sends it (R123). -/
def DropEntry.bytes (e : DropEntry) : List Byte :=
  byte1 e.reason.code ++
    (match e.target with
      | .key n => byte1 0 ++ byte1 n
      | .pedal n => byte1 1 ++ byte1 n) ++
    byte1 e.layer.code ++ byte4 e.event ++ optByte2 e.velocity

/-- The answer to DROPS READ (R123). -/
def answerDropsRead (s : State) : Answer :=
  { status := .ok
    body := byte4 s.sched.drops.length ++ s.sched.drops.flatMap DropEntry.bytes ++ byte4 s.sched.plan.length ++
      byte2 s.sched.late ++ byte2 s.sched.rise
    state := s }

/-- The answer to PLAN SET (R124). -/
def answerPlanSet (late rise : Word16) (s : State) : Answer :=
  let l := clampNat 0 200 late.toNat
  let r := clampNat 200 2000 rise.toNat
  { status := .ok, body := byte2 l ++ byte2 r ++ byte4 s.sched.plan.length
    state := { s with sched := { s.sched with late := l, rise := r } } }

/-- The answer to ALL OFF before the scheduler's takings (R121, R125, R138, R86). -/
def answerAllOff (s : State) : Answer :=
  let n := s.sched.plan.length
  let had (y : LayerId) : Bool := s.planHolds y
  let s1 := letGoReported (fun _ => true) (clearPlan s)
  let zero (y : LayerId) (s : State) : State :=
    allPedals.foldl (fun s p => if (bankGet (s.layer y).demands p).isSome then setDemand y p (some 0) s else s) s
  let s2 := zero .l1 (zero .l0 s1)
  let s3 := if had .l0 then endIfDone .l0 s2 else s2
  { status := .ok, body := byte4 n, state := if had .l1 then endIfDone .l1 s3 else s3 }

end Sys2Proof.Machine
end

