-- ==== Sys2Proof/Machine/Runs.lean ====
section
/-! DEFINITION. The calibration map's requests and writes (spec/04_the_calibration_map.md) and the calibration run
controller (spec/09_calibration_runs.md): working the keys, the threshold search, proofs, results, the end of a run. -/

namespace Sys2Proof.Machine

/-! ### Part writes (R57) -/

/-- The check word after words are replaced: the old ones subtracted, the new ones added, modulo 2^32 (R57). -/
def checkAfter (check : Word32) (old new : List Word16) : Word32 :=
  check - BitVec.ofNat 32 (wordSum old) + BitVec.ofNat 32 (wordSum new)

/-- A key entry written, the check word kept current in the same event (R57). -/
def CalMap.writeKey (m : CalMap) (k : Key) (e : KeyEntry) : CalMap :=
  { m with keys := bankSet m.keys k e, check := checkAfter m.check (bankGet m.keys k).words e.words }

/-- A pedal entry written, the check word kept current in the same event (R57). -/
def CalMap.writePedal (m : CalMap) (p : Pedal) (e : PedalEntry) : CalMap :=
  { m with pedals := bankSet m.pedals p e, check := checkAfter m.check (bankGet m.pedals p).words e.words }

/-- The map's sum: the total of all 1775 words modulo 2^32 (R56). -/
def CalMap.sum (m : CalMap) : Word32 :=
  BitVec.ofNat 32 ((m.keys.toList.map fun e => wordSum e.words).sum + (m.pedals.toList.map fun e => wordSum e.words).sum)

/-- The integrity check (R65, R66): made in GOOD alone; a difference puts the map in FAULT and raises MAP_FAULT. -/
def integrityTest (s : State) : State :=
  if s.map.integrity = .good ∧ s.map.sum ≠ s.map.check then
    raiseBoth .mapFault { s with map := { s.map with integrity := .fault } }
  else s

/-- The map's part of a service-period event (R65): the count rises; where it would reach 64 it returns to 0 and the check
is made in the same event. -/
def countPeriod (s : State) : State :=
  if s.map.count + 1 < Config.checkPeriods then { s with map := { s.map with count := s.map.count + 1 } }
  else integrityTest { s with map := { s.map with count := 0 } }

/-! ### The map's requests -/

/-- A key entry as MAP READ and MAP WRITE reply it (section 11.4, R58). -/
def keyEntryBody (m : CalMap) (k : Key) : List Byte :=
  let e := bankGet m.keys k
  byte1 e.state.toNat ++ byte1 0 ++ byte1 k.val ++ bytes16 e.t ++ bytes16 e.sd ++ e.knots.toList.flatMap bytes16 ++
    bytes16 e.g ++ bytes16 e.lfix ++ bytes24 (BitVec.ofNat 24 e.dtravel) ++ bytes16 e.s ++ bytes16 e.rm ++
    byte1 e.rebound.toNat ++ byte2 0 ++ byte1 e.result.toNat ++ byte1 m.integrity.code ++ bytes32 m.check

/-- A pedal entry as MAP READ and MAP WRITE reply it (section 11.4, R58). -/
def pedalEntryBody (m : CalMap) (p : Pedal) : List Byte :=
  let e := bankGet m.pedals p
  byte1 e.state.toNat ++ byte1 1 ++ byte1 p.val ++ bytes16 e.rest ++ bytes16 e.full ++ bytes16 e.lead ++
    byte1 e.deadband.toNat ++ byte1 0 ++ byte1 m.integrity.code ++ bytes32 m.check

/-- The answer to MAP READ (R58). -/
def answerMapRead (cls number : Byte) (s : State) : Answer :=
  if cls = 0 then
    match keyOf number.toNat with
    | some k => { status := .ok, body := keyEntryBody s.map k, state := s }
    | none => refuse .badVal s
  else if cls = 1 then
    match pedalOf number.toNat with
    | some p => { status := .ok, body := pedalEntryBody s.map p, state := s }
    | none => refuse .badVal s
  else refuse .badVal s

/-- The knots of a body stand in range and never fall (R59). -/
def knotsGood (ks : Bank Word16 9) : Bool :=
  (ks.toList.all fun d => decide (d.toNat ≤ 4095)) &&
    ((ks.toList.zip ks.toList.tail).all fun d => decide (d.1.toNat ≤ d.2.toNat))

/-- The range test of MAP WRITE for a key (R59, order 4). -/
def keyFieldsGood (f : KeyFields) : Bool :=
  decide (f.t.toNat ≤ 4095) && decide (f.sd.toNat ≤ 4094) && decide (f.sd.toNat < f.t.toNat) && knotsGood f.knots &&
    decide (8192 ≤ f.g.toNat) && decide (f.g.toNat ≤ 32767) && decide (f.lfix.toNat ≤ 20000) &&
    decide (1000 ≤ f.s.toNat) && decide (f.s.toNat ≤ 6000) && decide (400 ≤ f.rm.toNat) && decide (f.rm.toNat ≤ 4000) &&
    decide (f.rebound.toNat ≤ 40)

/-- The range test of MAP WRITE for a pedal (R59, order 4). -/
def pedalFieldsGood (f : PedalFields) : Bool :=
  decide (f.rest.toNat ≤ 4095) && decide (f.rest.toNat ≤ f.full.toNat) && decide (f.full.toNat ≤ 4095) &&
    decide (f.lead.toNat ≤ 2000) && decide (1 ≤ f.deadband.toNat) && decide (f.deadband.toNat ≤ 32)

/-- The stored entry of a MAP WRITE's fields: SET, the last run result kept (R60). -/
def storedKey (f : KeyFields) (result : Word16) : KeyEntry :=
  { state := 1, t := f.t, sd := f.sd, knots := f.knots, g := f.g, lfix := f.lfix, dLow := f.dtravel.extractLsb' 0 16
    dHigh := (f.dtravel.extractLsb' 16 8).setWidth 16, s := f.s, rm := f.rm, rebound := f.rebound.setWidth 16
    result := result }

/-- The stored entry of a MAP WRITE's pedal fields: SET (R60). -/
def storedPedal (f : PedalFields) : PedalEntry :=
  { state := 1, rest := f.rest, full := f.full, lead := f.lead, deadband := f.deadband.setWidth 16 }

/-- The key set of an active run holds a key (R61). -/
def State.runHolds (s : State) (k : Key) : Bool := s.runActive && inKeySet s.run.keys k

/-- The answer to MAP WRITE (R59, R60). -/
def answerMapWrite (body : MapBody) (s : State) : Answer :=
  match body with
  | .key n f reserved =>
    match keyOf n.toNat with
    | none => refuse .badVal s
    | some k =>
      if s.runHolds k then { status := .calRun, body := keyEntryBody s.map k, state := s }
      else if reserved ≠ 0 ∨ !keyFieldsGood f then { status := .badVal, body := keyEntryBody s.map k, state := s }
      else
        let m := s.map.writeKey k (storedKey f (bankGet s.map.keys k).result)
        { status := .ok, body := keyEntryBody m k, state := { s with map := m } }
  | .pedal n f reserved =>
    match pedalOf n.toNat with
    | none => refuse .badVal s
    | some p =>
      if reserved ≠ 0 ∨ !pedalFieldsGood f then { status := .badVal, body := pedalEntryBody s.map p, state := s }
      else
        let m := s.map.writePedal p (storedPedal f)
        { status := .ok, body := pedalEntryBody m p, state := { s with map := m } }
  | .other _ => refuse .badVal s

/-- The body of the replies to MAP CLEAR and MAP ACCEPT. -/
def mapStateBody (m : CalMap) : List Byte := byte1 m.integrity.code ++ bytes32 m.check

/-- The answer to MAP CLEAR (R62). -/
def answerMapClear (s : State) : Answer :=
  if s.runActive then refuse .calRun s
  else
    let m : CalMap :=
      { s.map with
        keys := Vector.replicate 88 KeyEntry.zero, pedals := Vector.replicate 3 PedalEntry.zero, check := 0
        integrity := .good }
    { status := .ok, body := mapStateBody m, state := { s with map := m } }

/-- The answer to MAP ACCEPT (R63). -/
def answerMapAccept (s : State) : Answer :=
  let m : CalMap := { s.map with check := s.map.sum, integrity := .good }
  { status := .ok, body := mapStateBody m, state := { s with map := m } }

/-! ### The run controller -/

/-- The run controller replaced. -/
def setRun (r : RunController) (s : State) : State := { s with run := r }

/-- A rest wait begins (R152). -/
def beginRest (s : State) : State := setRun { s.run with wait := .rest (s.now + Config.restMicros) } s

/-- The current key is at rest (R152). -/
def atRest (k : Key) (s : State) : Bool :=
  (s.driveKey k).state = .rest && !(s.driveKey k).touched

/-- The run ends (R161, R162): key set released, IDLE, CAL_DONE, and KEY_FAULT where a key failed. -/
def finishRun (s : State) : State :=
  let failed := s.run.failed
  let s' := raiseBoth .calDone
    (setRun { s.run with state := .idle, keys := 0, current := none, copy := none, wait := .none } s)
  if failed then raiseBoth .keyFault s' else s'

/-- A key entry with its last run result replaced. -/
def KeyEntry.withResult (e : KeyEntry) (r : RunResult) : KeyEntry := { e with result := BitVec.ofNat 16 r.code }

/-- One write of a run to a key entry (R64). -/
def runWrite (k : Key) (f : KeyEntry → KeyEntry) (s : State) : State :=
  { s with map := s.map.writeKey k (f (bankGet s.map.keys k)) }

/-- A result sets failure seen unless it is OK or ABORTED (R161). -/
def RunResult.fails : RunResult → Bool
  | .ok => false
  | .aborted => false
  | _ => true

/-- A key's result written with its values, failure seen following it (R161). -/
def writeResult (k : Key) (r : RunResult) (f : KeyEntry → KeyEntry) (s : State) : State :=
  let s' := runWrite k (fun e => (f e).withResult r) s
  setRun { s'.run with failed := s'.run.failed || r.fails, wait := .none } s'

/-- A BLOCKED key taken by the run enters REST at once (R141, R151). -/
def freeForRun (k : Key) (s : State) : State := if (s.driveKey k).state = .blocked then enterRest k s else s

/-- A key becomes the run's current key (R151): its entry copied, its counters cleared. -/
def copyKey (k : Key) (s : State) : State :=
  setRun
    { s.run with
      current := some k, copy := some { entry := bankGet s.map.keys k, integrity := s.map.integrity }, phase := .first
      lastMiss := none, coarse := none, probes := 0, velSum := 0, errSum := 0, hits := 0, wait := .none } s

/-- The first level, flight and lead of a key just copied (R151, R154, R158, R160). -/
def prepareKey (e : KeyEntry) (integrity : Integrity) (r : RunController) : RunController :=
  match r.kind with
  | .threshold => { r with level := if e.isSet then e.t.toNat - 128 else 0, flight := 0, lead := 0 }
  | .proof =>
    let v := strikeValues e integrity r.velocity
    { r with level := v.demand, flight := v.flight, lead := v.lead }

/-- The keys of the set below number `n` are taken in descending order (R151): a proof on an UNSET key ends at once with
NO_STRIKE, any other key begins its rest wait; after the lowest key the run ends (R161). -/
def workBelow : Nat → State → State
  | 0, s => finishRun s
  | n + 1, s =>
    match keyOf n with
    | none => workBelow n s
    | some k =>
      if inKeySet s.run.keys k then
        let s1 := freeForRun k (copyKey k s)
        let e := bankGet s1.map.keys k
        if s1.run.kind = .proof ∧ ¬ e.isSet then
          let s2 := writeResult k .noStrike id s1
          if s2.run.stopOnFault then finishRun s2 else workBelow n s2
        else beginRest (setRun (prepareKey e s1.map.integrity s1.run) s1)
      else workBelow n s

/-- A key ends with a result and the values of its write (R161); the next key is taken, or the run ends. -/
def endKey (k : Key) (r : RunResult) (f : KeyEntry → KeyEntry) (s : State) : State :=
  let s' := writeResult k r f s
  if s'.run.stopOnFault && r.fails then finishRun s' else workBelow k.val s'

/-! ### The threshold search (R154 to R157) -/

/-- A threshold written into a SET entry: SD is moved below it where it no longer stands so (R157, R64). -/
def KeyEntry.withThreshold (e : KeyEntry) (t : Nat) : KeyEntry :=
  { e with
    t := BitVec.ofNat 16 t
    sd := if t ≤ e.sd.toNat then BitVec.ofNat 16 (sustainBelow t) else e.sd }

/-- The entry a threshold search creates (R157). -/
def createdEntry (t : Nat) : KeyEntry :=
  { state := 1, t := BitVec.ofNat 16 t, sd := BitVec.ofNat 16 (sustainBelow t)
    knots := Vector.ofFn fun i => BitVec.ofNat 16 (createdKnot t i.val), g := 16384, lfix := 6000
    dLow := BitVec.ofNat 16 (9000000 % 65536), dHigh := BitVec.ofNat 16 (9000000 / 65536), s := 3000, rm := 1000
    rebound := 10, result := 0 }

/-- A search that ends OK with a new threshold (R157). -/
def searchFound (k : Key) (t : Nat) (s : State) : State :=
  let wasSet : Bool := match s.run.copy with
    | some c => c.entry.isSet
    | none => false
  endKey k .ok (fun e => if wasSet then e.withThreshold t else createdEntry t) s

/-- The search needs a pulse at a level: within the budget a rest wait begins, past it the key ends BUDGET (R156). -/
def searchNext (k : Key) (level : Nat) (s : State) : State :=
  if Config.probeBudget ≤ s.run.probes then endKey k .budget id s
  else beginRest (setRun { s.run with level := level } s)

/-- The fine phase at a level (R155): the coarse strike reached, it is the threshold; otherwise the level is probed. -/
def searchFine (k : Key) (level : Nat) (s : State) : State :=
  let s' := setRun { s.run with phase := .fine } s
  match s.run.coarse with
  | some c => if c ≤ level then searchFound k c s' else searchNext k level s'
  | none => searchNext k level s'

/-- A hit moves the search (R154, R155). -/
def searchHit (k : Key) (s : State) : State :=
  let l := s.run.level
  if l < 4 then endKey k .stuck id s
  else
    match s.run.phase with
    | .first => searchNext k (l - 32) (setRun { s.run with coarse := some l, phase := .down } s)
    | .down => searchNext k (l - 32) (setRun { s.run with coarse := some l } s)
    | .up => searchFine k (s.run.lastMiss.getD 0 + 4) (setRun { s.run with coarse := some l } s)
    | .fine => searchFound k l s

/-- A miss moves the search (R154, R155). -/
def searchMiss (k : Key) (s : State) : State :=
  let l := s.run.level
  match s.run.phase with
  | .first => searchNext k (l + 32) (setRun { s.run with lastMiss := some l, phase := .up } s)
  | .up =>
    let s' := setRun { s.run with lastMiss := some l } s
    if 4095 < l + 32 then endKey k .noStrike id s' else searchNext k (l + 32) s'
  | .down => searchFine k (l + 4) (setRun { s.run with lastMiss := some l } s)
  | .fine => searchFine k (l + 4) s

/-! ### Proofs (R158 to R160) -/

/-- A key's proofs are complete (R159, R160). -/
def proofDone (k : Key) (s : State) : State :=
  let r := s.run
  match r.copy with
  | none => endKey k .noStrike id s
  | some c =>
    if r.hits = 0 then endKey k .noStrike id s
    else
      match c.integrity with
      | .fault => endKey k .ok id s
      | .good =>
        let v := (roundedMean r.velSum r.hits).toNat
        let err := roundedMean r.errSum r.hits
        let g := provedGain c.entry.g.toNat r.velocity v
        if -10000 ≤ err ∧ err ≤ 10000 then
          endKey k .ok (fun e =>
            { e with g := BitVec.ofNat 16 g, lfix := BitVec.ofNat 16 (provedLead c.entry.lfix.toNat err) }) s
        else endKey k .leadRange (fun e => { e with g := BitVec.ofNat 16 g }) s

/-- A proof strike has been answered (R158): the next one waits for rest, or the key ends after the last. -/
def proofNext (k : Key) (s : State) : State := if s.run.repeats ≤ s.run.probes then proofDone k s else beginRest s

/-- A pulse of the run is answered by a hit (R154, R158). -/
def runHit (k : Key) (firedAt gate2At : Nat) (velocity : Option Nat) (s : State) : State :=
  if s.run.state = .running ∧ s.run.wait = .inFlight ∧ s.run.current = some k then
    match s.run.kind with
    | .threshold => searchHit k s
    | .proof =>
      match velocity with
      | some v =>
        proofNext k (setRun
          { s.run with
            velSum := s.run.velSum + v
            errSum := s.run.errSum + ((gate2At : Int) - ((firedAt : Int) + s.run.flight))
            hits := s.run.hits + 1 } s)
      | none => proofNext k s
  else s

/-- A pulse of the run is answered by a miss (R154, R158). -/
def runMiss (k : Key) (s : State) : State :=
  if s.run.state = .running ∧ s.run.wait = .inFlight ∧ s.run.current = some k then
    match s.run.kind with
    | .threshold => searchMiss k s
    | .proof => proofNext k s
  else s

/-- A pulse that has fired ends (R141): fire removed, drive off, the slot given back, LETGO. -/
def endPulse (k : Key) (s : State) : State :=
  respond s (putDriveKey k { ((s.driveKey k).lettingGo s.now) with fire := none } s)

/-- A calibration pulse is pending or in flight (R141, R148). -/
def State.pulseBusy (s : State) : Bool :=
  s.drive.pulse.isSome || allKeys.any fun k => (s.driveKey k).state = .probe

/-- The run controller asks for a pulse where the current key is at rest and the spacing has passed (R152); the drive unit
refuses it where another pulse is pending or in flight (R141). -/
def requestPulse (s : State) : State :=
  match s.run.state, s.run.wait, s.run.current with
  | .running, .rest _, some k =>
    let spaced := match s.run.lastFire with
      | some t => decide (t + Config.pulseSpacingMicros ≤ s.now)
      | none => true
    if atRest k s && spaced && !s.pulseBusy then
      setRun { s.run with wait := .pending }
        { s with drive := { s.drive with pulse := some { key := k, level := s.run.level } } }
    else s
  | _, _, _ => s

/-- A pending pulse fires where its key is in REST, not HOT, SAG is not live and a slot is free (R141, R153). -/
def firePending (s : State) : State :=
  match s.drive.pulse with
  | none => s
  | some p =>
    let d := s.driveKey p.key
    if d.state = .rest ∧ ¬ d.hot ∧ ¬ s.drive.sag ∧ s.slotFree then
      let s' := firePulse p.key p.level { s with drive := { s.drive with pulse := none } }
      if s'.run.wait = .pending ∧ s'.run.current = some p.key then
        setRun { s'.run with probes := s'.run.probes + 1, lastFire := some s.now, wait := .inFlight } s'
      else s'
    else s

/-- A rest deadline reached with the key not at rest (R152): DISTURBED. -/
def restDeadlineReached (s : State) : State :=
  match s.run.state, s.run.wait, s.run.current with
  | .running, .rest deadline, some k =>
    if deadline ≤ s.now ∧ ¬ atRest k s then endKey k .disturbed id s else s
  | _, _, _ => s

/-- A sample that shows the current key touched while its pulse is pending withdraws the pulse (R153). -/
def runSample (k : Key) (p : KeyPos) (s : State) : State :=
  if s.run.state = .running ∧ s.run.wait = .pending ∧ s.run.current = some k ∧ s.cap.repetition ≤ p.val then
    beginRest { s with drive := { s.drive with pulse := none } }
  else s

/-- STOPPING ends once the cut key has left LETGO (R162). -/
def endStopping (k : Key) (s : State) : State :=
  if s.run.state = .stopping ∧ s.run.current = some k ∧ (s.driveKey k).state ≠ .letgo then finishRun s else s

/-- The highest key of a key set. -/
def highestKey (ks : BitVec 88) : Option Key := (keysOf ks).getLast?

/-- The answer to CAL RUN (R150). -/
def answerCalRun (kind : Byte) (keys : BitVec 88) (stopOnFault : Byte) (velocity : Word16) (repeats : Byte) (s : State) :
    Answer :=
  if (kind ≠ 0 ∧ kind ≠ 1) ∨ (stopOnFault ≠ 0 ∧ stopOnFault ≠ 1) then refuse .badVal s
  else
    match highestKey keys with
    | none => refuse .badVal s
    | some top =>
      if velocity.toNat < 40 ∨ 1000 < velocity.toNat ∨ repeats.toNat < 1 ∨ 8 < repeats.toNat then refuse .badVal s
      else if s.run.state ≠ .idle then refuse .calRun s
      else if s.clk.state ≠ .stopped ∨ s.drive.power ≠ .active then refuse .state s
      else
        let rk : RunKind := if kind = 0 then .threshold else .proof
        { status := .ok
          body := byte1 RunState.running.code ++ byte1 rk.code ++ byte4 (keysOf keys).length ++ byte1 top.val
          state := workBelow 88 (setRun
            { s.run with
              state := .running, kind := rk, keys := keys, failed := false, lastFire := none
              stopOnFault := decide (stopOnFault = 1), velocity := velocity.toNat, repeats := repeats.toNat } s) }

/-- The pulse of a run withdrawn (R141): a pending one removed, one in flight cut with its key put into LETGO. -/
def withdrawPulse (k : Key) (s : State) : State :=
  let s' : State := { s with drive := { s.drive with pulse := none } }
  if (s.driveKey k).state = .probe then endPulse k s' else s'

/-- The answer to CAL STOP (R162). -/
def answerCalStop (s : State) : Answer :=
  match s.run.state, s.run.current with
  | .idle, _ => refuse .state s
  | .stopping, c => { status := .ok, body := byte1 RunState.stopping.code ++ optByte1 (c.map Fin.val), state := s }
  | .running, none =>
    let s' := finishRun s
    { status := .ok, body := byte1 s'.run.state.code ++ byte1 255, state := s' }
  | .running, some k =>
    let cut := (s.driveKey k).state = .probe
    let s1 := writeResult k .aborted id (withdrawPulse k s)
    let s2 := setRun { s1.run with state := .stopping } s1
    let s3 := if cut then s2 else finishRun s2
    { status := .ok, body := byte1 s3.run.state.code ++ byte1 k.val, state := s3 }

/-- The run controller at a soft reset (R163, R69). -/
def softResetRun (s : State) : State :=
  match s.run.state with
  | .idle => s
  | st =>
    let s' := match st, s.run.current with
      | .running, some k => runWrite k (fun e => e.withResult .aborted) s
      | _, _ => s
    setRun
      { s'.run with state := .idle, keys := 0, current := none, copy := none, wait := .none, failed := false } s'

end Sys2Proof.Machine
end

