-- ==== Sys2Proof/Machine/ClockOps.lean ====
section
/-! DEFINITION. The performance clock (spec/03_the_performance_clock.md): advances and owed corrections, the work of one
instant of a running clock, the stop, the transport requests, and SYNC. -/

namespace Sys2Proof.Machine

/-- Every part of an instant's work, in the order taken where a command names none. -/
def defaultPhases : List Phase := [.capture, .latch .l0, .latch .l1, .enter .l0, .enter .l1, .schedule]

/-- A list with later repetitions of an item left out. -/
def firstOnly : List Phase → List Phase
  | [] => []
  | p :: rest => p :: (firstOnly rest).filter fun q => q ≠ p

/-- The order of an instant's work as a command names it: every part once, the capture unit's before the scheduler's, so
that records reach the store in time order (R10, R17). The spec leaves the rest of the order open; the command's sender
chooses it. -/
def phaseOrder (named : List Phase) : List Phase :=
  let all := firstOnly (named ++ defaultPhases)
  if all.idxOf .capture < all.idxOf .schedule then all else .capture :: all.filter fun p => p ≠ .capture

/-- The instants at which a running clock's work is done: an advance, the entry to RUNNING from STOPPED, or from PAUSED. -/
inductive InstantKind where
  | advance
  | start
  | resume
deriving DecidableEq, Repr

/-- One part of an instant's work, with the frame boundary its frame event names, if one is handed (R41). -/
def phaseWork (r : PedalReadings) (kind : InstantKind) (frame : Option Nat) (s : State) : Phase → State
  | .capture =>
    let s1 := if kind = .advance then s else captureReenter s
    match frame with
    | some b => captureFrame r b s1
    | none => s1
  | .latch y => if frame.isSome then latch y s else s
  | .enter y => enterPlaying y s
  | .schedule =>
    let s1 := if kind = .advance then judgeLateness s else s
    takeAll (processDue (fun _ => true) s1)

/-- The work of one instant of a running clock, in an order; what a later part made ready is taken at the end (R111). -/
def instantWork (r : PedalReadings) (order : List Phase) (kind : InstantKind) (frame : Option Nat) (s : State) : State :=
  takeAll ((phaseOrder order).foldl (phaseWork r kind frame) s)

/-- Both layers' pending settings latched (R77). -/
def latchBoth (s : State) : State := latch .l1 (latch .l0 s)

/-- Every last fire tick becomes absent (R138). -/
def dropLastFires (s : State) : State :=
  { s with drive := { s.drive with keys := bankMap (fun _ d => { d with lastFire := none }) s.drive.keys } }

/-- A stop of the clock handed to every block (R44): the settings pending on leaving RUNNING latched (R77), the plan
emptied (R126), the keys let go and their fire ticks removed (R138), the layers stopped (R87), the capture take closed
(R18). -/
def stopClock (s : State) : State :=
  let s1 := if s.running then latchBoth { s with clk := { s.clk with state := .stopped, owed := 0 } }
    else { s with clk := { s.clk with state := .stopped, owed := 0 } }
  let s2 := dropLastFires (letGoReported (fun _ => true) (clearPlan s1))
  let s3 := stopLayer .l1 (stopLayer .l0 s2)
  if s3.cap.state = .idle then s3 else stopCapture s3

/-- What an advance does to the clock's own values (R40, R50): the new values, the frame boundary reached or passed, and
whether the position moved. -/
structure Advanced where
  clk   : Clock
  frame : Option Nat
  moved : Bool

/-- The clock's own part of an advance (R40, R41, R50). -/
def Clock.advanced (c : Clock) : Advanced :=
  let edge := onBoundary (c.position + 1)
  let next := c.nextAdvance + Config.tickMicros
  if edge ∧ c.owed < 0 ∧ ¬ c.withheld then
    { clk := { c with owed := c.owed + 1, withheld := true, nextAdvance := next }, frame := none, moved := false }
  else
    let skip : Bool := edge && decide (0 < c.owed) && !c.withheld
    { clk := { c with
        position := min Config.clockLimit (if skip then c.position + 2 else c.position + 1)
        owed := if skip then c.owed - 1 else c.owed
        withheld := false
        nextAdvance := next }
      frame := if edge then some (c.position + 1) else none
      moved := true }

/-- An advance of a RUNNING clock (R40, R46, R50, R111). -/
def advanceClock (r : PedalReadings) (order : List Phase) (s : State) : State :=
  if s.running ∧ s.clk.nextAdvance ≤ s.now then
    let adv := s.clk.advanced
    let s' : State := { s with clk := adv.clk }
    if !adv.moved then s'
    else if adv.clk.position = Config.clockLimit then raiseBoth .clockLimit (stopClock s')
    else instantWork r order .advance adv.frame s'
  else s

/-- The clock report (R39). -/
def clockReport (c : Clock) : List Byte :=
  byte1 c.state.code ++ byte4 c.position ++ byte1 c.source.code ++ byte2 c.syncLength ++ byte1 c.tracking.code ++
    signed1 c.owed

/-- An answer to a clock request: the status with the clock report taken after it (R39). -/
def clockAnswer (st : Status) (s : State) : Answer := { status := st, body := clockReport s.clk, state := s }

/-- The clock enters RUNNING at the position it holds. -/
def Clock.entering (c : Clock) (now : Nat) : Clock :=
  { c with state := .running, entered := now, nextAdvance := now + Config.tickMicros }

/-- The answer to CLOCK RUN (R42, R41, R119, R126). -/
def answerClockRun (r : PedalReadings) (order : List Phase) (s : State) : Answer :=
  if s.runActive then clockAnswer .calRun s
  else
    match s.clk.state with
    | .running => clockAnswer .ok s
    | .paused => clockAnswer .ok (instantWork r order .resume none { s with clk := s.clk.entering s.now })
    | .stopped =>
      if s.clk.position = Config.clockLimit then clockAnswer .state s
      else
        let frame := if onBoundary s.clk.position then some s.clk.position else none
        clockAnswer .ok (instantWork r order .start frame
          { s with clk := s.clk.entering s.now, sched := { s.sched with drops := [] } })

/-- The answer to CLOCK PAUSE (R43, R77, R17, R119). -/
def answerClockPause (s : State) : Answer :=
  match s.clk.state with
  | .stopped => clockAnswer .state s
  | .paused => clockAnswer .ok s
  | .running =>
    clockAnswer .ok (withdrawQueue (capturePause (latchBoth { s with clk := { s.clk with state := .paused } })))

/-- The answer to CLOCK STOP (R44). -/
def answerClockStop (s : State) : Answer := clockAnswer .ok (stopClock s)

/-- The answer to CLOCK LOCATE (R45). -/
def answerClockLocate (position : Word32) (s : State) : Answer :=
  if s.clk.state = .stopped then
    clockAnswer .ok { s with clk := { s.clk with
      position := (clampInt 0 Config.clockLimit position.toInt).toNat, owed := 0, withheld := false } }
  else clockAnswer .state s

/-- The answer to CLOCK SOURCE (R47). -/
def answerClockSource (source : Byte) (length : Word16) (s : State) : Answer :=
  if source = 0 then
    clockAnswer .ok { s with clk := { s.clk with source := .internal, tracking := .tracking, owed := 0 } }
  else if source = 1 then
    clockAnswer .ok { s with clk := { s.clk with
      source := .sync, syncLength := clampNat 100 8000 length.toNat, tracking := .tracking, owed := 0
      lastPulse := s.now } }
  else clockAnswer .badVal s

/-- The error of a pulse at the present position (R48). -/
def Clock.syncError (c : Clock) : Int := (expectedPosition c.position c.syncLength : Int) - c.position

/-- A SYNC pulse (R48). -/
def syncPulse (s : State) : State :=
  if s.clk.source = .sync ∧ s.running ∧ s.clk.tracking ≠ .fault then
    let err := s.clk.syncError
    if -64 ≤ err ∧ err ≤ 64 then
      { s with clk := { s.clk with tracking := .tracking, owed := clampInt (-8) 8 err, lastPulse := s.now } }
    else
      raiseBoth .sync { s with clk := { s.clk with tracking := .fault, owed := 0, lastPulse := s.now } }
  else s

/-- The wall instant at which the loss interval runs out (R49). -/
def Clock.lossAt (c : Clock) : Nat := max c.lastPulse c.entered + 2 * c.syncLength * Config.tickMicros

/-- The loss interval runs out with no pulse taken (R49). -/
def lossExpired (s : State) : State :=
  if s.clk.source = .sync ∧ s.running ∧ s.clk.tracking = .tracking ∧ s.clk.lossAt ≤ s.now then
    raiseBoth .sync { s with clk := { s.clk with tracking := .lost } }
  else s

/-- The clock at a soft reset (R51). -/
def softResetClock (s : State) : State :=
  { s with clk := { s.clk with
    state := .stopped, position := 0, owed := 0, tracking := .tracking, lastPulse := s.now, withheld := false } }

end Sys2Proof.Machine
end

