-- ==== Sys2Proof/Machine/LinkOps.lean ====
section
/-! DEFINITION. The client links (spec/10_client_links_and_requests.md): taking a transaction, placing a reply, fetching, the
notice requests, STATUS, and the two resets. -/

namespace Sys2Proof.Machine

/-- The bytes a fetch shifts out of a reply (section 10.1). -/
def Reply.bytes (r : Reply) : List Byte :=
  [BitVec.ofNat 8 r.status.code, r.kind, BitVec.ofNat 8 r.body.length] ++ r.body

/-- A link's slots are no longer what a fetch under way found in them, nor what a PART RESET of the other link left. -/
def LinkRec.slotChanged (r : LinkRec) : LinkRec :=
  { r with fetch := r.fetch.map fun f => { f with holds := false }, resetDue := none }

/-- A reply placed in a link's slot: the request slot emptied, REPLY raised, the link in REPLY (R167). -/
def LinkRec.place (r : LinkRec) (reply : Reply) : LinkRec :=
  LinkRec.raise { r.slotChanged with slots := .reply reply } .reply

/-- A block's answer placed as the reply to a request (R167). -/
def placeAnswer (l : Link) (q : Request) (a : Answer) : State :=
  a.state.setLink l ((a.state.link l).place { status := a.status, kind := q.kind, body := a.body })

/-- The request `q` stands in the request slot of link `l`. -/
def State.serves (s : State) (l : Link) (q : Request) : Bool := (s.link l).slots = .serving q

/-- The owning block takes the request that stands in a link's slot and its answer is placed (R167). A request that does
not stand there is not there to be taken: nothing happens. -/
def serve (l : Link) (q : Request) (answer : State → Answer) (s : State) : State :=
  if s.serves l q then placeAnswer l q (answer s) else s

/-- A complete request taken by a link in IDLE or REPLY: checked by the link itself (R165, R166). -/
def LinkRec.take (r : LinkRec) (kind : Byte) (body : List Byte) : LinkRec :=
  match decodeRequest kind body with
  | .badKind => r.place { status := .badKind, kind := kind, body := [] }
  | .badLen => r.place { status := .badLen, kind := kind, body := [] }
  | .request q => { r.slotChanged with slots := .serving q }

/-- A request transaction as select goes inactive (R164, R165). -/
def LinkRec.transact (r : LinkRec) (bytes : List Byte) : LinkRec :=
  match completeRequest bytes with
  | none => r
  | some (kind, body) =>
    match r.slots with
    | .serving _ => r.raise .busy
    | _ => r.take kind body

/-- The first byte of a fetch has been received (R168): what is found is shifted out in full. -/
def LinkRec.fetching (r : LinkRec) : LinkRec :=
  match r.slots with
  | .reply reply => { r with fetch := some { out := reply.bytes, holds := true } }
  | .serving _ => { r with fetch := some { out := Reply.bytes { status := .notReady, kind := 0, body := [] }, holds := false } }
  | .idle => { r with fetch := some { out := Reply.bytes { status := .none, kind := 0, body := [] }, holds := false } }

/-- Select goes inactive at the end of a fetch after a number of bytes shifted out (R168). -/
def LinkRec.fetched (r : LinkRec) (shifted : Nat) : LinkRec :=
  match r.fetch with
  | none => r
  | some f =>
    if f.holds ∧ f.out.length ≤ shifted then
      { r with slots := .idle, notices := r.notices &&& ~~~Notice.reply.flag, fetch := none }
    else { r with fetch := none }

/-- What a link does on its wires, which it ignores while RESET is low and in a transaction begun while it was (R174). DESIGN
CHOICE: a request transaction begun before RESET fell and ended after it rose is taken like any other (notes/assumptions/9). -/
def onWires (l : Link) (duringReset : Bool) (f : LinkRec → LinkRec) (s : State) : State :=
  if s.resetLow ∨ duringReset then s else s.setLink l (f (s.link l))

/-- The answer to NOTICE CLEAR (R171). -/
def answerNoticeClear (l : Link) (flags : Word16) (s : State) : Answer :=
  let r := s.link l
  let n := r.notices &&& ~~~flags
  { status := .ok, body := bytes16 n, state := s.setLink l { r with notices := n } }

/-- The answer to NOTICE MASK (R171). -/
def answerNoticeMask (l : Link) (mask : Word16) (s : State) : Answer :=
  let r := s.link l
  { status := .ok, body := bytes16 mask ++ bytes16 r.notices, state := s.setLink l { r with mask := mask } }

/-- The STATUS body (section 11.5, R172). -/
def statusBody (l : Link) (s : State) : List Byte :=
  byte1 s.clk.state.code ++ byte4 s.clk.position ++ byte1 s.layer0.state.code ++ byte1 s.layer1.state.code ++
    byte1 s.cap.state.code ++ optByte1 (s.cap.target.map Fin.val) ++ byte1 s.drive.power.code ++ flagByte s.drive.sag ++
    byte1 s.map.integrity.code ++ byte1 s.run.state.code ++ optByte1 (s.run.current.map Fin.val) ++
    byte1 s.cause.code ++ bytes16 (s.link l).notices

/-- The answer to STATUS (R172). -/
def answerStatus (l : Link) (s : State) : Answer := { status := .ok, body := statusBody l s, state := s }

/-- A link at a soft reset (R173): both slots emptied, the notice set and mask kept, RESET_DONE raised. -/
def LinkRec.softReset (r : LinkRec) : LinkRec := LinkRec.raise { r.slotChanged with slots := .idle } .resetDone

/-- The reset cause a link's PART RESET records (R173). -/
def causeOf : Link → ResetCause
  | .a => .linkA
  | .b => .linkB

/-- The other link's record at a soft reset of a link (R173): a PART RESET in service there is still carried out where it is
taken at this very instant. -/
def LinkRec.softResetByOther (r : LinkRec) (now : Nat) : LinkRec :=
  { r.softReset with resetDue := if r.slots = .serving .partReset then some now else none }

/-- A soft reset that a link's PART RESET starts: every block sets its own state under its own rule (R173, R21, R37, R51, R69,
R90, R128, R149, R163). -/
def softReset (l : Link) (s : State) : State :=
  let s1 := softResetClock (softResetRun (softResetCapture s))
  let s2 := softResetDrive (softResetPlan { s1 with layer0 := Layer.reset, layer1 := Layer.reset, store := s1.store.unbindAll })
  let s3 : State := { s2 with cause := causeOf l }
  (s3.setLink l (s3.link l).softReset).setLink l.other ((s3.link l.other).softResetByOther s.now)

/-- The answer to PART RESET (R173). -/
def answerPartReset (l : Link) (s : State) : Answer :=
  let s' := softReset l s
  { status := .ok, body := byte1 s'.cause.code, state := s' }

/-- A PART RESET that the other link's PART RESET found in service is taken at the same instant (R173). -/
def State.partResetDue (s : State) (l : Link) : Bool := (s.link l).slots = .idle && (s.link l).resetDue = some s.now

/-- A PART RESET taken (R173): it stands in its link's slot, or the other link's PART RESET of this instant discarded it from
there; of two taken at one instant each performs a full soft reset. -/
def takePartReset (l : Link) (s : State) : State :=
  if s.serves l .partReset ∨ s.partResetDue l then placeAnswer l .partReset (answerPartReset l s) else s

/-- The part at the end of a power-on reset (R174): every block's power-on state. Record memory keeps its bytes, which no
take reaches (R36); the commands that wait go on waiting. -/
def powerOn (s : State) : State :=
  { State.reset with pending := s.pending, store := { Store.reset with mem := s.store.mem } }

end Sys2Proof.Machine
end

