-- ==== Sys2Proof/Machine/Events.lean ====
section
/-! DEFINITION. What the events of the sensors, the lines and the wall timer do, each as one operation on the part; an event
whose instant has not come, or that has nothing to act on, does not occur and changes nothing (notes/assumptions/3). -/

namespace Sys2Proof.Machine

/-- A key returned to REST (R139, R140): QUIET_PENDING may become QUIET (R144), and the changes are reported (R130). -/
def settleRest (k : Key) (s : State) : State :=
  let s1 := enterRest k s
  let s2 := quietIfAtRest s1
  if s2.drive.power = s1.drive.power then reportKey k s2 else reportSupply s2

/-- A key record given the position of a sample, with the repetition threshold in force when it is taken (R1, R2). -/
def DriveKey.sampled (d : DriveKey) (p : KeyPos) (threshold : Nat) : DriveKey :=
  { d with lastPos := p, repetitionAt := threshold }

/-- The drive unit's part of a key sample on one key (R1, R2, R130, R139), with the end of STOPPING (R162). A key in REST is
reported where it passes the repetition threshold either way. -/
def driveSample (k : Key) (p : KeyPos) (s : State) : State :=
  let d := s.driveKey k
  let e := d.sampled p s.cap.repetition
  let s' := s.setDriveKey k e
  match d.state with
  | .letgo => if e.touched then s' else endStopping k (settleRest k s')
  | .rest => if d.touched = e.touched then s' else reportKey k s'
  | _ => s'

/-- A key sample on one key, handed to the capture unit, the drive unit and the run controller (R1). -/
def sampleKey (s : State) (reading : Key × KeyPos) : State :=
  runSample reading.1 reading.2 (driveSample reading.1 reading.2 (captureSample reading.1 reading.2 s))

/-- A key sample of the part (R1): every reading in the order the part hands them on. -/
def keySample (readings : List (Key × KeyPos)) (s : State) : State :=
  if s.wall.sample ≤ s.now then
    takeAll (readings.foldl sampleKey { s with wall := { s.wall with sample := s.wall.sample + Config.sampleMicros } })
  else s

/-- An echo (R11, R134, R141) with the velocity the capture unit computed, if it could. -/
def takeEcho (k : Key) (velocity : Option Nat) (s : State) : State :=
  let d := s.driveKey k
  match d.state, d.fire with
  | .strike, some { kind := .strike .., .. } => takeAll (respond s (detect k s))
  | .probe, some { kind := .pulse, firedAt := firedAt, .. } => runHit k firedAt s.now velocity (endPulse k s)
  | .letgo, some _ => s.setDriveKey k { d with fire := none }
  | .blocked, some _ => s.setDriveKey k { d with fire := none }
  | _, _ => s

/-- A gate-2 event (R3, R6, R11): a strike completed, a passage discarded, or an echo handed to the drive unit. -/
def gate2 (k : Key) (s : State) : State :=
  if s.driveOwned k then takeEcho k (passageVelocity k s) (s.setCapKey k { (s.capKey k) with gate1At := none })
  else captureGate2 k s

/-- A key's gate-1 window ends (R8, R11). -/
def windowEnd (k : Key) (s : State) : State :=
  match (s.capKey k).windowExpiry with
  | some t => if t ≤ s.now then captureWindowEnd k s else s
  | none => s

/-- A supply reading (R143): it becomes Vmeas and SAG is judged; a change of live SAG is reported. -/
def readSupply (v : SupplyReading) (s : State) : State :=
  if s.wall.supply ≤ s.now then
    let s1 := judgeSag
      { s with
        wall := { s.wall with supply := s.wall.supply + Config.supplyMicros }
        drive := { s.drive with vmeas := v.val } }
    if s1.drive.sag = s.drive.sag then s1 else takeAll (reportSupply s1)
  else s

/-- A service period ends (R38): heat decays and accrues, and the map counts the period unless INTEGRITY_CHECK has taken
the map's half of it already. -/
def servicePeriodEnd (s : State) : State :=
  if s.wall.service ≤ s.now then
    let s1 := heatPeriod { s with wall := { s.wall with service := s.wall.service + Config.serviceMicros } }
    if s1.map.counted then { s1 with map := { s1.map with counted := false } } else countPeriod s1
  else s

/-- The map's half of the service-period event that brings the integrity count to 64 (R65). -/
def integrityPeriod (s : State) : State :=
  if s.wall.service ≤ s.now ∧ ¬ s.map.counted ∧ s.map.count + 1 = Config.checkPeriods then
    let s1 := countPeriod s
    { s1 with map := { s1.map with counted := true } }
  else s

/-- A key whose strike was not seen at gate 2 (R135): MISSED, SUSTAIN at once with no rebound gap, the slot given back. -/
def missStrike (k : Key) (y : LayerId) (event velocity : Nat) (s : State) : State :=
  let s1 := addDrop (missedEntry k y event velocity) s
  let s2 := putDriveKey k
    { (s1.driveKey k) with state := .sustain, fire := none, sustain := none, reboundEnd := none } s1
  takeAll (respond s (beginSustain k s2))

/-- The grace expiry of a replay strike (R135). -/
def strikeGrace (k : Key) (s : State) : State :=
  let d := s.driveKey k
  match d.fire with
  | some { kind := .strike y event velocity _ _ _, grace := grace, .. } =>
    if grace ≤ s.now then
      match d.state with
      | .strike => missStrike k y event velocity s
      | .letgo => s.setDriveKey k { d with fire := none }
      | .blocked => s.setDriveKey k { d with fire := none }
      | _ => s
    else s
  | _ => s

/-- The rebound gap after a detection ends (R136). -/
def reboundOver (k : Key) (s : State) : State :=
  let d := s.driveKey k
  match d.state, d.reboundEnd with
  | .sustain, some t => if t ≤ s.now then beginSustain k s else s
  | _, _ => s

/-- A let-go window runs out (R139): BLOCKED, KEY_FAULT in both sets; the change is reported, and STOPPING may end. -/
def letGoOver (k : Key) (s : State) : State :=
  let d := s.driveKey k
  match d.state, d.letGoAt with
  | .letgo, some t =>
    if t ≤ s.now then
      takeAll (endStopping k (reportKey k (raiseBoth .keyFault (putDriveKey k { d with state := .blocked, letGoAt := none } s))))
    else s
  | _, _ => s

/-- The drive has woken (R145). -/
def wakeOver (s : State) : State :=
  match s.drive.power, s.drive.wakeAt with
  | .waking, some t => if t ≤ s.now then takeAll (reportSupply (enterActive s)) else s
  | _, _ => s

/-- A pulse's grace runs out with no echo (R141): the controller is handed a miss. -/
def pulseGrace (k : Key) (s : State) : State :=
  let d := s.driveKey k
  match d.state, d.fire with
  | .probe, some { kind := .pulse, grace := grace, .. } => if grace ≤ s.now then runMiss k (endPulse k s) else s
  | _, _ => s

end Sys2Proof.Machine
end

