-- ==== Sys2Proof/Machine/DriveRequests.lean ====
section
/-! DEFINITION. The requests of the drive unit (R140, R144 to R148), and LAYER FREE (R88), which the scheduler, the drive
unit and the layer take together. -/

namespace Sys2Proof.Machine

/-- An answer followed by the scheduler's takings at the same instant (R109, R111); a refusal with no body took nothing
and leads to none. -/
def Answer.thenTake (a : Answer) : Answer := if a.body.isEmpty then a else { a with state := takeAll a.state }

/-- A named key can be cleared (R140). -/
def clearable (s : State) (k : Key) : Bool :=
  (s.driveKey k).state = .blocked && !(s.driveKey k).touched

/-- The answer to KEYS CLEAR (R140). -/
def answerKeysClear (keys : BitVec 88) (s : State) : Answer :=
  let cleared := (keysOf keys).filter (clearable s)
  let s' := cleared.foldl (fun s k => settleRest k s) s
  { status := .ok
    body := byte4 cleared.length ++ keySetBytes (keySetOf fun k => inKeySet keys k && (s'.driveKey k).state = .blocked)
    state := takeAll s' }

/-- QUIET ENTER from ACTIVE or WAKING (R144, R138). -/
def goQuiet (s : State) : State :=
  quietIfAtRest (letGoReported (fun _ => true)
    { s with drive := { s.drive with power := .quietPending, wakeAt := none } })

/-- The answer to QUIET ENTER (R144). -/
def answerQuietEnter (s : State) : Answer :=
  if s.running ∨ s.runActive then refuse .state s
  else
    let s' := match s.drive.power with
      | .active => goQuiet s
      | .waking => goQuiet s
      | .quietPending => s
      | .quiet => s
    { status := .ok, body := byte1 s'.drive.power.code, state := s' }

/-- The answer to QUIET LEAVE (R145). -/
def answerQuietLeave (s : State) : Answer :=
  { status := .ok, body := []
    state := match s.drive.power with
      | .quiet =>
        takeAll (reportSupply
          { s with drive := { s.drive with power := .waking, wakeAt := some (s.now + Config.wakeMicros) } })
      | .quietPending => takeAll (reportSupply (enterActive s))
      | .active => s
      | .waking => s }

/-- The answer to DRIVE SET (R147, R143, R132). -/
def answerDriveSet (slots : Byte) (vnom : Word16) (sagPercent : Byte) (s : State) : Answer :=
  let n := clampNat 4 16 slots.toNat
  let v := clampNat 100 1000 vnom.toNat
  let p := clampNat 60 95 sagPercent.toNat
  let s1 := judgeSag { s with drive := { s.drive with slots := n, vnom := v, sagPercent := p } }
  { status := .ok, body := byte1 n ++ byte2 v ++ byte1 p ++ byte2 (vsag v p)
    state := takeAll (if s1.drive.sag = s.drive.sag then respond s s1 else reportSupply (arbiter s1)) }

/-- A key's bytes in DRIVE INFO (R148). -/
def driveKeyBytes (d : DriveKey) : List Byte :=
  byte1 d.state.code ++ optByte1 (d.owner.map LayerId.code) ++ byte2 d.heat ++ flagByte d.warm ++ flagByte d.hot

/-- A pedal's bytes in DRIVE INFO (R148). -/
def pedalDriveBytes (r : PedalDrive) : List Byte := optByte1 r.merged ++ byte2 r.output

/-- The answer to DRIVE INFO (R148). -/
def answerDriveInfo (first count : Byte) (s : State) : Answer :=
  let f := first.toNat
  let n := count.toNat
  if 87 < f ∨ n < 1 ∨ 32 < n ∨ 87 < f + n - 1 then refuse .badVal s
  else
    let d := s.drive
    { status := .ok
      body := byte1 d.power.code ++ flagByte d.power.supplyEn ++ flagByte d.sag ++ byte2 d.vmeas ++ byte2 d.vnom ++
        byte1 d.sagPercent ++ byte2 d.vsag ++ byte1 d.slots ++ byte4 s.slotsHeld ++ byte4 d.queue.length ++
        flagByte s.pulseBusy ++
        ((allKeys.filter fun k => f ≤ k.val ∧ k.val < f + n).flatMap fun k => driveKeyBytes (s.driveKey k)) ++
        (allPedals.flatMap fun p => pedalDriveBytes (bankGet d.pedals p))
      state := s }

/-- The answer to LAYER FREE (R88, R127, R138). -/
def answerLayerFree (layer : Byte) (s : State) : Answer :=
  match layerOf layer with
  | none => refuse .badVal s
  | some y =>
    if (s.layer y).state = .free then refuse .state s
    else
      let s' := releaseLayer y (letGoReported (fun d => d.owner = some y) (freePlan y s))
      { status := .ok, body := layerReport (s'.layer y), state := takeAll s' }

end Sys2Proof.Machine
end

