-- ==== Sys2Proof/Machine/CaptureRequests.lean ====
section
/-! DEFINITION. The meanings of the requests of the capture unit (section 1.6). -/

namespace Sys2Proof.Machine

/-- CAPTURE START (R16, R17). -/
def execCaptureStart (l : Link) (pedals : PedalReadings) (s : State) : Host.Outcome State Fault Refusal :=
  .next (serve l .captureStart (answerCaptureStart pedals) s)

/-- CAPTURE STOP (R18). -/
def execCaptureStop (l : Link) (s : State) : Host.Outcome State Fault Refusal :=
  .next (serve l .captureStop answerCaptureStop s)

/-- CAPTURE SET (R20). -/
def execCaptureSet (l : Link) (release repetition down : Word16) (deadband : Byte) (s : State) :
    Host.Outcome State Fault Refusal :=
  .next (serve l (.captureSet release repetition down deadband) (answerCaptureSet release repetition down deadband) s)

end Sys2Proof.Machine
end

