-- ==== Sys2Proof/Machine/ClockRequests.lean ====
section
/-! DEFINITION. The meanings of the requests of the performance clock (section 3.3). -/

namespace Sys2Proof.Machine

/-- CLOCK RUN (R42). -/
def execClockRun (l : Link) (pedals : PedalReadings) (order : List Phase) (s : State) :
    Host.Outcome State Fault Refusal :=
  .next (serve l .clockRun (answerClockRun pedals order) s)

/-- CLOCK PAUSE (R43). -/
def execClockPause (l : Link) (s : State) : Host.Outcome State Fault Refusal :=
  .next (serve l .clockPause answerClockPause s)

/-- CLOCK STOP (R44). -/
def execClockStop (l : Link) (s : State) : Host.Outcome State Fault Refusal :=
  .next (serve l .clockStop answerClockStop s)

/-- CLOCK LOCATE (R45). -/
def execClockLocate (l : Link) (position : Word32) (s : State) : Host.Outcome State Fault Refusal :=
  .next (serve l (.clockLocate position) (answerClockLocate position) s)

/-- CLOCK SOURCE (R47). -/
def execClockSource (l : Link) (source : Byte) (length : Word16) (s : State) : Host.Outcome State Fault Refusal :=
  .next (serve l (.clockSource source length) (answerClockSource source length) s)

end Sys2Proof.Machine
end

