-- ==== Sys2Proof/Machine/DriveMeanings.lean ====
section
/-! DEFINITION. The meanings of the requests of the drive unit (spec/08_solenoid_drive.md). -/

namespace Sys2Proof.Machine

/-- KEYS CLEAR (R140). -/
def execKeysClear (l : Link) (keys : BitVec 88) (s : State) : Host.Outcome State Fault Refusal :=
  .next (serve l (.keysClear keys) (answerKeysClear keys) s)

/-- QUIET ENTER (R144). -/
def execQuietEnter (l : Link) (s : State) : Host.Outcome State Fault Refusal :=
  .next (serve l .quietEnter answerQuietEnter s)

/-- QUIET LEAVE (R145). -/
def execQuietLeave (l : Link) (s : State) : Host.Outcome State Fault Refusal :=
  .next (serve l .quietLeave answerQuietLeave s)

/-- DRIVE SET (R147, R143). -/
def execDriveSet (l : Link) (slots : Byte) (vnom : Word16) (sagPercent : Byte) (s : State) :
    Host.Outcome State Fault Refusal :=
  .next (serve l (.driveSet slots vnom sagPercent) (answerDriveSet slots vnom sagPercent) s)

/-- DRIVE INFO (R148). -/
def execDriveInfo (l : Link) (first count : Byte) (s : State) : Host.Outcome State Fault Refusal :=
  .next (serve l (.driveInfo first count) (answerDriveInfo first count) s)

end Sys2Proof.Machine
end

