-- ==== Sys2Proof/Machine/LayerRequests.lean ====
section
/-! DEFINITION. The meanings of the requests of the replay layers (spec/05_replay_layers.md). -/

namespace Sys2Proof.Machine

/-- LAYER BIND (R71). -/
def execLayerBind (l : Link) (layer source take : Byte) (s : State) : Host.Outcome State Fault Refusal :=
  .next (serve l (.layerBind layer source take) (answerLayerBind l layer source take) s)

/-- LAYER MARKS (R73). -/
def execLayerMarks (l : Link) (layer low high : Byte) (s : State) : Host.Outcome State Fault Refusal :=
  .next (serve l (.layerMarks layer low high) (answerLayerMarks layer low high) s)

/-- LAYER FEED (R74, R111). -/
def execLayerFeed (l : Link) (layer : Byte) (records : List Record) (s : State) : Host.Outcome State Fault Refusal :=
  .next (serve l (.layerFeed layer records) (fun s => (answerLayerFeed l layer records s).thenTake) s)

/-- LAYER SET (R76, R77). -/
def execLayerSet (l : Link) (layer : Byte) (settings : RawSettings) (s : State) : Host.Outcome State Fault Refusal :=
  .next (serve l (.layerSet layer settings) (answerLayerSet layer settings) s)

/-- LAYER CUE (R79 to R82, R111). -/
def execLayerCue (l : Link) (layer cueKind : Byte) (cueValue : Word32) (entryKind : Byte) (entryTick : Word32) (s : State) :
    Host.Outcome State Fault Refusal :=
  .next
    (serve l (.layerCue layer cueKind cueValue entryKind entryTick) (fun s => (answerLayerCue layer cueKind cueValue entryKind entryTick s).thenTake) s)

/-- LAYER FREE (R88, R127). -/
def execLayerFree (l : Link) (layer : Byte) (s : State) : Host.Outcome State Fault Refusal :=
  .next (serve l (.layerFree layer) (answerLayerFree layer) s)

/-- LAYER INFO (R89). -/
def execLayerInfo (l : Link) (layer : Byte) (s : State) : Host.Outcome State Fault Refusal :=
  .next (serve l (.layerInfo layer) (answerLayerInfo layer) s)

end Sys2Proof.Machine
end

