-- ==== Sys2Proof/Machine/LinkEvents.lean ====
section
/-! DEFINITION. The meanings of the events on a link's wires and on the RESET line (spec/10_client_links_and_requests.md). -/

namespace Sys2Proof.Machine

/-- POWER_ON_RESET (R174): the RESET line rises; every block takes its power-on state. -/
def execPowerOnReset (s : State) : Host.Outcome State Fault Refusal :=
  .next (powerOn s)

/-- REQUEST_TRANSACTION (R164, R165, R166): a transaction begun while RESET was low is ignored (R174). -/
def execRequestTransaction (l : Link) (bytes : List Byte) (duringReset : Bool) (s : State) :
    Host.Outcome State Fault Refusal :=
  .next (onWires l duringReset (fun r => r.transact bytes) s)

/-- TRANSACTION_DISCARDED (R164): discarded whole, nothing changes. -/
def execTransactionDiscarded (_l : Link) (_bytes : List Byte) (s : State) : Host.Outcome State Fault Refusal :=
  .next s

/-- FETCH (R168): what the link finds at the first byte is shifted out. -/
def execFetch (l : Link) (duringReset : Bool) (s : State) : Host.Outcome State Fault Refusal :=
  .next (onWires l duringReset LinkRec.fetching s)

/-- RESET_LINE_LOW (R174): both links ignore their wires and assert no attention until RESET rises. -/
def execResetLineLow (s : State) : Host.Outcome State Fault Refusal :=
  .next { s with resetLow := true }

/-- FETCH_SELECT_INACTIVE (R168). -/
def execFetchSelectInactive (l : Link) (shifted : Nat) (s : State) : Host.Outcome State Fault Refusal :=
  .next (onWires l false (fun r => r.fetched shifted) s)

end Sys2Proof.Machine
end

