-- ==== Sys2Proof/Machine/MapRequests.lean ====
section
/-! DEFINITION. The meanings of the requests of the calibration map (spec/04_the_calibration_map.md). -/

namespace Sys2Proof.Machine

/-- MAP READ (R58). -/
def execMapRead (l : Link) (cls number : Byte) (s : State) : Host.Outcome State Fault Refusal :=
  .next (serve l (.mapRead cls number) (answerMapRead cls number) s)

/-- MAP WRITE (R59, R60). -/
def execMapWrite (l : Link) (body : MapBody) (s : State) : Host.Outcome State Fault Refusal :=
  .next (serve l (.mapWrite body) (answerMapWrite body) s)

/-- MAP CLEAR (R62). -/
def execMapClear (l : Link) (s : State) : Host.Outcome State Fault Refusal :=
  .next (serve l .mapClear answerMapClear s)

/-- MAP ACCEPT (R63). -/
def execMapAccept (l : Link) (s : State) : Host.Outcome State Fault Refusal :=
  .next (serve l .mapAccept answerMapAccept s)

end Sys2Proof.Machine
end

