-- ==== Sys2Proof/Machine/PartRequests.lean ====
section
/-! DEFINITION. The meanings of the requests the links answer themselves: STATUS, the notice requests, PART RESET (section 10). -/

namespace Sys2Proof.Machine

/-- STATUS (R172). -/
def execStatus (l : Link) (s : State) : Host.Outcome State Fault Refusal :=
  .next (serve l .status (answerStatus l) s)

/-- NOTICE CLEAR (R171). -/
def execNoticeClear (l : Link) (flags : Word16) (s : State) : Host.Outcome State Fault Refusal :=
  .next (serve l (.noticeClear flags) (answerNoticeClear l flags) s)

/-- NOTICE MASK (R171). -/
def execNoticeMask (l : Link) (mask : Word16) (s : State) : Host.Outcome State Fault Refusal :=
  .next (serve l (.noticeMask mask) (answerNoticeMask l mask) s)

/-- PART RESET (R173). -/
def execPartReset (l : Link) (s : State) : Host.Outcome State Fault Refusal :=
  .next (takePartReset l s)

end Sys2Proof.Machine
end

