-- ==== Sys2Proof/Machine/PlanRequests.lean ====
section
/-! DEFINITION. The meanings of the requests of the strike scheduler (spec/07_the_strike_plan.md). -/

namespace Sys2Proof.Machine

/-- DROPS READ (R123). -/
def execDropsRead (l : Link) (s : State) : Host.Outcome State Fault Refusal :=
  .next (serve l .dropsRead answerDropsRead s)

/-- PLAN SET (R124). -/
def execPlanSet (l : Link) (late rise : Word16) (s : State) : Host.Outcome State Fault Refusal :=
  .next (serve l (.planSet late rise) (answerPlanSet late rise) s)

/-- ALL OFF (R125, R138, R111). -/
def execAllOff (l : Link) (s : State) : Host.Outcome State Fault Refusal :=
  .next (serve l .allOff (fun s => (answerAllOff s).thenTake) s)

end Sys2Proof.Machine
end

