-- ==== Sys2Proof/Machine/RunRequests.lean ====
section
/-! DEFINITION. The meanings of the requests of the run controller (spec/09_calibration_runs.md). -/

namespace Sys2Proof.Machine

/-- CAL RUN (R150, R151). -/
def execCalRun (l : Link) (kind : Byte) (keys : BitVec 88) (stopOnFault : Byte) (velocity : Word16) (repeats : Byte) (s : State) :
    Host.Outcome State Fault Refusal :=
  .next
    (serve l (.calRun kind keys stopOnFault velocity repeats) (answerCalRun kind keys stopOnFault velocity repeats) s)

/-- CAL STOP (R162). -/
def execCalStop (l : Link) (s : State) : Host.Outcome State Fault Refusal :=
  .next (serve l .calStop answerCalStop s)

end Sys2Proof.Machine
end

