-- ==== Sys2Proof/Machine/SensorEvents.lean ====
section
/-! DEFINITION. The meanings of the sensor events: key samples, gate passages and gate-1 windows (spec/01_keys_pedals_and_capture.md). -/

namespace Sys2Proof.Machine

/-- KEY_SAMPLE (R1): all 88 positions handed to the capture unit, the drive unit and the run controller. -/
def execKeySample (readings : List (Key × KeyPos)) (s : State) : Host.Outcome State Fault Refusal :=
  .next (Machine.keySample readings s)

/-- GATE1_EVENT (R3, R5, R11): a passage away from the string is ignored. -/
def execGate1Event (k : Key) (dir : Direction) (s : State) : Host.Outcome State Fault Refusal :=
  .next (match dir with
    | .toward => captureGate1 k s
    | .away => s)

/-- GATE2_EVENT (R3, R6, R11): a passage away from the string is ignored. -/
def execGate2Event (k : Key) (dir : Direction) (s : State) : Host.Outcome State Fault Refusal :=
  .next (match dir with
    | .toward => gate2 k s
    | .away => s)

/-- WINDOW_EXPIRY (R8, R11). -/
def execWindowExpiry (k : Key) (s : State) : Host.Outcome State Fault Refusal :=
  .next (windowEnd k s)

end Sys2Proof.Machine
end

