-- ==== Sys2Proof/Machine/TakeRequests.lean ====
section
/-! DEFINITION. The meanings of the requests of the take store (spec/02_the_take_store.md). -/

namespace Sys2Proof.Machine

/-- TAKE OPEN (R24). -/
def execTakeOpen (l : Link) (s : State) : Host.Outcome State Fault Refusal :=
  .next (serve l .takeOpen (answerTakeOpen l) s)

/-- APPEND (R27, R28). -/
def execAppend (l : Link) (take : Byte) (records : List Record) (s : State) : Host.Outcome State Fault Refusal :=
  .next (serve l (.append take records) (answerAppend l take records) s)

/-- CLOSE (R27, R30). -/
def execClose (l : Link) (take : Byte) (endTime : Word32) (s : State) : Host.Outcome State Fault Refusal :=
  .next (serve l (.close take endTime) (answerClose l take endTime) s)

/-- READ (R31). -/
def execRead (l : Link) (take : Byte) (start : Word32) (count : Byte) (s : State) :
    Host.Outcome State Fault Refusal :=
  .next (serve l (.read take start count) (answerRead take start count) s)

/-- INFO (R31). -/
def execInfo (l : Link) (take : Byte) (s : State) : Host.Outcome State Fault Refusal :=
  .next (serve l (.info take) (answerInfo take) s)

/-- ERASE (R32). -/
def execErase (l : Link) (take : Byte) (s : State) : Host.Outcome State Fault Refusal :=
  .next (serve l (.erase take) (answerErase take) s)

end Sys2Proof.Machine
end

