-- ==== Sys2Proof/Machine/TimerEvents.lean ====
section
/-! DEFINITION. The meanings of the events of the wall timer, the SYNC line, the supply and the calibration pulses. -/

namespace Sys2Proof.Machine

/-- CLOCK_ADVANCE (R40, R41, R46, R50). -/
def execClockAdvance (pedals : PedalReadings) (order : List Phase) (s : State) : Host.Outcome State Fault Refusal :=
  .next (advanceClock pedals order s)

/-- SERVICE_PERIOD (R38, R65, R105). -/
def execServicePeriod (s : State) : Host.Outcome State Fault Refusal :=
  .next (servicePeriodEnd s)

/-- INTEGRITY_CHECK (R65, R66). -/
def execIntegrityCheck (s : State) : Host.Outcome State Fault Refusal :=
  .next (integrityPeriod s)

/-- SUPPLY_READING (R143). -/
def execSupplyReading (reading : SupplyReading) (s : State) : Host.Outcome State Fault Refusal :=
  .next (readSupply reading s)

/-- SYNC_PULSE (R48). -/
def execSyncPulse (s : State) : Host.Outcome State Fault Refusal :=
  .next (Machine.syncPulse s)

/-- LOSS_INTERVAL_EXPIRY (R49). -/
def execLossIntervalExpiry (s : State) : Host.Outcome State Fault Refusal :=
  .next (lossExpired s)

/-- STRIKE_GRACE_EXPIRY (R135). -/
def execStrikeGraceExpiry (k : Key) (s : State) : Host.Outcome State Fault Refusal :=
  .next (strikeGrace k s)

/-- REBOUND_END (R136). -/
def execReboundEnd (k : Key) (s : State) : Host.Outcome State Fault Refusal :=
  .next (reboundOver k s)

/-- LET_GO_EXPIRY (R139). -/
def execLetGoExpiry (k : Key) (s : State) : Host.Outcome State Fault Refusal :=
  .next (letGoOver k s)

/-- WAKE_EXPIRY (R145). -/
def execWakeExpiry (s : State) : Host.Outcome State Fault Refusal :=
  .next (wakeOver s)

/-- PULSE_REQUEST (R152, R141). -/
def execPulseRequest (s : State) : Host.Outcome State Fault Refusal :=
  .next (requestPulse s)

/-- PULSE_FIRE (R141, R153). -/
def execPulseFire (s : State) : Host.Outcome State Fault Refusal :=
  .next (firePending s)

/-- PULSE_GRACE_EXPIRY (R141). -/
def execPulseGraceExpiry (k : Key) (s : State) : Host.Outcome State Fault Refusal :=
  .next (pulseGrace k s)

/-- REST_DEADLINE (R152). -/
def execRestDeadline (s : State) : Host.Outcome State Fault Refusal :=
  .next (restDeadlineReached s)

end Sys2Proof.Machine
end

