-- ==== Sys2Proof/Machine/Dispatch.lean ====
section
/-! DEFINITION. The dispatch of a command to its meaning: one arm for each row of spec/opcode_table.json. -/

namespace Sys2Proof.Machine

def exec (i : Instr) (s : State) : Host.Outcome State Fault Refusal :=
  match i with
  | .powerOnReset => Sys2Proof.Machine.execPowerOnReset s
  | .keySample readings => Sys2Proof.Machine.execKeySample readings s
  | .gate1Event key dir => Sys2Proof.Machine.execGate1Event key dir s
  | .gate2Event key dir => Sys2Proof.Machine.execGate2Event key dir s
  | .windowExpiry key => Sys2Proof.Machine.execWindowExpiry key s
  | .clockAdvance pedals order => Sys2Proof.Machine.execClockAdvance pedals order s
  | .servicePeriod => Sys2Proof.Machine.execServicePeriod s
  | .integrityCheck => Sys2Proof.Machine.execIntegrityCheck s
  | .supplyReading reading => Sys2Proof.Machine.execSupplyReading reading s
  | .syncPulse => Sys2Proof.Machine.execSyncPulse s
  | .lossIntervalExpiry => Sys2Proof.Machine.execLossIntervalExpiry s
  | .strikeGraceExpiry key => Sys2Proof.Machine.execStrikeGraceExpiry key s
  | .reboundEnd key => Sys2Proof.Machine.execReboundEnd key s
  | .letGoExpiry key => Sys2Proof.Machine.execLetGoExpiry key s
  | .wakeExpiry => Sys2Proof.Machine.execWakeExpiry s
  | .pulseRequest => Sys2Proof.Machine.execPulseRequest s
  | .pulseFire => Sys2Proof.Machine.execPulseFire s
  | .pulseGraceExpiry key => Sys2Proof.Machine.execPulseGraceExpiry key s
  | .restDeadline => Sys2Proof.Machine.execRestDeadline s
  | .requestTransaction link bytes duringReset => Sys2Proof.Machine.execRequestTransaction link bytes duringReset s
  | .transactionDiscarded link bytes => Sys2Proof.Machine.execTransactionDiscarded link bytes s
  | .fetch link duringReset => Sys2Proof.Machine.execFetch link duringReset s
  | .captureStart link pedals => Sys2Proof.Machine.execCaptureStart link pedals s
  | .captureStop link => Sys2Proof.Machine.execCaptureStop link s
  | .captureSet link release repetition down deadband => Sys2Proof.Machine.execCaptureSet link release repetition down deadband s
  | .takeOpen link => Sys2Proof.Machine.execTakeOpen link s
  | .append link take records => Sys2Proof.Machine.execAppend link take records s
  | .close link take endTime => Sys2Proof.Machine.execClose link take endTime s
  | .read link take start count => Sys2Proof.Machine.execRead link take start count s
  | .info link take => Sys2Proof.Machine.execInfo link take s
  | .erase link take => Sys2Proof.Machine.execErase link take s
  | .clockRun link pedals order => Sys2Proof.Machine.execClockRun link pedals order s
  | .clockPause link => Sys2Proof.Machine.execClockPause link s
  | .clockStop link => Sys2Proof.Machine.execClockStop link s
  | .clockLocate link position => Sys2Proof.Machine.execClockLocate link position s
  | .clockSource link source length => Sys2Proof.Machine.execClockSource link source length s
  | .mapRead link cls number => Sys2Proof.Machine.execMapRead link cls number s
  | .mapWrite link body => Sys2Proof.Machine.execMapWrite link body s
  | .mapClear link => Sys2Proof.Machine.execMapClear link s
  | .mapAccept link => Sys2Proof.Machine.execMapAccept link s
  | .layerBind link layer source take => Sys2Proof.Machine.execLayerBind link layer source take s
  | .layerMarks link layer low high => Sys2Proof.Machine.execLayerMarks link layer low high s
  | .layerFeed link layer records => Sys2Proof.Machine.execLayerFeed link layer records s
  | .layerSet link layer settings => Sys2Proof.Machine.execLayerSet link layer settings s
  | .layerCue link layer cueKind cueValue entryKind entryTick => Sys2Proof.Machine.execLayerCue link layer cueKind cueValue entryKind entryTick s
  | .layerFree link layer => Sys2Proof.Machine.execLayerFree link layer s
  | .layerInfo link layer => Sys2Proof.Machine.execLayerInfo link layer s
  | .dropsRead link => Sys2Proof.Machine.execDropsRead link s
  | .planSet link late rise => Sys2Proof.Machine.execPlanSet link late rise s
  | .allOff link => Sys2Proof.Machine.execAllOff link s
  | .keysClear link keys => Sys2Proof.Machine.execKeysClear link keys s
  | .quietEnter link => Sys2Proof.Machine.execQuietEnter link s
  | .quietLeave link => Sys2Proof.Machine.execQuietLeave link s
  | .driveSet link slots vnom sagPercent => Sys2Proof.Machine.execDriveSet link slots vnom sagPercent s
  | .driveInfo link first count => Sys2Proof.Machine.execDriveInfo link first count s
  | .calRun link kind keys stopOnFault velocity repeats => Sys2Proof.Machine.execCalRun link kind keys stopOnFault velocity repeats s
  | .calStop link => Sys2Proof.Machine.execCalStop link s
  | .status link => Sys2Proof.Machine.execStatus link s
  | .noticeClear link flags => Sys2Proof.Machine.execNoticeClear link flags s
  | .noticeMask link mask => Sys2Proof.Machine.execNoticeMask link mask s
  | .partReset link => Sys2Proof.Machine.execPartReset link s
  | .resetLineLow => Sys2Proof.Machine.execResetLineLow s
  | .fetchSelectInactive link shifted => Sys2Proof.Machine.execFetchSelectInactive link shifted s

end Sys2Proof.Machine
end

