-- ==== Sys2Proof/WellFormed.lean ====
section
/-! DEFINITION. Which requests and commands are well formed: the shape a link's length check or a sensor's own nature
gives them (R1, R27, R74, R164, section 11.3). Values out of range are not ill formed: their owning rules answer them. -/

namespace Sys2Proof

/-- A MAP WRITE body of a class other than 0 or 1 has one of the two admissible lengths (section 11.3). -/
def MapBody.WellFormed : MapBody → Bool
  | .key .. => true
  | .pedal .. => true
  | .other bs => (bs.length == 38 || bs.length == 10) && byteAt bs 0 != 0 && byteAt bs 0 != 1

/-- A record list of APPEND or LAYER FEED holds 1 to 30 records (R27, R74). -/
def recordsWellFormed (rs : List Record) : Bool := 1 ≤ rs.length && rs.length ≤ 30

/-- The requests whose body a link hands on (R166). -/
def Request.WellFormed : Request → Bool
  | .append _ rs => recordsWellFormed rs
  | .layerFeed _ rs => recordsWellFormed rs
  | .mapWrite b => b.WellFormed
  | _ => true

/-- A key sample reads every key once (R1). -/
def readingsWellFormed (rs : List (Key × KeyPos)) : Bool :=
  rs.length == 88 && (List.finRange 88).all fun k => (rs.map Prod.fst).contains k

/-- The request that a request row takes from a link's slot, with the link (section 10.3); none for an event. -/
def Instr.request? : Instr → Option (Link × Request)
  | .captureStart l _ => some (l, .captureStart)
  | .captureStop l => some (l, .captureStop)
  | .captureSet l release repetition down deadband => some (l, .captureSet release repetition down deadband)
  | .takeOpen l => some (l, .takeOpen)
  | .append l take records => some (l, .append take records)
  | .close l take endTime => some (l, .close take endTime)
  | .read l take start count => some (l, .read take start count)
  | .info l take => some (l, .info take)
  | .erase l take => some (l, .erase take)
  | .clockRun l _ _ => some (l, .clockRun)
  | .clockPause l => some (l, .clockPause)
  | .clockStop l => some (l, .clockStop)
  | .clockLocate l position => some (l, .clockLocate position)
  | .clockSource l source length => some (l, .clockSource source length)
  | .mapRead l cls number => some (l, .mapRead cls number)
  | .mapWrite l body => some (l, .mapWrite body)
  | .mapClear l => some (l, .mapClear)
  | .mapAccept l => some (l, .mapAccept)
  | .layerBind l layer source take => some (l, .layerBind layer source take)
  | .layerMarks l layer low high => some (l, .layerMarks layer low high)
  | .layerFeed l layer records => some (l, .layerFeed layer records)
  | .layerSet l layer settings => some (l, .layerSet layer settings)
  | .layerCue l layer cueKind cueValue entryKind entryTick => some (l, .layerCue layer cueKind cueValue entryKind entryTick)
  | .layerFree l layer => some (l, .layerFree layer)
  | .layerInfo l layer => some (l, .layerInfo layer)
  | .dropsRead l => some (l, .dropsRead)
  | .planSet l late rise => some (l, .planSet late rise)
  | .allOff l => some (l, .allOff)
  | .keysClear l keys => some (l, .keysClear keys)
  | .quietEnter l => some (l, .quietEnter)
  | .quietLeave l => some (l, .quietLeave)
  | .driveSet l slots vnom sagPercent => some (l, .driveSet slots vnom sagPercent)
  | .driveInfo l first count => some (l, .driveInfo first count)
  | .calRun l kind keys stopOnFault velocity repeats => some (l, .calRun kind keys stopOnFault velocity repeats)
  | .calStop l => some (l, .calStop)
  | .status l => some (l, .status)
  | .noticeClear l flags => some (l, .noticeClear flags)
  | .noticeMask l mask => some (l, .noticeMask mask)
  | .partReset l => some (l, .partReset)
  | .powerOnReset | .keySample _ | .gate1Event _ _ | .gate2Event _ _ | .windowExpiry _ | .clockAdvance _ _
  | .servicePeriod | .integrityCheck | .supplyReading _ | .syncPulse | .lossIntervalExpiry | .strikeGraceExpiry _
  | .reboundEnd _ | .letGoExpiry _ | .wakeExpiry | .pulseRequest | .pulseFire | .pulseGraceExpiry _ | .restDeadline
  | .requestTransaction _ _ _ | .transactionDiscarded _ _ | .fetch _ _ | .resetLineLow
  | .fetchSelectInactive _ _ => none

/-- The well-formed commands. -/
def Instr.WellFormed : Instr → Bool
  | .keySample rs => readingsWellFormed rs
  | .append _ _ rs => recordsWellFormed rs
  | .layerFeed _ _ rs => recordsWellFormed rs
  | .mapWrite _ b => b.WellFormed
  | .transactionDiscarded _ bs => (completeRequest bs).isNone
  | _ => true

end Sys2Proof
end

