-- ==== Sys2Proof/Safety.lean ====
section
/-! DEFINITION. The terms in which claims about the part are made: what a reply does to a link, the request catalogue as
section 11.3 lists it, and the properties of a state that the manual says always hold. -/

namespace Sys2Proof

/-- The request kinds of section 11.3 whose body has one length, with that length. -/
def fixedLengths : List (Byte × Nat) :=
  [(0x01, 0), (0x02, 0), (0x03, 7), (0x10, 0), (0x12, 5), (0x13, 6), (0x14, 1), (0x15, 1), (0x20, 0), (0x21, 0), (0x22, 0),
    (0x23, 4), (0x24, 3), (0x30, 2), (0x32, 0), (0x33, 0)] ++
  [(0x40, 3), (0x41, 3), (0x43, 10), (0x44, 11), (0x45, 1), (0x46, 1), (0x58, 0), (0x59, 4), (0x5A, 0), (0x60, 11), (0x61, 0),
    (0x62, 0), (0x63, 4), (0x64, 2), (0x70, 16), (0x71, 0), (0x7C, 0), (0x7D, 2), (0x7E, 2), (0x7F, 0)]

/-- The request kinds whose length depends on their body: APPEND, LAYER FEED, MAP WRITE. -/
def varyingKinds : List Byte := [0x11, 0x42, 0x31]

/-- A kind byte names a request of the catalogue (R166). -/
def kindKnown (kind : Byte) : Prop := kind ∈ fixedLengths.map Prod.fst ∨ kind ∈ varyingKinds

/-- A body has a length section 11.3 admits for its kind (R166). -/
def lengthAdmitted (kind : Byte) (body : List Byte) : Prop :=
  (kind, body.length) ∈ fixedLengths ∨
    (kind = 0x11 ∨ kind = 0x42) ∧ (∃ n, 1 ≤ n ∧ n ≤ 30 ∧ body.length = 1 + 8 * n) ∨
    kind = 0x31 ∧
      (body.length = 38 ∧ byteAt body 0 ≠ 1 ∨ body.length = 10 ∧ byteAt body 0 ≠ 0)

end Sys2Proof

namespace Sys2Proof.Machine

/-! ### Replies -/

/-- The state with the reply to a request placed in its link's slot and REPLY raised (R167). -/
def State.replied (s : State) (l : Link) (q : Request) (st : Status) (body : List Byte) : State :=
  s.setLink l ((s.link l).place { status := st, kind := q.kind, body := body })

/-- The state with a link's record changed. -/
def State.mapLink (s : State) (l : Link) (f : LinkRec → LinkRec) : State := s.setLink l (f (s.link l))

/-! ### Configuration values -/

/-- The thresholds and the deadband of the capture unit stand in their ranges and their order (R2, R20). -/
def Capture.InRange (c : Capture) : Prop :=
  50 ≤ c.release ∧ c.release ≤ 900 ∧ 60 ≤ c.repetition ∧ c.repetition ≤ 950 ∧ 70 ≤ c.down ∧ c.down ≤ 1000 ∧
    c.release < c.repetition ∧ c.repetition < c.down ∧ 1 ≤ c.deadband ∧ c.deadband ≤ 32

/-- A set of layer settings stands in the ranges of section 5.4. -/
def Settings.InRange (st : Settings) : Prop :=
  st.winLow ≤ st.winHigh ∧ st.winHigh ≤ 87 ∧ -12 ≤ st.transpose ∧ st.transpose ≤ 12 ∧ st.scale ≤ 32 ∧
    -128 ≤ st.velOffset ∧ st.velOffset ≤ 127 ∧ -32768 ≤ st.timeOffset ∧ st.timeOffset ≤ 32767 ∧ st.priority ≤ 7

/-- A layer's marks, ring and settings stand in their ranges (R72, R73, section 5.4). -/
def Layer.InRange (l : Layer) : Prop :=
  16 ≤ l.low ∧ l.low ≤ 240 ∧ 17 ≤ l.high ∧ l.high ≤ 255 ∧ l.low < l.high ∧ l.ring.length ≤ Config.ringPlaces ∧
    l.latched.InRange ∧ ∀ st, l.staged = some st → st.InRange

/-- The configuration values of every block stand in their ranges (R20, R47, R73, R122, R124, R147). -/
def ControlsInRange (s : State) : Prop :=
  s.cap.InRange ∧ s.layer0.InRange ∧ s.layer1.InRange ∧
    s.sched.late ≤ 200 ∧ 200 ≤ s.sched.rise ∧ s.sched.rise ≤ 2000 ∧ s.sched.drops.length ≤ Config.dropPlaces ∧
    4 ≤ s.drive.slots ∧ s.drive.slots ≤ 16 ∧ 100 ≤ s.drive.vnom ∧ s.drive.vnom ≤ 1000 ∧
    60 ≤ s.drive.sagPercent ∧ s.drive.sagPercent ≤ 95 ∧
    100 ≤ s.clk.syncLength ∧ s.clk.syncLength ≤ 8000 ∧ -8 ≤ s.clk.owed ∧ s.clk.owed ≤ 8

/-! ### The clock and the plan -/

/-- The position stands in its range, and only a STOPPED clock stands at the limit (R40, R46). -/
def ClockInRange (s : State) : Prop :=
  s.clk.position ≤ Config.clockLimit ∧ (s.clk.state ≠ .stopped → s.clk.position < Config.clockLimit)

/-- The plan holds at most 128 actions in rising due tick, and none while the clock is STOPPED (R107). -/
def PlanSound (s : State) : Prop :=
  s.sched.plan.length ≤ Config.planPlaces ∧ s.sched.plan.Pairwise (fun a b => a.due ≤ b.due) ∧
    (s.clk.state = .stopped → s.sched.plan = [])

/-- Every action of the plan has a serial number of its own, below the next one (the model's own, notes/assumptions/11). -/
def SerialsSound (s : State) : Prop :=
  s.planSerials.Nodup ∧ ∀ a ∈ s.sched.plan, a.serial < s.sched.nextSerial

/-- A pedal demand of a layer, or a PEDAL action of it in the plan, stands only while the layer is CUED or PLAYING (R70). -/
def DemandsOnlyInReplay (s : State) : Prop :=
  ∀ y, (∃ p, (bankGet (s.layer y).demands p).isSome) ∨ (∃ a ∈ s.sched.plan, a.layer = y ∧ ∃ p v, a.body = .pedal p v) →
    (s.layer y).state = .cued ∨ (s.layer y).state = .playing

/-- The scheduler has nothing it could process: no strike waits for a slot, and the clock is not RUNNING or the plan and both
rings are empty. What a report or a taking adds to an event is then nothing. -/
def NothingToSchedule (s : State) : Prop :=
  s.drive.queue = [] ∧ (s.clk.state ≠ .running ∨ s.sched.plan = [] ∧ ∀ y, (s.layer y).ring = [])

/-! ### The take store -/

/-- The record memory stands in its canonical form. -/
def MemoryCanonical (s : State) : Prop := Memory.wf s.store.mem = true

/-- Every block is in the free pool or in one take, the pool stands in ascending number, an OPEN take keeps the place of its
END, a CLOSED one holds it, and the capture take is OPEN with writer CAPTURE (R23, R26, R30, section 2.2). -/
def StoreSound (s : State) : Prop :=
  (s.store.pool ++ allTakes.flatMap fun t => (s.store.entry t).blocks).Perm (List.range 256) ∧
    s.store.pool.Pairwise (· < ·) ∧
    (∀ t, ((s.store.entry t).state = .free → (s.store.entry t).blocks = []) ∧
      ((s.store.entry t).state = .opened → (s.store.entry t).length < Config.blockRecords * (s.store.entry t).blocks.length) ∧
      ((s.store.entry t).state = .closed →
        1 ≤ (s.store.entry t).length ∧ (s.store.entry t).length ≤ Config.blockRecords * (s.store.entry t).blocks.length)) ∧
    ∀ t, s.cap.target = some t → (s.store.entry t).state = .opened ∧ (s.store.entry t).writer = some .capture

/-- The capture unit has a target exactly while it is not IDLE, its origin is fixed while it is RECORDING, and none stands while
it is IDLE (R16, R17, R18). -/
def CaptureSound (s : State) : Prop :=
  (s.cap.target = none ↔ s.cap.state = .idle) ∧ (s.cap.state = .recording → s.cap.origin.isSome) ∧
    (s.cap.state = .idle → s.cap.origin = none)

/-- Every take's bound-layer count is the number of layers whose source it is, only CLOSED takes are bound, and a layer has a
source exactly when it is not FREE (R33, section 5.1). -/
def BindingsAgree (s : State) : Prop :=
  (∀ t, (s.store.entry t).bound =
      (if s.layer0.source = some (.take t) then 1 else 0) + (if s.layer1.source = some (.take t) then 1 else 0)) ∧
    (∀ t, (s.store.entry t).bound ≠ 0 → (s.store.entry t).state = .closed) ∧
    ∀ y, (s.layer y).source = none ↔ (s.layer y).state = .free

/-- An OPEN take's entry has room for one more record before its END, or the pool has a block (R26). -/
def Store.HasRoom (st : Store) (t : TakeNo) : Prop :=
  (st.entry t).length + 1 < Config.blockRecords * (st.entry t).blocks.length ∨ st.pool ≠ []

/-- The bytes of record memory at and after an address, 8 of them, are the only ones two memories differ in. -/
def SameOutside (m m' : List Host.Cell) (a : Nat) : Prop :=
  ∀ c, c < a ∨ a + 8 ≤ c → memRead m' c = memRead m c

/-- `st'` is `st` with record `r` written at the end of take `t`: the length grows by one, the last time is the record's, a
block joins the list from the front of the pool exactly when the last place would be used, the record reads back, and every
other entry and every byte outside the record stands as before (R22, R26). -/
def Store.Appended (st : Store) (t : TakeNo) (r : Record) (st' : Store) : Prop :=
  let e := st.entry t
  let e' := st'.entry t
  e' = { e with length := e.length + 1, lastTime := r.time.toNat, blocks := e'.blocks } ∧
    (e.length + 1 < Config.blockRecords * e.blocks.length ∧ e'.blocks = e.blocks ∧ st'.pool = st.pool ∨
      ¬ e.length + 1 < Config.blockRecords * e.blocks.length ∧
        ∃ b, st.pool = b :: st'.pool ∧ e'.blocks = e.blocks ++ [b]) ∧
    (∀ u, u ≠ t → st'.entry u = st.entry u) ∧
    st'.record t e.length = r ∧ SameOutside st.mem st'.mem (e'.recordAddr e.length)

/-- `st'` is `st` with take `t` closed by an END at the later of its last time and `time`, in the place just after its last
record; no block moves, the END reads back, and every other entry and byte stands as before (R30). -/
def Store.ClosedAt (st : Store) (t : TakeNo) (time : Nat) (st' : Store) : Prop :=
  let e := st.entry t
  let r := mkRecord kindEnd 0 0 (max e.lastTime time)
  st'.entry t = { e with state := .closed, writer := none, length := e.length + 1, lastTime := r.time.toNat } ∧
    st'.pool = st.pool ∧ (∀ u, u ≠ t → st'.entry u = st.entry u) ∧
    st'.record t e.length = r ∧ SameOutside st.mem st'.mem (e.recordAddr e.length)

/-! ### The map -/

/-- The check word is the sum of the storage (R57). -/
def CheckWordCurrent (s : State) : Prop := s.map.sum = s.map.check

/-- The words of a SET key entry that R53 holds to a range. -/
def KeyEntry.Sound (e : KeyEntry) : Prop :=
  e.isSet = true →
    e.sd.toNat < e.t.toNat ∧ e.t.toNat ≤ 4095 ∧ 8192 ≤ e.g.toNat ∧ e.g.toNat ≤ 32767 ∧
      (∀ i : Fin 9, e.knot i ≤ 4095) ∧ ∀ i j : Fin 9, i ≤ j → e.knot i ≤ e.knot j

/-- The words of a SET pedal entry that R55 holds to a range. -/
def PedalEntry.Sound (e : PedalEntry) : Prop :=
  e.isSet = true →
    e.rest.toNat ≤ e.full.toNat ∧ e.full.toNat ≤ 4095 ∧ e.lead.toNat ≤ 2000 ∧ 1 ≤ e.deadband.toNat ∧ e.deadband.toNat ≤ 32

/-- The levels of a running threshold search stand where R154 and R155 put them. -/
def RunController.LevelsSound (r : RunController) : Prop :=
  r.state = .running → r.kind = .threshold →
    r.level ≤ 4095 ∧ (r.phase = .first → r.level ≤ 3967) ∧ (∀ c, r.coarse = some c → 4 ≤ c ∧ c ≤ 4095) ∧
      (r.phase = .down ∨ r.phase = .fine → r.coarse.isSome)

/-- Every SET entry stands in range, and a running search is where it can only write such an entry (R53, R55, R64). -/
def MapInRange (s : State) : Prop :=
  (∀ k, (bankGet s.map.keys k).Sound) ∧ (∀ p, (bankGet s.map.pedals p).Sound) ∧ s.run.LevelsSound

/-! ### The drive unit -/

/-- Every key's owner and fire in flight agree with its drive state, and its heat stands in range (R129, R104, R105). -/
def DriveKeysSound (s : State) : Prop :=
  ∀ k, ((s.driveKey k).owner.isSome ↔ (s.driveKey k).state.holdsKey = true) ∧
    ((s.driveKey k).state = .strike → (s.driveKey k).fire.isSome) ∧
    ((s.driveKey k).state = .rest → (s.driveKey k).fire = none) ∧ (s.driveKey k).heat ≤ 65535

/-- `r` is pedal `p`'s drive record once the drive unit has judged merged demand `m` from state `s`, with the drive in `power`:
no demand, nothing applied; a new drive where none was applied, at 0 and 255, and from the entry's deadband on; else the output
held. In QUIET and WAKING the demand alone is kept (R146, R103; the stand-in deadband 1 is R55's). -/
def PedalFollows (s : State) (power : Power) (p : Pedal) (m : Option Nat) (r : PedalDrive) : Prop :=
  let d := bankGet s.drive.pedals p
  let e := bankGet s.map.pedals p
  let deadband := if e.state = 1 then e.deadband.toNat else 1
  (power = .quiet ∨ power = .waking → r = { merged := m, applied := none, output := 0 }) ∧
    (power = .active ∨ power = .quietPending →
      (m = none → r = { merged := none, applied := none, output := 0 }) ∧
      ∀ n, m = some n →
        let afresh := ∀ a, d.applied = some a → n = 0 ∨ n = 255 ∨ a + deadband ≤ n ∨ n + deadband ≤ a
        (afresh → r = { merged := some n, applied := some n, output := s.drive.applied (pedalDrive e n) }) ∧
        (¬ afresh → r = { d with merged := some n }))

/-- The slot count stands in its range and no more than 16 keys are in STRIKE or PROBE (R132). -/
def SlotsBounded (s : State) : Prop := s.drive.slots ≤ 16 ∧ s.slotsHeld ≤ 16

end Sys2Proof.Machine
end

