-- ==== Sys2Proof/Certificates/Slice0/Obligations.lean ====
section
/-! DEFINITION. The statements for the provers. -/

open Sys2Proof Sys2Proof.Machine

/-! ### The queue, the links, the resets -/

/-- A step carries out the command at the front of the queue on the part with the queue's rest; with no command waiting, one
microsecond of the wall timer passes and nothing else (the queue and the idle microsecond are the model's:
notes/assumptions/2). -/
def Obligations.StepTakesFrontCommand : Prop :=
  (∀ (c : Instr) (rest : List Instr) (s : State), step (s.withPending (c :: rest)) = exec c (s.withPending rest)) ∧
  ∀ s : State, s.pending = [] → step s = .next { s with wall := { s.wall with now := s.wall.now + 1 } }

/-- Decode and encode agree both ways: a link's check of a well-formed request's own kind and body gives that request, and the
kind and body a request was read from are its own, so no byte of a body is dropped and none is read in two ways
(section 11.3). -/
def Obligations.DecodeAndEncodeAgree : Prop :=
  (∀ q : Request, q.WellFormed = true → decodeRequest q.kind q.body = .request q) ∧
  ∀ (kind : Byte) (body : List Byte) (q : Request), decodeRequest kind body = .request q →
    q.kind = kind ∧ q.body = body ∧ q.WellFormed = true

/-- A kind outside the catalogue is BADKIND; a known kind with a length section 11.3 does not admit is BADLEN; with a length
it admits the request is handed on (R166, section 11.3). -/
def Obligations.LinkCheckOfKindAndLength : Prop :=
  ∀ (kind : Byte) (body : List Byte),
    (¬ kindKnown kind → decodeRequest kind body = .badKind) ∧
    (kindKnown kind → ¬ lengthAdmitted kind body → decodeRequest kind body = .badLen) ∧
    (kindKnown kind → lengthAdmitted kind body → ∃ q, decodeRequest kind body = .request q ∧ q.kind = kind)

/-- REQUEST_TRANSACTION of a well-formed request, with any bytes after it, on a link in IDLE or REPLY: the request stands in
the slot, the link is SERVING, a waiting reply is gone, the notices are as they were, and nothing else changes but the model's
own mark of a PART RESET (notes/assumptions/24); data-out is low while it is received (R164, R165). -/
def Obligations.RequestTransactionEntersTheSlot : Prop :=
  ∀ (l : Link) (q : Request) (ignored : List Byte) (s : State), q.WellFormed = true → s.resetLow = false →
    (∀ p, (s.link l).slots ≠ .serving p) →
    exec (.requestTransaction l (q.transaction ++ ignored) false) s =
      .next (s.setLink l
        { slots := .serving q, notices := (s.link l).notices, mask := (s.link l).mask
          fetch := (s.link l).fetch.map fun f => { f with holds := false }, resetDue := none }) ∧
    s.dataOutReceiving (q.transaction ++ ignored) false = some .low

/-- REQUEST_TRANSACTION with a kind or a length the link refuses, in IDLE or REPLY: an empty reply BADKIND or BADLEN with
the kind byte sent is placed at once and REPLY is raised; SERVING is not entered and nothing else changes (R166) but the
model's own mark of a PART RESET (notes/assumptions/24). -/
def Obligations.RequestTransactionRefusedByTheLink : Prop :=
  ∀ (l : Link) (kind : Byte) (body : List Byte) (s : State), body.length ≤ 255 → s.resetLow = false →
    (∀ p, (s.link l).slots ≠ .serving p) → ¬ (kindKnown kind ∧ lengthAdmitted kind body) →
    ∃ st, ((¬ kindKnown kind ∧ st = .badKind) ∨ (kindKnown kind ∧ st = .badLen)) ∧
      exec (.requestTransaction l ([0x51, kind, BitVec.ofNat 8 body.length] ++ body) false) s =
        .next (s.setLink l
          { slots := .reply { status := st, kind := kind, body := [] }
            notices := (s.link l).notices ||| 1#16, mask := (s.link l).mask
            fetch := (s.link l).fetch.map fun f => { f with holds := false }, resetDue := none })

/-- REQUEST_TRANSACTION on a link in SERVING: a complete request, whatever its kind, sets BUSY and changes nothing else; a
transaction that is not a complete request changes nothing on any link, and TRANSACTION_DISCARDED is such a one
(R164, R165). -/
def Obligations.BusyAndDiscardedTransactions : Prop :=
  (∀ (l : Link) (kind : Byte) (body ignored : List Byte) (p : Request) (s : State), body.length ≤ 255 →
    s.resetLow = false → (s.link l).slots = .serving p →
    exec (.requestTransaction l ([0x51, kind, BitVec.ofNat 8 body.length] ++ body ++ ignored) false) s =
      .next (s.setLink l { (s.link l) with notices := (s.link l).notices ||| 2#16 })) ∧
  ∀ (l : Link) (bytes : List Byte) (duringReset : Bool) (s : State),
    (∀ kind len body, bytes = 0x51 :: kind :: len :: body → body.length < len.toNat) →
    exec (.transactionDiscarded l bytes) s = .next s ∧ exec (.requestTransaction l bytes duringReset) s = .next s

/-- FETCH: the bytes shifted out are the waiting reply, NOTREADY, or NONE, and nothing but the fetch under way changes.
FETCH_SELECT_INACTIVE: after the whole of a reply that the slot still holds, the slot is empty, REPLY is cleared and the link
is IDLE; in every other case only the fetch is over (R168). Data-out carries those bytes while the fetch is under way, and is
high-impedance once select is inactive (section 10.8). -/
def Obligations.FetchShiftsOutWhatItFinds : Prop :=
  (∀ (l : Link) (s : State), s.resetLow = false →
      (∀ p, (s.link l).slots = .reply p → exec (.fetch l false) s =
        .next (s.setLink l { (s.link l) with
          fetch := some (Fetch.mk ([BitVec.ofNat 8 p.status.code, p.kind, BitVec.ofNat 8 p.body.length] ++ p.body) true) })) ∧
      (∀ q, (s.link l).slots = .serving q → exec (.fetch l false) s =
        .next (s.setLink l { (s.link l) with fetch := some (Fetch.mk [14, 0, 0] false) })) ∧
      ((s.link l).slots = .idle → exec (.fetch l false) s =
        .next (s.setLink l { (s.link l) with fetch := some (Fetch.mk [15, 0, 0] false) }))) ∧
  (∀ (l : Link) (f : Fetch) (shifted : Nat) (s : State), s.resetLow = false → (s.link l).fetch = some f →
    (f.holds = true ∧ f.out.length ≤ shifted → exec (.fetchSelectInactive l shifted) s =
      .next (s.setLink l
        { (s.link l) with slots := .idle, notices := (s.link l).notices &&& 0xFFFE#16, fetch := none })) ∧
    (¬ (f.holds = true ∧ f.out.length ≤ shifted) → exec (.fetchSelectInactive l shifted) s =
      .next (s.setLink l { (s.link l) with fetch := none }))) ∧
  ∀ (l : Link) (shifted : Nat) (s t : State), s.resetLow = false →
    (exec (.fetch l false) s = .next t → ∃ f, (t.link l).fetch = some f ∧ t.dataOut l = .shifting f.out) ∧
    (exec (.fetchSelectInactive l shifted) s = .next t → t.dataOut l = .highZ)

/-- RESET_LINE_LOW holds the line low; while it is low no transaction does anything, data-out is high-impedance and no attention
is asserted; a transaction begun while it was low does nothing afterwards either (R174). That RESET_LINE_LOW changes nothing
but the line's mark, and that an operand tells of a transaction begun while the line was low, are the model's choices of
notes/assumptions/9. -/
def Obligations.ResetLineLowSilencesTheLinks : Prop :=
  (∀ s : State, exec .resetLineLow s = .next { s with resetLow := true }) ∧
  (∀ (s : State) (l : Link) (bytes : List Byte) (d : Bool) (n : Nat), s.resetLow = true →
    exec (.requestTransaction l bytes d) s = .next s ∧ exec (.fetch l d) s = .next s ∧
      exec (.fetchSelectInactive l n) s = .next s ∧ s.attention l = false ∧
      s.dataOut l = .highZ ∧ s.dataOutReceiving bytes d = some .highZ) ∧
  ∀ (s : State) (l : Link) (bytes : List Byte),
    exec (.requestTransaction l bytes true) s = .next s ∧ exec (.fetch l true) s = .next s

/-- POWER_ON_RESET leaves every block at its power-on state; the waiting commands wait on (the queue is the model's own,
notes/assumptions/2), record memory keeps its bytes, which no entry addresses, and the command acts in every state
(notes/assumptions/9), and values no rule gives are the model's (notes/assumptions/10). The values listed one by one are those
the manual gives for the end of a power-on reset (R2, R4, R21, R36, R51, R68, R90, R128, R149, R163, R174), but for the two
thresholds kept with each key (notes/assumptions/30). -/
def Obligations.PowerOnResetSetsEveryBlock : Prop :=
  (∀ s : State, exec .powerOnReset s =
    .next { State.reset with pending := s.pending, store := { State.reset.store with mem := s.store.mem } }) ∧
  let r := State.reset
  (∀ l, (r.link l).slots = .idle ∧ (r.link l).notices = 0x0004 ∧ (r.link l).mask = 0xFFFF ∧ r.attention l = true ∧
    r.dataOut l = .highZ) ∧
  r.cause = .power ∧
  (r.cap.state = .idle ∧ r.cap.target = none ∧ r.cap.origin = none ∧ r.cap.release = 400 ∧ r.cap.repetition = 500 ∧
    r.cap.down = 600 ∧ r.cap.deadband = 4) ∧
  (∀ k, r.capKey k = { state := .up, gate1At := none, lastPos := 0, held := false, releaseAt := 400 }) ∧
  (∀ t, r.store.entry t =
    { state := .free, writer := none, length := 0, lastTime := 0, blocks := [], bound := 0, origin := none }) ∧
  r.store.pool = List.range 256 ∧
  (r.clk.state = .stopped ∧ r.clk.position = 0 ∧ r.clk.source = .internal ∧ r.clk.syncLength = 2000 ∧
    r.clk.tracking = .tracking ∧ r.clk.owed = 0) ∧
  (∀ k, ∀ w ∈ (bankGet r.map.keys k).words, w = 0) ∧ (∀ p, ∀ w ∈ (bankGet r.map.pedals p).words, w = 0) ∧
  (r.map.check = 0 ∧ r.map.integrity = .good ∧ r.map.count = 0) ∧
  (∀ y, (r.layer y).state = .free ∧ (r.layer y).source = none ∧ (r.layer y).ring = [] ∧ (r.layer y).low = 64 ∧
    (r.layer y).high = 192 ∧ (r.layer y).cue = none ∧ (r.layer y).origin = none ∧ (r.layer y).staged = none ∧
    (r.layer y).latched.scale = 16 ∧ (r.layer y).latched.winHigh = 87 ∧ (r.layer y).highArmed = true ∧
    (r.layer y).lowArmed = true ∧ ∀ p, bankGet (r.layer y).demands p = none) ∧
  (r.sched.plan = [] ∧ r.sched.drops = [] ∧ r.sched.late = 40 ∧ r.sched.rise = 600 ∧
    ∀ k, bankGet r.sched.memory k = none) ∧
  (r.drive.power = .quiet ∧ r.drive.sag = false ∧ r.drive.vmeas = 0 ∧ r.drive.slots = 12 ∧ r.drive.vnom = 480 ∧
    r.drive.sagPercent = 80 ∧ r.drive.queue = [] ∧ r.drive.pulse = none) ∧
  (∀ k, (r.driveKey k).state = .rest ∧ (r.driveKey k).owner = none ∧ (r.driveKey k).lastPos = 0 ∧
    (r.driveKey k).repetitionAt = 500 ∧ (r.driveKey k).lastFire = none ∧ (r.driveKey k).fire = none ∧ (r.driveKey k).heat = 0 ∧
    (r.driveKey k).warm = false ∧ (r.driveKey k).hot = false) ∧
  (r.run.state = .idle ∧ r.run.keys = 0 ∧ r.run.current = none ∧ r.run.wait = .none ∧ r.run.lastFire = none ∧
    r.run.failed = false ∧ r.run.stopOnFault = false ∧ r.run.velocity = 400 ∧ r.run.repeats = 4)

/-- PART RESET, in every state of every block: what the soft reset sets and what it keeps, with the reply to the sending link.
An open capture take is closed first, an active run ends with its current key ABORTED where it was RUNNING (R173 with R21,
R37, R51, R69, R90, R128, R149, R163). Of two taken at one instant, one on each link, each performs a full soft reset: the
second discards the first's reply and names its own link; a request in service on the other link is otherwise not carried out
(R173; notes/assumptions/4 and 24 are the model's choices). -/
def Obligations.PartResetSetsAndKeeps : Prop :=
  (∀ (l : Link) (s : State),
    (s.link l).slots = .serving .partReset ∨ (s.link l).slots = .idle ∧ (s.link l).resetDue = some s.now →
    ∃ t, exec (.partReset l) s = .next t ∧
      (t.link l).slots = .reply { status := .ok, kind := 0x7F, body := [if l = .a then 1 else 2] } ∧
      (t.link l.other).slots = .idle ∧ t.noticed l .reply = true ∧
      (∀ m, (t.link m).mask = (s.link m).mask ∧ t.noticed m .resetDone = true ∧
        (t.link m).fetch = (s.link m).fetch.map fun f => { f with holds := false }) ∧
      (t.link l).resetDue = none ∧
      (t.link l.other).resetDue = (if (s.link l.other).slots = .serving .partReset then some s.now else none) ∧
      (∀ i, i ≠ 2 → (t.link l.other).notices.getLsbD i = (s.link l.other).notices.getLsbD i) ∧
      (∀ i, i ≠ 2 → i ≠ 0 → (t.link l).notices.getLsbD i = (s.link l).notices.getLsbD i) ∧
      t.cause = (if l = .a then .linkA else .linkB) ∧ t.resetLow = s.resetLow ∧ t.pending = s.pending ∧
      t.clk.state = .stopped ∧ t.clk.position = 0 ∧ t.clk.owed = 0 ∧ t.clk.tracking = .tracking ∧
      t.clk.source = s.clk.source ∧ t.clk.syncLength = s.clk.syncLength ∧ t.clk.lastPulse = s.now ∧
      t.layer0 = Layer.reset ∧ t.layer1 = Layer.reset ∧
      t.sched.plan = [] ∧ t.sched.drops = [] ∧ (∀ k, bankGet t.sched.memory k = none) ∧
      t.sched.late = s.sched.late ∧ t.sched.rise = s.sched.rise ∧
      (∃ st' : Store, t.store.mem = st'.mem ∧ t.store.pool = st'.pool ∧
        (∀ n, t.store.entry n = { (st'.entry n) with bound := 0 }) ∧ (s.cap.state = .idle → st' = s.store) ∧
        ∀ n, s.cap.state ≠ .idle → s.cap.target = some n → MemoryCanonical s →
          match s.cap.origin with
          | some o => s.store.ClosedAt n (s.clk.position - o) st'
          | none => (s.store.setOrigin n s.clk.position).ClosedAt n 0 st') ∧
      t.cap = { s.cap with
        state := .idle, target := none, origin := none
        keys := bankMap (fun _ c => { c with state := .up, gate1At := none, held := false }) s.cap.keys
        pedals := bankMap (fun _ p => { p with firstFrame := true }) s.cap.pedals } ∧
      t.wall = s.wall ∧
      (s.run.state = .idle → t.map = s.map ∧ t.run = s.run) ∧
      (s.run.state ≠ .idle → t.run =
        { s.run with state := .idle, keys := 0, current := none, copy := none, wait := .none, failed := false }) ∧
      (s.run.state ≠ .running ∨ s.run.current = none → t.map = s.map) ∧
      (∀ k, s.run.state = .running → s.run.current = some k →
        t.map = { s.map with
          keys := bankSet s.map.keys k { (bankGet s.map.keys k) with result := 6 }, check := t.map.check } ∧
        t.map.sum - t.map.check = s.map.sum - s.map.check) ∧
      t.drive.power = s.drive.power ∧ t.drive.wakeAt = s.drive.wakeAt ∧ t.drive.sag = s.drive.sag ∧
      t.drive.vmeas = s.drive.vmeas ∧ t.drive.vnom = s.drive.vnom ∧ t.drive.sagPercent = s.drive.sagPercent ∧
      t.drive.slots = s.drive.slots ∧ t.drive.queue = [] ∧ t.drive.pulse = none ∧
      (∀ k, t.driveKey k =
        (if (s.driveKey k).state = .rest ∨ (s.driveKey k).state = .letgo then
          { (s.driveKey k) with fire := none, lastFire := none }
        else
          { (s.driveKey k) with
            state := .letgo, owner := none, fire := none, lastFire := none, sustainDemand := none, reboundGap := none
            sustain := none, reboundEnd := none, letGoAt := some (s.now + 1000000) })) ∧
      ∀ p, bankGet t.drive.pedals p = { merged := none, applied := none, output := 0 }) ∧
  ∀ (l : Link) (s t : State), (∀ m, (s.link m).slots = .serving .partReset) → exec (.partReset l) s = .next t →
    (∃ u, exec (.partReset l.other) t = .next u ∧
      (u.link l.other).slots = .reply { status := .ok, kind := 0x7F, body := [if l = .a then 2 else 1] } ∧
      (u.link l).slots = .idle ∧ u.noticed l .reply = true ∧ u.cause = (if l = .a then .linkB else .linkA)) ∧
    ∀ n, n ≠ s.now →
      let later : State := { t with wall := { t.wall with now := n } }
      exec (.partReset l.other) later = .next later

/-- Every request row whose request stands in the slot places one reply of that request's kind there and raises REPLY; but
for PART RESET it leaves the other link's slots, mask and fetch as they were (R167, section 10). Where its request does not
stand there it does nothing (the model's choice, notes/assumptions/4), but for a PART RESET that the other link's of the same
instant discarded from there (R173). -/
def Obligations.TakenRequestIsAnsweredOnItsOwnLink : Prop :=
  (∀ (i : Instr) (l : Link) (q : Request) (s : State), i.request? = some (l, q) → (s.link l).slots = .serving q →
      ∃ t st body, exec i s = .next t ∧ (t.link l).slots = .reply { status := st, kind := q.kind, body := body } ∧
        t.noticed l .reply = true ∧ (t.link l).mask = (if let .noticeMask m := q then m else (s.link l).mask) ∧
        (q ≠ .partReset → (t.link l.other).slots = (s.link l.other).slots ∧
          (t.link l.other).mask = (s.link l.other).mask ∧ (t.link l.other).fetch = (s.link l.other).fetch)) ∧
  ∀ (i : Instr) (l : Link) (q : Request) (s : State), i.request? = some (l, q) → (s.link l).slots ≠ .serving q →
    (q = .partReset → ¬ ((s.link l).slots = .idle ∧ (s.link l).resetDue = some s.now)) → exec i s = .next s

/-- NOTICE CLEAR clears the named flags of the sending link's set and replies the set after the clear; NOTICE MASK replaces
the mask and replies it with the set; nothing else changes but the reply placed (R171, R167). -/
def Obligations.NoticeClearAndMask : Prop :=
  ∀ (l : Link) (w : Word16) (s : State),
    ((s.link l).slots = .serving (.noticeClear w) → exec (.noticeClear l w) s =
      .next ((s.setLink l { (s.link l) with notices := (s.link l).notices &&& ~~~w }).replied l (.noticeClear w) .ok
        (bytes16 ((s.link l).notices &&& ~~~w)))) ∧
    ((s.link l).slots = .serving (.noticeMask w) → exec (.noticeMask l w) s =
      .next ((s.setLink l { (s.link l) with mask := w }).replied l (.noticeMask w) .ok
        (bytes16 w ++ bytes16 (s.link l).notices)))

/-- STATUS changes nothing but the sending link's slots and REPLY, and its 17 bytes are the items of section 11.5 as they
stand before the reply is placed (R172). -/
def Obligations.StatusReportsThePart : Prop :=
  ∀ (l : Link) (s : State), (s.link l).slots = .serving .status →
    ∃ body, exec (.status l) s = .next (s.replied l .status .ok body) ∧ body.length = 17 ∧
      body = [BitVec.ofNat 8 s.clk.state.code] ++ bytes32 (BitVec.ofNat 32 s.clk.position) ++
        [BitVec.ofNat 8 s.layer0.state.code, BitVec.ofNat 8 s.layer1.state.code, BitVec.ofNat 8 s.cap.state.code,
          (match s.cap.target with
            | some t => BitVec.ofNat 8 t.val
            | none => 255),
          BitVec.ofNat 8 s.drive.power.code, (if s.drive.sag then 1 else 0), BitVec.ofNat 8 s.map.integrity.code,
          BitVec.ofNat 8 s.run.state.code,
          (match s.run.current with
            | some k => BitVec.ofNat 8 k.val
            | none => 255),
          BitVec.ofNat 8 s.cause.code] ++ bytes16 (s.link l).notices

/-- A link's attention is asserted exactly while its reply slot is full, an enabled flag of its set is set, or MAP_FAULT is
set in it, whatever the mask holds there; never while RESET is low (R170, R174). -/
def Obligations.AttentionFollowsSlotSetAndMask : Prop :=
  ∀ (l : Link) (s : State), s.attention l = true ↔
    s.resetLow = false ∧
      ((∃ p, (s.link l).slots = .reply p) ∨
        (∃ i, i < 16 ∧ (s.link l).notices.getLsbD i = true ∧ (s.link l).mask.getLsbD i = true) ∨
        (s.link l).notices.getLsbD 10 = true)

/-- No step clears a flag of a link's notice set but NOTICE CLEAR of that link naming it, for REPLY the end of a fetch on that
link which still holds the reply it found and has shifted the whole of it out, and a power-on reset (R168, R169, R174). -/
def Obligations.NoticesFallOnlyByTheirOwnLink : Prop :=
  ∀ (s t : State) (l : Link) (i : Nat), step s = .next t → (s.link l).notices.getLsbD i = true →
    (t.link l).notices.getLsbD i = false →
    ∃ c rest, s.pending = c :: rest ∧
      ((∃ w, c = .noticeClear l w ∧ w.getLsbD i = true) ∨
        (i = 0 ∧ ∃ n f, c = .fetchSelectInactive l n ∧ (s.link l).fetch = some f ∧ f.holds = true ∧ f.out.length ≤ n) ∨
        c = .powerOnReset)

/-! ### Keys, pedals and capture -/

/-- GATE1_EVENT: toward the string a key the part is not driving enters GATE1 with the present instant, and a driven key
keeps its state; the window then ends 60,000 µs later. Passages away from the string change nothing at either gate
(R3, R5, R11). -/
def Obligations.GateOneStartsTheWindow : Prop :=
  ∀ (k : Key) (s : State),
    ((s.driveKey k).state = .rest → exec (.gate1Event k .toward) s =
      .next (s.setCapKey k
        { (s.capKey k) with state := .gate1, gate1At := some s.now })) ∧
    ((s.driveKey k).state ≠ .rest → exec (.gate1Event k .toward) s =
      .next (s.setCapKey k { (s.capKey k) with gate1At := some s.now })) ∧
    (∀ t, exec (.gate1Event k .toward) s = .next t → (t.capKey k).windowExpiry = some (s.now + 60000)) ∧
    exec (.gate1Event k .away) s = .next s ∧ exec (.gate2Event k .away) s = .next s

/-- GATE2_EVENT on a key the part is not driving: from GATE1 the key enters DOWN; while RECORDING with room one STRIKE with
the velocity of R7 at the present take time is appended and held is set, otherwise nothing is written and held stays; in UP
and DOWN the event is discarded. A STRIKE that finds no room is lost: the capture take is closed with an END at its time,
the unit is IDLE, and STORE_FULL is raised in both sets; held is set all the same, the model's choice of notes/assumptions/27
(R6, R7, R10, R19). -/
def Obligations.GateTwoCompletesAStrike : Prop :=
  (∀ (k : Key) (s : State), (s.driveKey k).state = .rest →
      (∀ g, (s.capKey k).state = .gate1 → (s.capKey k).gate1At = some g →
        (s.cap.state ≠ .recording → exec (.gate2Event k .toward) s =
          .next (s.setCapKey k { (s.capKey k) with state := .down, gate1At := none })) ∧
        (∀ t o, s.cap.state = .recording → s.cap.target = some t → s.cap.origin = some o → MemoryCanonical s →
          s.store.HasRoom t →
          ∃ st', s.store.Appended t
              (mkRecord 1 k.val
                (hammerVelocity (if (bankGet s.map.keys k).state = 1 then (bankGet s.map.keys k).s.toNat else 3000) (s.now - g))
                (s.clk.position - o)) st' ∧
            exec (.gate2Event k .toward) s =
              .next { (s.setCapKey k { (s.capKey k) with state := .down, gate1At := none, held := true }) with store := st' })) ∧
      ((s.capKey k).state ≠ .gate1 → exec (.gate2Event k .toward) s = .next s)) ∧
  ∀ (k : Key) (s : State) (t : TakeNo) (g o : Nat), (s.driveKey k).state = .rest → (s.capKey k).state = .gate1 →
    (s.capKey k).gate1At = some g → s.cap.state = .recording → s.cap.target = some t → s.cap.origin = some o →
    MemoryCanonical s → ¬ s.store.HasRoom t →
    ∃ st', s.store.ClosedAt t (s.clk.position - o) st' ∧
      exec (.gate2Event k .toward) s =
        .next (raiseBoth .storeFull
          { s with
            store := st'
            cap := { s.cap with
              state := .idle, target := none, origin := none
              keys := bankSet s.cap.keys k
                { (s.capKey k) with state := .down, gate1At := none, held := true } } })

/-- WINDOW_EXPIRY at its instant: the table of R8 row by row for a key the part is not driving, against the down threshold of
that instant (R20), and the removal of the gate-1 instant alone for any other key that holds one (R8, R10, R11). That the
release threshold it is judged by is the one in force when the last position was sampled (R2) is the model's choice of
notes/assumptions/30. A DEPRESS or RELEASE that finds no room is lost: the capture take is closed with an END at its time,
the unit is IDLE, and STORE_FULL is raised in both sets (R19); held is set or cleared all the same, the model's choice of
notes/assumptions/27. -/
def Obligations.WindowExpiryFollowsTheTable : Prop :=
  ∀ (k : Key) (s : State) (g : Nat), (s.capKey k).gate1At = some g → g + 60000 ≤ s.now →
    let c := s.capKey k
    let put (st : CapKeyState) (held : Bool) : State :=
      s.setCapKey k { c with state := st, gate1At := none, held := held }
    let writes (kind : Nat) (st : CapKeyState) (held : Bool) : Prop :=
      ∀ t o, s.cap.target = some t → s.cap.origin = some o → MemoryCanonical s →
        (s.store.HasRoom t → ∃ st', s.store.Appended t (mkRecord kind k.val 0 (s.clk.position - o)) st' ∧
          exec (.windowExpiry k) s = .next { (put st held) with store := st' }) ∧
        (¬ s.store.HasRoom t → ∃ st', s.store.ClosedAt t (s.clk.position - o) st' ∧
          exec (.windowExpiry k) s =
            .next (raiseBoth .storeFull
              { s with
                store := st'
                cap := { (put st held).cap with state := .idle, target := none, origin := none } }))
    ((s.driveKey k).state ≠ .rest ∨ c.state ≠ .gate1 → exec (.windowExpiry k) s = .next (put c.state c.held)) ∧
    ((s.driveKey k).state = .rest → c.state = .gate1 →
      (s.cap.down < c.lastPos.val ∧ (c.held = true ∨ s.cap.state ≠ .recording) →
        exec (.windowExpiry k) s = .next (put .down c.held)) ∧
      (s.cap.down < c.lastPos.val ∧ c.held = false ∧ s.cap.state = .recording → writes 2 .down true) ∧
      (c.lastPos.val ≤ s.cap.down ∧ c.releaseAt ≤ c.lastPos.val →
        exec (.windowExpiry k) s = .next (put (if c.held then .down else .up) c.held)) ∧
      (c.lastPos.val ≤ s.cap.down ∧ c.lastPos.val < c.releaseAt ∧ (c.held = false ∨ s.cap.state ≠ .recording) →
        exec (.windowExpiry k) s = .next (put .up c.held)) ∧
      (c.lastPos.val ≤ s.cap.down ∧ c.lastPos.val < c.releaseAt ∧ c.held = true ∧ s.cap.state = .recording →
        writes 3 .up false))

/-- KEY_SAMPLE at its instant, in every state: each position reaches the capture unit's and the drive unit's record of its
key with the threshold it is judged by (R1, R2; kept between samples, the model's choice of notes/assumptions/30), and the
next sample is 500 µs later; a pending pulse whose key is touched is withdrawn into a fresh rest wait (R153); before its
instant it changes nothing (the instant test is notes/assumptions/3). With the clock RUNNING and the drive ACTIVE a key in
REST that sinks below the repetition threshold has its waiting strikes offered again: none that is due waits KEY for the
touch, and a lone one that nothing else holds fires (R119, R130). With the clock not RUNNING and nothing being recorded the
whole effect is: capture states by R9, keys in LETGO back to REST (R13, R139), QUIET_PENDING perhaps left, the pulse, and the
end of STOPPING with its notices (R162). -/
def Obligations.KeySampleReachesEveryKey : Prop :=
  (∀ (rs : List (Key × KeyPos)) (s : State), (Instr.keySample rs).WellFormed = true →
      (s.wall.sample ≤ s.now → ∃ t, exec (.keySample rs) s = .next t ∧
        (∀ k p, (k, p) ∈ rs →
          (t.capKey k).lastPos = p ∧ (t.capKey k).releaseAt = s.cap.release ∧
            (t.driveKey k).lastPos = p ∧ (t.driveKey k).repetitionAt = s.cap.repetition) ∧
        t.wall = { s.wall with sample := s.wall.sample + 500 } ∧ t.pending = s.pending ∧ t.clk = s.clk ∧ t.map = s.map ∧
        (s.run.state = .running →
          let touched := s.run.wait = .pending ∧ ∃ x ∈ rs, s.run.current = some x.1 ∧ s.cap.repetition ≤ x.2.val
          (touched → t.run = { s.run with wait := .rest (s.now + 2000000) } ∧ t.drive.pulse = none) ∧
          (¬ touched → t.run = s.run ∧ t.drive.pulse = s.drive.pulse)) ∧
        (s.clk.state = .running → s.drive.power = .active → ∀ k p, (k, p) ∈ rs →
          (s.driveKey k).state = .rest → (s.driveKey k).repetitionAt ≤ (s.driveKey k).lastPos.val →
          p.val < s.cap.repetition →
          let rm := if (bankGet s.map.keys k).state = 1 then (bankGet s.map.keys k).rm.toNat else 1000
          (SerialsSound s → ∀ a ∈ t.sched.plan, (∃ v d f, a.body = .strike k v d f (some .key)) →
            a.due ≤ (s.clk.position : Int) →
            (t.driveKey k).state ≠ .rest ∨
              ∃ tick, (t.driveKey k).lastFire = some tick ∧ (s.clk.position : Int) - tick < rm) ∧
          ∀ a v d f, s.sched.plan = [a] → a.body = .strike k v d f (some .key) → a.due ≤ (s.clk.position : Int) →
            (∀ y, (s.layer y).ring = []) → (s.driveKey k).hot = false → s.drive.sag = false →
            s.slotsHeld < s.drive.slots → (∀ tick, (s.driveKey k).lastFire = some tick → tick + rm ≤ s.clk.position) →
            t.sched.plan = [] ∧ (t.driveKey k).state = .strike ∧ (t.driveKey k).owner = some a.layer ∧
              (t.driveKey k).lastFire = some s.clk.position)) ∧
      (s.now < s.wall.sample → exec (.keySample rs) s = .next s)) ∧
  ∀ (rs : List (Key × KeyPos)) (s : State), (Instr.keySample rs).WellFormed = true → s.wall.sample ≤ s.now →
    s.clk.state ≠ .running → s.cap.state ≠ .recording →
    ∃ t, exec (.keySample rs) s = .next t ∧
      (∀ k p, (k, p) ∈ rs →
        (let c : CapKey := { (s.capKey k) with lastPos := p, releaseAt := s.cap.release }
          let d : DriveKey := { (s.driveKey k) with lastPos := p, repetitionAt := s.cap.repetition }
          t.capKey k =
            (if d.state = .letgo ∧ p.val < s.cap.repetition then { c with state := .up, gate1At := none, held := false }
            else if d.state = .rest ∧ c.state = .down ∧ p.val < s.cap.release then { c with state := .up }
            else c) ∧
          t.driveKey k =
            (if d.state = .letgo ∧ p.val < s.cap.repetition then
              { d with
                state := .rest, owner := none, fire := none, sustainDemand := none, reboundGap := none
                sustain := none, reboundEnd := none, letGoAt := none }
            else d))) ∧
      (s.drive.power ≠ .quietPending → t.drive = { s.drive with keys := t.drive.keys, pulse := t.drive.pulse }) ∧
      (let ended := s.run.state = .stopping ∧ ∃ x ∈ rs, s.run.current = some x.1 ∧ (s.driveKey x.1).state = .letgo ∧
          x.2.val < s.cap.repetition
        let u : State :=
          { s with
            wall := { s.wall with sample := s.wall.sample + 500 }, cap := { s.cap with keys := t.cap.keys }, drive := t.drive }
        let v := raiseBoth .calDone
          { u with run := { s.run with state := .idle, keys := 0, current := none, copy := none, wait := .none } }
        (s.run.state ≠ .running → t.drive.pulse = s.drive.pulse) ∧
        (ended → t = if s.run.failed then raiseBoth .keyFault v else v) ∧
        (¬ ended → t = { u with run := t.run } ∧ (s.run.state ≠ .running → t.run = s.run)))

/-- Where a note ends in the take. A key's drive record replaced by one that leaves REST ends the pianist's note there: UP, no
window, held clear, with a RELEASE where held was set while RECORDING; one that returns to REST clears the capture record the
same way with nothing written; any other change leaves the capture unit alone (R12, R13, R129). A sample below the release
threshold of a key not driven, with held set while RECORDING, writes its RELEASE and clears held, DOWN going to UP and GATE1
staying with its gate-1 instant (R9). A RELEASE that finds no room is lost: the capture take is closed with an END at its time,
the unit is IDLE, and STORE_FULL is raised in both sets (R19); held is cleared all the same, the model's choice of
notes/assumptions/27. -/
def Obligations.NotesEndInTheTake : Prop :=
  (∀ (k : Key) (d : DriveKey) (s : State),
      let up : CapKey := { (s.capKey k) with state := .up, gate1At := none, held := false }
      let u := (s.setDriveKey k d).setCapKey k up
      ((s.driveKey k).state = .rest → d.state ≠ .rest →
        ((s.capKey k).held = false ∨ s.cap.state ≠ .recording → putDriveKey k d s = u) ∧
        (∀ t o, (s.capKey k).held = true → s.cap.state = .recording → s.cap.target = some t → s.cap.origin = some o →
          MemoryCanonical s →
          (s.store.HasRoom t → ∃ st', s.store.Appended t (mkRecord 3 k.val 0 (s.clk.position - o)) st' ∧
            putDriveKey k d s = { u with store := st' }) ∧
          (¬ s.store.HasRoom t → ∃ st', s.store.ClosedAt t (s.clk.position - o) st' ∧
            putDriveKey k d s =
              raiseBoth .storeFull
                { u with store := st', cap := { u.cap with state := .idle, target := none, origin := none } }))) ∧
      ((s.driveKey k).state ≠ .rest → d.state = .rest → putDriveKey k d s = u) ∧
      (((s.driveKey k).state = .rest ↔ d.state = .rest) → putDriveKey k d s = s.setDriveKey k d)) ∧
  ∀ (k : Key) (p : KeyPos) (s : State) (t : TakeNo) (o : Nat), s.cap.state = .recording → s.cap.target = some t →
    s.cap.origin = some o → MemoryCanonical s → (s.driveKey k).state = .rest →
    p.val < s.cap.release → (s.capKey k).held = true → (s.capKey k).state ≠ .up →
    let u := s.setCapKey k
      { (s.capKey k) with
        state := if (s.capKey k).state = .down then .up else .gate1, lastPos := p, held := false, releaseAt := s.cap.release }
    (s.store.HasRoom t → ∃ st', s.store.Appended t (mkRecord 3 k.val 0 (s.clk.position - o)) st' ∧
      captureSample k p s = { u with store := st' }) ∧
    (¬ s.store.HasRoom t → ∃ st', s.store.ClosedAt t (s.clk.position - o) st' ∧
      captureSample k p s =
        raiseBoth .storeFull { u with store := st', cap := { u.cap with state := .idle, target := none, origin := none } })

/-- CAPTURE SET (R20): three thresholds in range and in strict order are taken with the deadband clamped into 1..32, and the
reply reports the four; otherwise BADVAL and none of them changes. Nothing else changes, in any state: the thresholds each key's
last sample is judged by stand until the next one (R2). -/
def Obligations.CaptureSetTakesAllFourOrNone : Prop :=
  ∀ (l : Link) (r p d : Word16) (db : Byte) (s : State), (s.link l).slots = .serving (.captureSet r p d db) →
    (50 ≤ r.toNat ∧ r.toNat ≤ 900 ∧ 60 ≤ p.toNat ∧ p.toNat ≤ 950 ∧ 70 ≤ d.toNat ∧ d.toNat ≤ 1000 ∧ r.toNat < p.toNat ∧
        p.toNat < d.toNat →
      exec (.captureSet l r p d db) s =
        .next (State.replied
          { s with cap := { s.cap with
            release := r.toNat, repetition := p.toNat, down := d.toNat, deadband := max 1 (min 32 db.toNat) } }
          l (.captureSet r p d db) .ok
          (bytes16 r ++ bytes16 p ++ bytes16 d ++ [BitVec.ofNat 8 (max 1 (min 32 db.toNat))]))) ∧
    (¬ (50 ≤ r.toNat ∧ r.toNat ≤ 900 ∧ 60 ≤ p.toNat ∧ p.toNat ≤ 950 ∧ 70 ≤ d.toNat ∧ d.toNat ≤ 1000 ∧
        r.toNat < p.toNat ∧ p.toNat < d.toNat) →
      exec (.captureSet l r p d db) s = .next (s.replied l (.captureSet r p d db) .badVal []))

/-- CAPTURE START: STATE outside IDLE; FULL with no FREE entry or no free block; otherwise the lowest FREE entry and block
become the capture take, held is cleared in every key record and the unit is PAUSED with no origin, or, with the clock
RUNNING on a frame boundary, RECORDING from that boundary with every undriven pedal written (R16, R17, R24, R25, R15). -/
def Obligations.CaptureStartOpensTheCaptureTake : Prop :=
  ∀ (l : Link) (r : PedalReadings) (s : State), (s.link l).slots = .serving .captureStart →
    (s.cap.state ≠ .idle → exec (.captureStart l r) s = .next (s.replied l .captureStart .state [])) ∧
    (s.cap.state = .idle → (∀ t, (s.store.entry t).state ≠ .free) ∨ s.store.pool = [] →
      exec (.captureStart l r) s = .next (s.replied l .captureStart .full [])) ∧
    (∀ t b rest, s.cap.state = .idle → (s.store.entry t).state = .free → (∀ u, u < t → (s.store.entry u).state ≠ .free) →
      s.store.pool = b :: rest →
      (¬ (s.clk.state = .running ∧ s.clk.position % 200 = 0) → exec (.captureStart l r) s =
        .next (State.replied
          { s with
            store := { s.store with
              pool := rest
              dir := bankSet s.store.dir t
                { state := .opened, writer := some .capture, length := 0, lastTime := 0, blocks := [b], bound := 0
                  origin := none } }
            cap := { s.cap with
              state := .paused, target := some t, origin := none
              keys := bankMap (fun _ c => { c with held := false }) s.cap.keys } }
          l .captureStart .ok [BitVec.ofNat 8 t.val, 1])) ∧
      (s.clk.state = .running ∧ s.clk.position % 200 = 0 →
        ∃ s', exec (.captureStart l r) s = .next s' ∧
          s'.cap.state = .recording ∧ s'.cap.target = some t ∧ s'.cap.origin = some s.clk.position ∧
          (s'.store.entry t).state = .opened ∧ (s'.store.entry t).writer = some .capture ∧
          (s'.store.entry t).origin = some s.clk.position ∧
          (s'.store.entry t).length = (allPedals.filter fun p => !s.pedalDriven p).length ∧
          (∀ k, s'.capKey k = { (s.capKey k) with held := false }) ∧
          (s'.link l).slots = .reply { status := .ok, kind := 0x01, body := [BitVec.ofNat 8 t.val, 1] } ∧
          (∀ u, u ≠ t → s'.store.entry u = s.store.entry u) ∧
          (MemoryCanonical s → ∀ a, a < 4096 * b ∨ 4096 * b + 24 ≤ a → memRead s'.store.mem a = memRead s.store.mem a) ∧
          s'.link l.other = s.link l.other ∧ s'.layer0 = s.layer0 ∧ s'.layer1 = s.layer1 ∧ s'.drive = s.drive ∧
          s'.sched = s.sched ∧ s'.clk = s.clk ∧ s'.map = s.map ∧ s'.run = s.run ∧ s'.wall = s.wall))

/-- CAPTURE STOP: STATE in IDLE; otherwise the take is closed with its END at the present take time, or at 0 with the origin
set to the clock position where none was fixed, the unit is IDLE with no target and no origin, and the reply gives the take
number and its length (R18, R30). -/
def Obligations.CaptureStopClosesTheTake : Prop :=
  ∀ (l : Link) (s : State), (s.link l).slots = .serving .captureStop →
    (s.cap.state = .idle → exec (.captureStop l) s = .next (s.replied l .captureStop .state [])) ∧
    (∀ t, s.cap.state ≠ .idle → s.cap.target = some t → MemoryCanonical s →
      ∃ st', (match s.cap.origin with
          | some o => s.store.ClosedAt t (s.clk.position - o) st'
          | none => (s.store.setOrigin t s.clk.position).ClosedAt t 0 st') ∧
        exec (.captureStop l) s =
          .next (State.replied
            { s with store := st', cap := { s.cap with state := .idle, target := none, origin := none } }
            l .captureStop .ok
            ([BitVec.ofNat 8 t.val] ++ bytes32 (BitVec.ofNat 32 ((s.store.entry t).length + 1)))))

/-- One pedal's frame sample while RECORDING: the window, the average rounded with halves upward, the suppression of a driven
pedal, the first-frame mark and the deadband (R14, R15). A PEDAL record that finds no room is lost: the capture take is
closed with an END at its time, the unit is IDLE, and STORE_FULL is raised in both sets; outside RECORDING, as for the pedals
after it, nothing is sampled (R19). The take is one whose origin is fixed, which RECORDING implies (CaptureSound, kept by
every step by EveryStepKeepsTheStoreSound). That the lost record still becomes the last emitted value and clears the
first-frame mark is the model's choice of notes/assumptions/31. -/
def Obligations.FrameSampleOfAPedal : Prop :=
  (∀ (r : PedalReadings) (time : Nat) (p : Pedal) (s : State), s.cap.state ≠ .recording → framePedal r time s p = s) ∧
  ∀ (r : PedalReadings) (time : Nat) (p : Pedal) (s : State), s.cap.state = .recording →
    let c := bankGet s.cap.pedals p
    let x := readingAt r p
    let w : Nat × Nat × Nat × Nat := if c.firstFrame then (x, x, x, x) else (c.w1, c.w2, c.w3, x)
    let avg := (w.1 + w.2.1 + w.2.2.1 + w.2.2.2 + 2) / 4
    let put (last : Nat) (first : Bool) : State :=
      { s with cap := { s.cap with
        pedals := bankSet s.cap.pedals p (CapPedal.mk w.1 w.2.1 w.2.2.1 w.2.2.2 last first) } }
    let driven := ∃ y, bankGet (s.layer y).latched.pass p = true ∧ (bankGet (s.layer y).demands p).isSome = true
    (driven → framePedal r time s p = put c.lastEmitted true) ∧
    (¬ driven → c.firstFrame = false → avg < c.lastEmitted + s.cap.deadband → c.lastEmitted < avg + s.cap.deadband →
      framePedal r time s p = put c.lastEmitted false) ∧
    (¬ driven → (c.firstFrame = true ∨ c.lastEmitted + s.cap.deadband ≤ avg ∨ avg + s.cap.deadband ≤ c.lastEmitted) →
      ∀ t, s.cap.target = some t → MemoryCanonical s →
        (s.store.HasRoom t → ∃ st', s.store.Appended t (mkRecord 4 p.val avg time) st' ∧
          framePedal r time s p = { (put avg false) with store := st' }) ∧
        (∀ o, s.cap.origin = some o → ¬ s.store.HasRoom t → ∃ st', s.store.ClosedAt t time st' ∧
          framePedal r time s p =
            raiseBoth .storeFull
              { s with
                store := st'
                cap := { (put avg false).cap with state := .idle, target := none, origin := none } }))

/-! ### The take store -/

/-- TAKE OPEN: the lowest FREE entry and the lowest free block become an empty OPEN take of the sending link, and the reply
gives its number and the blocks left; with no FREE entry or an empty pool FULL, and nothing changes (R24). ERASE: BADVAL,
NOTAKE, INUSE for an OPEN or a bound take, each with nothing changed; otherwise the entry is FREE, its blocks are back in the
ascending pool, the bytes of record memory stand, and the reply gives both block counts (R32). -/
def Obligations.TakeOpenAndErase : Prop :=
  (∀ (l : Link) (s : State), (s.link l).slots = .serving .takeOpen →
      ((∀ t, (s.store.entry t).state ≠ .free) ∨ s.store.pool = [] →
        exec (.takeOpen l) s = .next (s.replied l .takeOpen .full [])) ∧
      ∀ t b rest, (s.store.entry t).state = .free → (∀ u, u < t → (s.store.entry u).state ≠ .free) →
        s.store.pool = b :: rest → exec (.takeOpen l) s =
          .next (State.replied
            { s with store := { s.store with
              pool := rest
              dir := bankSet s.store.dir t
                { state := .opened, writer := some (.link l), length := 0, lastTime := 0, blocks := [b], bound := 0
                  origin := none } } }
            l .takeOpen .ok ([BitVec.ofNat 8 t.val] ++ bytes32 (BitVec.ofNat 32 rest.length)))) ∧
  ∀ (l : Link) (take : Byte) (s : State), (s.link l).slots = .serving (.erase take) →
    (31 < take.toNat → exec (.erase l take) s = .next (s.replied l (.erase take) .badVal [])) ∧
    ∀ t : TakeNo, take.toNat = t.val →
      ((s.store.entry t).state = .free → exec (.erase l take) s = .next (s.replied l (.erase take) .noTake [])) ∧
      ((s.store.entry t).state = .opened ∨ (s.store.entry t).state = .closed ∧ (s.store.entry t).bound ≠ 0 →
        exec (.erase l take) s = .next (s.replied l (.erase take) .inUse [])) ∧
      ((s.store.entry t).state = .closed → (s.store.entry t).bound = 0 → StoreSound s →
        ∃ pool, pool.Pairwise (· < ·) ∧ pool.Perm ((s.store.entry t).blocks ++ s.store.pool) ∧
          exec (.erase l take) s =
            .next (State.replied
              { s with store := { s.store with
                pool := pool
                dir := bankSet s.store.dir t
                  { state := .free, writer := none, length := 0, lastTime := 0, blocks := [], bound := 0
                    origin := none } } }
              l (.erase take) .ok
              (bytes32 (BitVec.ofNat 32 (s.store.entry t).blocks.length) ++
                bytes32 (BitVec.ofNat 32 (s.store.pool.length + (s.store.entry t).blocks.length)))))

/-- APPEND to the sender's own OPEN take: the records up to the first that fails are written in order and read back, every
record already in any take stands, and the reply's status names the failing test, in the order of R28's table; the room is
that of R26 (R26, R27, R28). -/
def Obligations.AppendStopsAtTheFirstRefusedRecord : Prop :=
  ∀ (l : Link) (take : Byte) (t : TakeNo) (good rest : List Record) (status : Status) (s : State),
    (s.link l).slots = .serving (.append take (good ++ rest)) → take.toNat = t.val → MemoryCanonical s → StoreSound s →
    let e := s.store.entry t
    let blocks := e.blocks.length + s.store.pool.length
    let last := ((good.getLast?).map fun r => r.time.toNat).getD e.lastTime
    e.state = .opened → e.writer = some (.link l) →
    (∀ r ∈ good, r.legal = true ∧ r.isEnd = false ∧ e.lastTime ≤ r.time.toNat) →
    good.Pairwise (fun a b => a.time.toNat ≤ b.time.toNat) → e.length + good.length + 1 ≤ 512 * blocks →
    (rest = [] ∧ status = .ok ∨ ∃ r more, rest = r :: more ∧
      (¬ (r.legal = true ∧ r.isEnd = false) ∧ status = .badVal ∨
        r.legal = true ∧ r.isEnd = false ∧
          (r.time.toNat < last ∧ status = .order ∨
            last ≤ r.time.toNat ∧ e.length + good.length + 1 = 512 * blocks ∧ status = .full))) →
    ∃ st', exec (.append l take (good ++ rest)) s =
        .next (State.replied { s with store := st' } l (.append take (good ++ rest)) status
          (bytes32 (BitVec.ofNat 32 good.length) ++ bytes32 (BitVec.ofNat 32 (e.length + good.length)) ++
            bytes32 (BitVec.ofNat 32 last))) ∧
      st'.entry t = { e with length := e.length + good.length, lastTime := last, blocks := (st'.entry t).blocks } ∧
      (∀ i (h : i < good.length), st'.record t (e.length + i) = good[i]) ∧
      (∀ u, u ≠ t → st'.entry u = s.store.entry u) ∧
      ∀ u i, (s.store.entry u).state ≠ .free → i < (s.store.entry u).length → st'.record u i = s.store.record u i

/-- APPEND and CLOSE turned away before any record is examined: BADVAL for the take number (for CLOSE also for the end time),
NOTAKE, STATE and HELD in that order, with nothing changed (R27, R30; that CLOSE's BADVAL for the end time comes first is the
model's choice, notes/assumptions/23). CLOSE by the writer: the END is written in the
reserved place at the later of the last time and the end time, the entry is CLOSED without a writer, no block moves, and the
reply gives length and last time (R30). -/
def Obligations.AppendAndCloseNeedTheWritersOpenTake : Prop :=
  (∀ (l : Link) (take : Byte) (rs : List Record) (endTime : Word32) (s : State),
      let refused (st : Status) : Prop :=
        ((s.link l).slots = .serving (.append take rs) →
          exec (.append l take rs) s = .next (s.replied l (.append take rs) st [])) ∧
        ((s.link l).slots = .serving (.close take endTime) → endTime.toNat ≤ 2147483647 →
          exec (.close l take endTime) s = .next (s.replied l (.close take endTime) st []))
      (31 < take.toNat → refused .badVal) ∧
      ((s.link l).slots = .serving (.close take endTime) → 2147483647 < endTime.toNat →
        exec (.close l take endTime) s = .next (s.replied l (.close take endTime) .badVal [])) ∧
      ∀ t : TakeNo, take.toNat = t.val →
        ((s.store.entry t).state = .free → refused .noTake) ∧
        ((s.store.entry t).state = .closed → refused .state) ∧
        ((s.store.entry t).state = .opened → (s.store.entry t).writer ≠ some (.link l) → refused .held)) ∧
  ∀ (l : Link) (take : Byte) (t : TakeNo) (endTime : Word32) (s : State),
    (s.link l).slots = .serving (.close take endTime) → take.toNat = t.val → endTime.toNat ≤ 2147483647 →
    (s.store.entry t).state = .opened → (s.store.entry t).writer = some (.link l) → MemoryCanonical s →
    ∃ st', s.store.ClosedAt t endTime.toNat st' ∧ exec (.close l take endTime) s =
      .next (State.replied { s with store := st' } l (.close take endTime) .ok
        (bytes32 (BitVec.ofNat 32 ((s.store.entry t).length + 1)) ++
          bytes32 (BitVec.ofNat 32 (max (s.store.entry t).lastTime endTime.toNat))))

/-- READ and INFO answer from the take as it stands and change nothing but the slots and REPLY of the sending link; READ's
refusals are BADVAL, NOTAKE, BADVAL for the count and BADVAL for the start (R31). The order of READ's tests is the model's
choice, notes/assumptions/23, and so is the layout of both bodies, notes/assumptions/13, read from section 11.2: counts and
positions are 4 bytes, the bound-layer count of INFO among them. -/
def Obligations.ReadAndInfoDescribeATake : Prop :=
  ∀ (l : Link) (take : Byte) (start : Word32) (count : Byte) (s : State),
    let read (st : Status) (body : List Byte) : Prop := (s.link l).slots = .serving (.read take start count) →
      exec (.read l take start count) s = .next (s.replied l (.read take start count) st body)
    let info (st : Status) (body : List Byte) : Prop := (s.link l).slots = .serving (.info take) →
      exec (.info l take) s = .next (s.replied l (.info take) st body)
    (31 < take.toNat → read .badVal [] ∧ info .badVal []) ∧
    ∀ t : TakeNo, take.toNat = t.val →
      let e := s.store.entry t
      let state : Byte := match e.state with
        | .free => 0
        | .opened => 1
        | .closed => 2
      (e.state = .free → read .noTake []) ∧
      (e.state ≠ .free → (count.toNat < 1 ∨ 30 < count.toNat ∨ e.length < start.toNat) → read .badVal []) ∧
      (e.state ≠ .free → 1 ≤ count.toNat → count.toNat ≤ 30 → start.toNat ≤ e.length →
        read .ok ([state] ++ bytes32 (BitVec.ofNat 32 e.length) ++
          (List.range (min count.toNat (e.length - start.toNat))).flatMap fun i =>
            (s.store.record t (start.toNat + i)).bytes)) ∧
      info .ok
        ([state,
            (match e.writer with
              | some (.link .a) => 0
              | some (.link .b) => 1
              | some .capture => 2
              | none => 255)] ++
          bytes32 (BitVec.ofNat 32 e.length) ++ bytes32 (BitVec.ofNat 32 e.lastTime) ++
          bytes32 (BitVec.ofNat 32 e.blocks.length) ++ bytes32 (BitVec.ofNat 32 e.bound) ++
          (match e.origin with
            | some o => bytes32 (BitVec.ofNat 32 o)
            | none => [255, 255, 255, 255]) ++
          bytes32 (BitVec.ofNat 32 s.store.pool.length))

/-- Every step keeps the take store sound: record memory in its canonical form, every block in the pool or in one take, an
OPEN take with the place of its END, a CLOSED one holding it, and the bound-layer counts those of the layers (R23, R26, R30,
R33); and the capture unit's target and origin in agreement with its state, the origin fixed while RECORDING (R16, R17, R18). -/
def Obligations.EveryStepKeepsTheStoreSound : Prop :=
  ∀ s t : State, step s = .next t →
    (MemoryCanonical s → MemoryCanonical t) ∧ (StoreSound s → StoreSound t) ∧
      (StoreSound s → BindingsAgree s → BindingsAgree t) ∧ (CaptureSound s → CaptureSound t)

/-! ### The performance clock -/

/-- CLOCK LOCATE: STATE outside STOPPED; in STOPPED the signed value clamped into the range becomes the position and the owed
correction 0. The reply is the clock report, written out here, and nothing else changes (R39, R45). CLOCK SOURCE in every
clock state: INTERNAL keeps the sync length; SYNC takes the clamped length and the present instant as the last pulse instant;
both leave TRACKING with nothing owed; another source value is BADVAL with nothing changed (R47). That LOCATE clears the
withheld mark and SOURCE keeps it is the model's choice of notes/assumptions/12, and that INTERNAL ignores the length bytes is
that of notes/assumptions/24. -/
def Obligations.LocateAndSource : Prop :=
  (∀ (l : Link) (v : Word32) (s : State), (s.link l).slots = .serving (.clockLocate v) →
      let report (c : Clock) : List Byte :=
        [(match c.state with
            | .stopped => (0 : Byte)
            | .running => 1
            | .paused => 2)] ++
          bytes32 (BitVec.ofNat 32 c.position) ++
          [(match c.source with
            | .internal => (0 : Byte)
            | .sync => 1)] ++
          bytes16 (BitVec.ofNat 16 c.syncLength) ++
          [(match c.tracking with
            | .tracking => (0 : Byte)
            | .lost => 1
            | .fault => 2), BitVec.ofInt 8 c.owed]
      (s.clk.state ≠ .stopped → exec (.clockLocate l v) s = .next (s.replied l (.clockLocate v) .state (report s.clk))) ∧
      (s.clk.state = .stopped →
        let c : Clock :=
          { s.clk with position := (max 0 (min 2147483647 v.toInt)).toNat, owed := 0, withheld := false }
        exec (.clockLocate l v) s = .next (State.replied { s with clk := c } l (.clockLocate v) .ok (report c)))) ∧
  ∀ (l : Link) (source : Byte) (length : Word16) (s : State), (s.link l).slots = .serving (.clockSource source length) →
    (source = 0 →
      let c : Clock := { s.clk with source := .internal, tracking := .tracking, owed := 0 }
      exec (.clockSource l source length) s =
        .next (State.replied { s with clk := c } l (.clockSource source length) .ok (clockReport c))) ∧
    (source = 1 →
      let c : Clock :=
        { s.clk with
          source := .sync, syncLength := max 100 (min 8000 length.toNat), tracking := .tracking, owed := 0
          lastPulse := s.now }
      exec (.clockSource l source length) s =
        .next (State.replied { s with clk := c } l (.clockSource source length) .ok (clockReport c))) ∧
    (1 < source.toNat → exec (.clockSource l source length) s =
      .next (s.replied l (.clockSource source length) .badVal (clockReport s.clk)))

/-- CLOCK RUN: CALRUN while a run is active, STATE from STOPPED at the limit, OK with no change in RUNNING. Otherwise the
clock enters RUNNING at the position it holds, its first advance 50 µs later; a capture take awaiting its origin on the
boundary the clock stands on gets it when run from STOPPED; every CUED layer whose entry tick is reached leaves CUED; with no
replay, no pending settings and no capture the drop list alone empties from STOPPED and nothing else changes; from PAUSED a
capture with its origin goes on RECORDING where no key held was released meanwhile (R17, R39, R40, R41, R42, R82), which for
a key in GATE1 is judged by the release threshold of its last sample (R2), the model's choice of notes/assumptions/30. -/
def Obligations.ClockRunEntersRunning : Prop :=
  (∀ (l : Link) (r : PedalReadings) (order : List Phase) (s : State), (s.link l).slots = .serving .clockRun →
      let unchanged (st : Status) : Prop :=
        exec (.clockRun l r order) s = .next (s.replied l .clockRun st (clockReport s.clk))
      (s.run.state ≠ .idle → unchanged .calRun) ∧
      (s.run.state = .idle → s.clk.state = .stopped → s.clk.position = 2147483647 → unchanged .state) ∧
      (s.run.state = .idle → s.clk.state = .running → unchanged .ok)) ∧
  ∀ (l : Link) (r : PedalReadings) (order : List Phase) (s : State), (s.link l).slots = .serving .clockRun →
    s.run.state = .idle → s.clk.state ≠ .running → (s.clk.state = .stopped → s.clk.position ≠ 2147483647) →
    let c : Clock := { s.clk with state := .running, entered := s.now, nextAdvance := s.now + 50 }
    let still : Prop := s.sched.plan = [] ∧ ∀ y, (s.layer y).state ≠ .cued ∧ (s.layer y).state ≠ .playing ∧
      (s.layer y).staged = none
    ∃ t, exec (.clockRun l r order) s = .next t ∧ t.clk = c ∧
      (t.link l).slots = .reply { status := .ok, kind := 0x20, body := clockReport c } ∧
      (∀ n, s.clk.state = .stopped → s.clk.position % 200 = 0 → s.cap.state = .paused → s.cap.target = some n →
        s.cap.origin = none → (t.store.entry n).origin = some s.clk.position) ∧
      (∀ y o, (s.layer y).state = .cued → (s.layer y).origin = some o → o ≤ s.clk.position →
        (t.layer y).state = .playing ∨ (t.layer y).state = .ended) ∧
      (still → s.cap.state = .idle →
        t = State.replied
          { s with
            clk := c, sched := { s.sched with drops := if s.clk.state = .stopped then [] else s.sched.drops } }
          l .clockRun .ok (clockReport c)) ∧
      (still → s.clk.state = .paused → s.cap.state = .paused → s.cap.origin.isSome = true →
        (∀ k, s.releasedUnseen k = false) →
        t = State.replied
          { s with
            clk := c
            cap := { s.cap with
              state := .recording, pedals := bankMap (fun _ p => { p with firstFrame := true }) s.cap.pedals } }
          l .clockRun .ok (clockReport c))

/-- CLOCK PAUSE: STATE from STOPPED and OK with no change in PAUSED; from RUNNING the clock is PAUSED with its position and owed
correction, pending settings are latched, RECORDING becomes PAUSED with its origin, the wait queue is given up and the plan
and the keys stay (R43, R17, R77, R119). -/
def Obligations.ClockPauseHoldsTheReplay : Prop :=
  ∀ (l : Link) (s : State), (s.link l).slots = .serving .clockPause →
    (s.clk.state = .stopped → exec (.clockPause l) s = .next (s.replied l .clockPause .state (clockReport s.clk))) ∧
    (s.clk.state = .paused → exec (.clockPause l) s = .next (s.replied l .clockPause .ok (clockReport s.clk))) ∧
    (s.clk.state = .running → ∃ t, exec (.clockPause l) s = .next t ∧
      t.clk = { s.clk with state := .paused } ∧
      (t.link l).slots = .reply { status := .ok, kind := 0x21, body := clockReport { s.clk with state := .paused } } ∧
      t.sched = s.sched ∧ t.drive.keys = s.drive.keys ∧ t.drive.queue = [] ∧ t.drive.power = s.drive.power ∧
      t.store = s.store ∧ t.map = s.map ∧ t.run = s.run ∧ t.wall = s.wall ∧ t.link l.other = s.link l.other ∧
      t.cap = { s.cap with state := if s.cap.state = .recording then .paused else s.cap.state } ∧
      (∀ y, t.layer y = { (s.layer y) with
        latched := ((s.layer y).staged).getD (s.layer y).latched, staged := none, demands := (t.layer y).demands }) ∧
      ∀ y p, bankGet (t.layer y).demands p =
        (if (s.layer y).staged.isSome = true ∧ bankGet (t.layer y).latched.pass p = false then none
          else bankGet (s.layer y).demands p))

/-- CLOCK STOP from any state, as every block takes it: the clock STOPPED with its position, the plan, the key memory and the
wait queue empty, no key in STRIKE or SUSTAIN and none with a last fire tick, CUED and PLAYING layers BOUND with their cue
gone, pending settings latched on leaving RUNNING, the capture take closed; maps, runs, drops and the other keys stand
(R44, R18, R77, R87, R126, R138). That a key let go from STRIKE loses its sustain demand and rebound gap is the model's choice
of notes/assumptions/21. -/
def Obligations.ClockStopIsTakenByEveryBlock : Prop :=
  ∀ (l : Link) (s : State), (s.link l).slots = .serving .clockStop →
    let c : Clock := { s.clk with state := .stopped, owed := 0 }
    ∃ t, exec (.clockStop l) s = .next t ∧ t.clk = c ∧
      (t.link l).slots = .reply { status := .ok, kind := 0x22, body := clockReport c } ∧
      t.sched = { s.sched with plan := [], memory := t.sched.memory } ∧ (∀ k, bankGet t.sched.memory k = none) ∧
      t.drive.queue = [] ∧ t.drive.power = s.drive.power ∧ t.drive.pulse = s.drive.pulse ∧
      (∀ k, t.driveKey k =
        (if (s.driveKey k).state = .strike ∨ (s.driveKey k).state = .sustain then
          { (s.driveKey k) with
            state := .letgo, owner := none, sustainDemand := none, reboundGap := none, sustain := none
            reboundEnd := none, letGoAt := some (s.now + 1000000), lastFire := none }
        else { (s.driveKey k) with lastFire := none })) ∧
      (∀ y, ((s.layer y).state = .cued ∨ (s.layer y).state = .playing →
          (t.layer y).state = .bound ∧ (t.layer y).cue = none ∧ (t.layer y).origin = none ∧
            (t.layer y).endFetched = false ∧ (∀ p, bankGet (t.layer y).chase p = none ∧ bankGet (t.layer y).demands p = none) ∧
            ∀ link, (s.layer y).source = some (.stream link) →
              (t.layer y).ring = [] ∧ (t.layer y).fedTime = 0 ∧ (t.layer y).endFed = false ∧
                (t.layer y).highArmed = true ∧ (t.layer y).lowArmed = true) ∧
        ((s.layer y).state ≠ .cued → (s.layer y).state ≠ .playing → (t.layer y).state = (s.layer y).state) ∧
        (t.layer y).source = (s.layer y).source ∧ (t.layer y).low = (s.layer y).low ∧ (t.layer y).high = (s.layer y).high ∧
        ((t.layer y).latched, (t.layer y).staged) =
          (if s.clk.state = .running then (((s.layer y).staged).getD (s.layer y).latched, none)
            else ((s.layer y).latched, (s.layer y).staged))) ∧
      (s.cap.state = .idle → t.cap = s.cap ∧ t.store = s.store) ∧
      (s.cap.state ≠ .idle → t.cap = { s.cap with state := .idle, target := none, origin := none } ∧
        ∀ n, s.cap.target = some n → MemoryCanonical s →
          match s.cap.origin with
          | some o => s.store.ClosedAt n (s.clk.position - o) t.store
          | none => (s.store.setOrigin n s.clk.position).ClosedAt n 0 t.store) ∧
      t.map = s.map ∧ t.run = s.run ∧ t.wall = s.wall

/-- CLOCK_ADVANCE of a RUNNING clock at its instant: an advance onto a boundary is withheld once for a negative owed correction,
carried past it for a positive one, and plain otherwise; at the limit the clock stops with CLOCK_LIMIT raised and the plan
empty; the boundary reached or passed fixes a capture origin awaited, and latches pending settings; with no replay, no
pending settings and no capture nothing but the clock changes (R17, R40, R41, R46, R50, R77, R82). No strike that waited beyond
the late tolerance is left (R120), no PEDAL and no strike that was never processed is left due, a RELEASE or DEPRESS left due
stood behind an earlier STRIKE of its key and layer (R117), a lone due action is carried out, and no front record is left
ready (R109, R111). That the advance after a withheld one applies no correction is the model's choice of notes/assumptions/12. -/
def Obligations.ClockAdvanceMovesThePosition : Prop :=
  ∀ (r : PedalReadings) (order : List Phase) (s : State), s.clk.state = .running → s.clk.nextAdvance ≤ s.now →
    s.clk.position < 2147483647 →
    let p := s.clk.position
    let edge := (p + 1) % 200 = 0
    (edge ∧ s.clk.owed < 0 ∧ s.clk.withheld = false → exec (.clockAdvance r order) s =
      .next { s with clk := { s.clk with
        owed := s.clk.owed + 1, withheld := true, nextAdvance := s.clk.nextAdvance + 50 } }) ∧
    (¬ (edge ∧ s.clk.owed < 0 ∧ s.clk.withheld = false) →
      let skip := edge ∧ 0 < s.clk.owed ∧ s.clk.withheld = false
      let c : Clock :=
        { s.clk with
          position := if skip then p + 2 else p + 1, owed := if skip then s.clk.owed - 1 else s.clk.owed
          withheld := false, nextAdvance := s.clk.nextAdvance + 50 }
      ∃ t, exec (.clockAdvance r order) s = .next t ∧
        (c.position = 2147483647 →
          t.clk = { c with state := .stopped, owed := 0 } ∧ t.sched.plan = [] ∧ t.cap.state = .idle ∧
            ∀ l, t.noticed l .clockLimit = true) ∧
        (c.position ≠ 2147483647 →
          t.clk = c ∧
            (edge → ∀ n, s.cap.state = .paused → s.cap.target = some n → s.cap.origin = none →
              (t.store.entry n).origin = some (p + 1)) ∧
            (edge → ∀ y, (t.layer y).latched = ((s.layer y).staged).getD (s.layer y).latched ∧
              (t.layer y).staged = none) ∧
            (∀ y o, (s.layer y).state = .cued → (s.layer y).origin = some o → o ≤ c.position →
              (t.layer y).state = .playing ∨ (t.layer y).state = .ended) ∧
            (s.sched.plan = [] → s.cap.state = .idle →
              (∀ y, (s.layer y).state ≠ .cued ∧ (s.layer y).state ≠ .playing ∧ (s.layer y).staged = none) →
              t = { s with clk := c }) ∧
            (SerialsSound s →
              (∀ a ∈ s.sched.plan, a.wait.isSome = true → (s.sched.late : Int) < (c.position : Int) - a.due →
                ∀ b ∈ t.sched.plan, b.serial ≠ a.serial) ∧
              ∀ a ∈ t.sched.plan, a.due ≤ (c.position : Int) →
                (∀ q v, a.body ≠ .pedal q v) ∧ (∀ k v d f, a.body ≠ .strike k v d f none) ∧
                (a ∈ s.sched.plan → ∀ k, (∃ auto, a.body = .release k auto) ∨ (∃ d, a.body = .depress k d) →
                  ∃ b ∈ s.sched.plan, b.strikeKey? = some k ∧ b.layer = a.layer ∧ b.serial < a.serial)) ∧
            (∀ a, s.sched.plan = [a] → a.due ≤ (c.position : Int) → s.drive.queue = [] → s.cap.state = .idle →
              (∀ y, (s.layer y).state ≠ .cued ∧ (s.layer y).staged = none ∧ (s.layer y).ring = []) →
              (a.wait.isSome = true → (c.position : Int) - a.due ≤ s.sched.late) → t = carryOut a { s with clk := c }) ∧
            (StoreSound s → BindingsAgree s → ∀ y front rest, (t.layer y).ring = front :: rest →
              (t.layer y).state = .cued ∨ (t.layer y).state = .playing → (t.layer y).endFetched = false →
              let time : Int := ((t.layer y).origin.getD 0 : Int) + ((front.time.toNat : Int) - (t.layer y).cue.getD 0) +
                (t.layer y).latched.timeOffset
              let need := if front.kind = 1 then 2 else if front.kind = 6 then max 1 (t.keysHeld y).length else 1
              (c.position : Int) + 4400 < time ∨ 128 < t.sched.plan.length + need)))

/-- SYNC_PULSE while SYNC, RUNNING and not in FAULT: the error to the nearest multiple of the sync length, the higher of two,
decides between TRACKING with the clamped error owed and FAULT with SYNC raised in both sets; every other pulse is discarded
(R48). LOSS_INTERVAL_EXPIRY: 100·L µs after the later of the last pulse and the last entry to RUNNING, while SYNC, RUNNING
and TRACKING, the state is LOST with SYNC raised in both sets and the owed correction kept (R49); otherwise nothing changes,
which before its instant is the model's choice of notes/assumptions/3. -/
def Obligations.SyncPulsesAreMeasuredAndMissed : Prop :=
  (∀ s : State,
      let p : Int := s.clk.position
      let len : Int := s.clk.syncLength
      (¬ (s.clk.source = .sync ∧ s.clk.state = .running ∧ s.clk.tracking ≠ .fault) → exec .syncPulse s = .next s) ∧
      (s.clk.source = .sync → s.clk.state = .running → s.clk.tracking ≠ .fault → 0 < len →
        ∃ err : Int, len ∣ p + err ∧ -len < 2 * err ∧ 2 * err ≤ len ∧
          (-64 ≤ err ∧ err ≤ 64 → exec .syncPulse s =
            .next { s with clk := { s.clk with tracking := .tracking, owed := max (-8) (min 8 err), lastPulse := s.now } }) ∧
          (err < -64 ∨ 64 < err → exec .syncPulse s =
            .next (raiseBoth .sync { s with clk := { s.clk with tracking := .fault, owed := 0, lastPulse := s.now } })))) ∧
  ∀ s : State,
    (s.clk.source = .sync ∧ s.clk.state = .running ∧ s.clk.tracking = .tracking ∧
        s.clk.lastPulse + 100 * s.clk.syncLength ≤ s.now ∧ s.clk.entered + 100 * s.clk.syncLength ≤ s.now →
      exec .lossIntervalExpiry s = .next (raiseBoth .sync { s with clk := { s.clk with tracking := .lost } })) ∧
    (¬ (s.clk.source = .sync ∧ s.clk.state = .running ∧ s.clk.tracking = .tracking ∧
        s.clk.lastPulse + 100 * s.clk.syncLength ≤ s.now ∧ s.clk.entered + 100 * s.clk.syncLength ≤ s.now) →
      exec .lossIntervalExpiry s = .next s)

/-! ### The calibration map -/

/-- MAP WRITE of a key: BADVAL for the number, with an empty body; CALRUN for a key a run holds and BADVAL for a reserved
field or a field out of range, both with the entry as it stands; nothing changed in any of the three. Otherwise the entry is
replaced whole and SET with its run result kept, the check word follows the sum, and the reply gives the entry now stored. Of
a pedal the same without the run's test; a body of no entry is BADVAL (R57, R59, R60, R61, R176). A refusal that names no
entry, for a number out of range or a body of no entry, has no entry to reply: that its body is empty is the model's choice
of notes/assumptions/13. -/
def Obligations.MapWriteReplacesTheEntryWhole : Prop :=
  (∀ (l : Link) (n : Byte) (f : KeyFields) (reserved : Word16) (s : State),
      (s.link l).slots = .serving (.mapWrite (.key n f reserved)) →
      let good : Prop :=
        reserved = 0 ∧ f.t.toNat ≤ 4095 ∧ f.sd.toNat ≤ 4094 ∧ f.sd.toNat < f.t.toNat ∧
          (∀ i : Fin 9, (bankGet f.knots i).toNat ≤ 4095) ∧
          (∀ i j : Fin 9, i ≤ j → (bankGet f.knots i).toNat ≤ (bankGet f.knots j).toNat) ∧
          8192 ≤ f.g.toNat ∧ f.g.toNat ≤ 32767 ∧ f.lfix.toNat ≤ 20000 ∧ 1000 ≤ f.s.toNat ∧ f.s.toNat ≤ 6000 ∧
          400 ≤ f.rm.toNat ∧ f.rm.toNat ≤ 4000 ∧ f.rebound.toNat ≤ 40
      let answered (t : State) (st : Status) (body : List Byte) : Prop :=
        exec (.mapWrite l (.key n f reserved)) s = .next (t.replied l (.mapWrite (.key n f reserved)) st body)
      (87 < n.toNat → answered s .badVal []) ∧
      ∀ k : Key, n.toNat = k.val →
        let held := s.run.state ≠ .idle ∧ s.run.keys.getLsbD k.val = true
        (held → answered s .calRun (keyEntryBody s.map k)) ∧
        (¬ held → ¬ good → answered s .badVal (keyEntryBody s.map k)) ∧
        (¬ held → good → ∃ check,
          let e : KeyEntry :=
            { state := 1, t := f.t, sd := f.sd, knots := f.knots, g := f.g, lfix := f.lfix
              dLow := BitVec.ofNat 16 (f.dtravel.toNat % 65536), dHigh := BitVec.ofNat 16 (f.dtravel.toNat / 65536)
              s := f.s, rm := f.rm, rebound := BitVec.ofNat 16 f.rebound.toNat, result := (bankGet s.map.keys k).result }
          let m : CalMap := { s.map with keys := bankSet s.map.keys k e, check := check }
          m.sum - m.check = s.map.sum - s.map.check ∧ answered { s with map := m } .ok (keyEntryBody m k))) ∧
  ∀ (l : Link) (n : Byte) (f : PedalFields) (reserved : Byte) (bytes : List Byte) (s : State),
    let answered (w : MapBody) (t : State) (st : Status) (body : List Byte) : Prop :=
      (s.link l).slots = .serving (.mapWrite w) → exec (.mapWrite l w) s = .next (t.replied l (.mapWrite w) st body)
    let good : Prop :=
      reserved = 0 ∧ f.rest.toNat ≤ 4095 ∧ f.rest.toNat ≤ f.full.toNat ∧ f.full.toNat ≤ 4095 ∧ f.lead.toNat ≤ 2000 ∧
        1 ≤ f.deadband.toNat ∧ f.deadband.toNat ≤ 32
    answered (.other bytes) s .badVal [] ∧ (2 < n.toNat → answered (.pedal n f reserved) s .badVal []) ∧
    ∀ p : Pedal, n.toNat = p.val →
      (¬ good → answered (.pedal n f reserved) s .badVal (pedalEntryBody s.map p)) ∧
      (good → ∃ check,
        let e : PedalEntry :=
          { state := 1, rest := f.rest, full := f.full, lead := f.lead, deadband := BitVec.ofNat 16 f.deadband.toNat }
        let m : CalMap := { s.map with pedals := bankSet s.map.pedals p e, check := check }
        m.sum - m.check = s.map.sum - s.map.check ∧
          answered (.pedal n f reserved) { s with map := m } .ok (pedalEntryBody m p))

/-- MAP READ changes nothing but its link's slots and REPLY, and gives the entry's state, its body, a key's run result, the
integrity state and the check word; a class other than 0 or 1 or a number out of range is BADVAL (R58, section 11.4). Words of
a disturbed map are cut to the size of their item, the model's choice of notes/assumptions/19. -/
def Obligations.MapReadGivesTheEntry : Prop :=
  ∀ (l : Link) (cls number : Byte) (s : State), (s.link l).slots = .serving (.mapRead cls number) →
    let answered (st : Status) (body : List Byte) : Prop :=
      exec (.mapRead l cls number) s = .next (s.replied l (.mapRead cls number) st body)
    let tail : List Byte := [if s.map.integrity = .fault then 1 else 0] ++ bytes32 s.map.check
    (1 < cls.toNat ∨ cls = 0 ∧ 87 < number.toNat ∨ cls = 1 ∧ 2 < number.toNat → answered .badVal []) ∧
    (∀ k : Key, cls = 0 → number.toNat = k.val →
      let e := bankGet s.map.keys k
      answered .ok
        ([BitVec.ofNat 8 e.state.toNat, 0, number] ++ bytes16 e.t ++ bytes16 e.sd ++
          ((List.finRange 9).flatMap fun i => bytes16 (bankGet e.knots i)) ++ bytes16 e.g ++ bytes16 e.lfix ++
          [BitVec.ofNat 8 e.dHigh.toNat] ++ bytes16 e.dLow ++ bytes16 e.s ++ bytes16 e.rm ++
          [BitVec.ofNat 8 e.rebound.toNat, 0, 0, BitVec.ofNat 8 e.result.toNat] ++ tail)) ∧
    (∀ p : Pedal, cls = 1 → number.toNat = p.val →
      let e := bankGet s.map.pedals p
      answered .ok
        ([BitVec.ofNat 8 e.state.toNat, 1, number] ++ bytes16 e.rest ++ bytes16 e.full ++ bytes16 e.lead ++
          [BitVec.ofNat 8 e.deadband.toNat, 0] ++ tail))

/-- MAP CLEAR: CALRUN while a run is active, with nothing changed; otherwise every word and the check word are 0 and the state
is GOOD; notices already raised stay, and the plan and the keys stand (R62). MAP ACCEPT: the check word becomes the sum of
the storage as it stands and the state GOOD, in every state; no entry is changed and the reply gives GOOD and the word
(R63, R56). -/
def Obligations.MapClearAndAcceptEndFault : Prop :=
  (∀ (l : Link) (s : State), (s.link l).slots = .serving .mapClear →
      (s.run.state ≠ .idle → exec (.mapClear l) s = .next (s.replied l .mapClear .calRun [])) ∧
      (s.run.state = .idle → ∃ m : CalMap,
        exec (.mapClear l) s = .next (State.replied { s with map := m } l .mapClear .ok [0, 0, 0, 0, 0]) ∧
        (∀ k, ∀ w ∈ (bankGet m.keys k).words, w = 0) ∧ (∀ p, ∀ w ∈ (bankGet m.pedals p).words, w = 0) ∧
        m.check = 0 ∧ m.sum = 0 ∧ m.integrity = .good ∧ m.count = s.map.count)) ∧
  ∀ (l : Link) (s : State), (s.link l).slots = .serving .mapAccept →
    exec (.mapAccept l) s =
      .next (State.replied { s with map := { s.map with check := s.map.sum, integrity := .good } } l .mapAccept .ok
        ([0] ++ bytes32 s.map.sum)) ∧
    s.map.sum = BitVec.ofNat 32
      ((allKeys.flatMap fun k => (bankGet s.map.keys k).words.map BitVec.toNat).sum +
        (allPedals.flatMap fun p => (bankGet s.map.pedals p).words.map BitVec.toNat).sum)

/-- SERVICE_PERIOD at its instant: every key's heat falls by its 128th and rises by its applied sustain's 64th, held at 65535,
and WARM and HOT follow with their hysteresis; the map counts, and at 64 checks its storage in GOOD alone: a difference is
FAULT with MAP_FAULT in both sets. Nothing else changes (R38, R65, R66, R105, R142). INTEGRITY_CHECK is the map's half of the
event that brings the count to 64: taken first, it leaves the rest of that event to SERVICE_PERIOD, and the two together are
the event taken at once; elsewhere it changes nothing (the split of the event is the model's, notes/assumptions/8). -/
def Obligations.ServicePeriodCoolsAndCounts : Prop :=
  (∀ s : State, s.wall.service ≤ s.now → s.map.counted = false →
      let heated (d : DriveKey) : DriveKey :=
        let h := min 65535 (d.heat - d.heat / 128 + (if d.state = .sustain then d.appliedSustain else 0) / 64)
        { d with
          heat := h, warm := if 24000 ≤ h then true else if h < 20000 then false else d.warm
          hot := if 48000 ≤ h then true else if h < 40000 then false else d.hot }
      let found := s.map.count + 1 ≥ 64 ∧ s.map.integrity = .good ∧ s.map.sum ≠ s.map.check
      ∃ t, exec .servicePeriod s = .next t ∧ (∀ k, t.driveKey k = heated (s.driveKey k)) ∧
        (let u : State :=
          { s with
            wall := { s.wall with service := s.wall.service + 10000 }
            drive := { s.drive with keys := t.drive.keys }
            map := { s.map with
              count := if s.map.count + 1 < 64 then s.map.count + 1 else 0
              integrity := if found then .fault else s.map.integrity } }
         t = if found then raiseBoth .mapFault u else u)) ∧
  ∀ s : State, s.map.counted = false →
    (s.wall.service ≤ s.now → s.map.count = 63 →
      let found := s.map.integrity = .good ∧ s.map.sum ≠ s.map.check
      let u : State :=
        { s with map := { s.map with
          count := 0, counted := true, integrity := if found then .fault else s.map.integrity } }
      exec .integrityCheck s = .next (if found then raiseBoth .mapFault u else u)) ∧
    (s.now < s.wall.service ∨ s.map.count ≠ 63 → exec .integrityCheck s = .next s) ∧
    ∀ u, exec .integrityCheck s = .next u → exec .servicePeriod u = exec .servicePeriod s

/-- Every step keeps the map: its check word current, every SET entry in range with a run that can only write such entries; and
FAULT ends by MAP CLEAR, MAP ACCEPT and a power-on reset alone (R53, R55, R57, R62, R63, R64, R66). -/
def Obligations.EveryStepKeepsTheMap : Prop :=
  ∀ s t : State, step s = .next t →
    (CheckWordCurrent s → CheckWordCurrent t) ∧ (MapInRange s → MapInRange t) ∧
      (s.map.integrity = .fault → t.map.integrity = .good →
        ∃ c rest, s.pending = c :: rest ∧ ((∃ l, c = .mapClear l) ∨ (∃ l, c = .mapAccept l) ∨ c = .powerOnReset))

/-! ### The replay layers -/

/-- LAYER BIND: what cannot be read is BADVAL, a layer that is not FREE is STATE, a take number out of range BADVAL, a FREE take
NOTAKE and an OPEN one INUSE, each with nothing changed; a STREAM is bound to the sending link with an empty ring; a CLOSED
take has its count raised and its first records copied into the ring. Marks and settings are kept (R33, R35, R70, R71, R176).
STATE before BADVAL for the take number is the model's choice of notes/assumptions/23, the report's layout that of
notes/assumptions/13. -/
def Obligations.LayerBindGivesTheLayerItsSource : Prop :=
  ∀ (l : Link) (layer source take : Byte) (s : State), (s.link l).slots = .serving (.layerBind layer source take) →
    let answered (t : State) (st : Status) (body : List Byte) : Prop :=
      exec (.layerBind l layer source take) s = .next (t.replied l (.layerBind layer source take) st body)
    (1 < layer.toNat ∨ 1 < source.toNat ∨ source = 1 ∧ take ≠ 0 → answered s .badVal []) ∧
    ∀ y : LayerId, layer.toNat = y.code →
      let fresh (src : Source) (ring : List Record) (cursor : Nat) : Layer :=
        { (s.layer y) with
          state := .bound, source := some src, ring := ring, cursor := cursor, fedTime := 0, endFed := false, cue := none
          origin := none, chase := Vector.replicate 3 none, endFetched := false, demands := Vector.replicate 3 none
          highArmed := true, lowArmed := true }
      ((s.layer y).state ≠ .free → (source = 0 ∨ source = 1 ∧ take = 0) → answered s .state []) ∧
      ((s.layer y).state = .free →
        (source = 0 → 31 < take.toNat → answered s .badVal []) ∧
        (source = 1 → take = 0 →
          answered (s.setLayer y (fresh (.stream l) [] 0)) .ok (layerReport (fresh (.stream l) [] 0))) ∧
        ∀ t : TakeNo, source = 0 → take.toNat = t.val →
          ((s.store.entry t).state = .free → answered s .noTake []) ∧
          ((s.store.entry t).state = .opened → answered s .inUse []) ∧
          ((s.store.entry t).state = .closed → 0 < (s.layer y).low →
            let n := min 256 (s.store.entry t).length
            let bound := fresh (.take t) ((List.range n).map fun i => s.store.record t i) n
            answered
              (State.setLayer
                { s with store := s.store.setEntry t { (s.store.entry t) with bound := (s.store.entry t).bound + 1 } } y bound)
              .ok (layerReport bound)))

/-- LAYER FREE: BADVAL for a layer number other than 0 or 1 (R70), STATE for a FREE layer; otherwise the layer is FREE with its
marks and settings kept and everything else of it gone, none of its actions or key memories is left, no key is its own, and a
bound take's count is lowered by one. With the clock not RUNNING and nothing waiting for a slot, the keys it owned go to LETGO
and every other part stands (R33, R88, R127, R138). That a key let go from STRIKE loses its sustain demand and rebound gap is
the model's choice of notes/assumptions/21. -/
def Obligations.LayerFreeReleasesTheSource : Prop :=
  (∀ (l : Link) (layer : Byte) (s : State), (s.link l).slots = .serving (.layerFree layer) → 1 < layer.toNat →
    exec (.layerFree l layer) s = .next (s.replied l (.layerFree layer) .badVal [])) ∧
  ∀ (l : Link) (layer : Byte) (y : LayerId) (s : State), (s.link l).slots = .serving (.layerFree layer) →
    layer.toNat = y.code →
    ((s.layer y).state = .free → exec (.layerFree l layer) s = .next (s.replied l (.layerFree layer) .state [])) ∧
    ((s.layer y).state ≠ .free →
      let free : Layer := { Layer.reset with
        low := (s.layer y).low, high := (s.layer y).high, staged := (s.layer y).staged, latched := (s.layer y).latched }
      ∃ t, exec (.layerFree l layer) s = .next t ∧ t.layer y = free ∧
        (t.link l).slots = .reply { status := .ok, kind := 0x45, body := layerReport free } ∧
        (∀ a ∈ t.sched.plan, a.layer ≠ y) ∧ (∀ k m, bankGet t.sched.memory k = some m → m.layer ≠ y) ∧
        (DriveKeysSound s → ∀ k, (t.driveKey k).owner ≠ some y) ∧
        (∀ n, (t.store.entry n).bound =
          if (s.layer y).source = some (.take n) then (s.store.entry n).bound - 1 else (s.store.entry n).bound) ∧
        (s.clk.state ≠ .running → s.drive.queue = [] →
          t.layer y.other = s.layer y.other ∧ t.sched.plan = s.sched.plan.filter (fun a => a.layer ≠ y) ∧
          t.sched.drops = s.sched.drops ∧ t.link l.other = s.link l.other ∧
          (∀ k, t.driveKey k =
            (if ((s.driveKey k).state = .strike ∨ (s.driveKey k).state = .sustain) ∧ (s.driveKey k).owner = some y then
              { (s.driveKey k) with
                state := .letgo, owner := none, sustainDemand := none, reboundGap := none, sustain := none
                reboundEnd := none, letGoAt := some (s.now + 1000000) }
            else s.driveKey k)) ∧
          t.store.mem = s.store.mem ∧ t.store.pool = s.store.pool ∧ t.cap = s.cap ∧ t.clk = s.clk ∧ t.map = s.map ∧
          t.run = s.run ∧ t.wall = s.wall))

/-- LAYER MARKS, LAYER SET and LAYER INFO, in every state of the layer. MARKS: both marks clamped, the high one above the low;
no flow notice; a take layer left below its low mark is refilled. SET: every value in range, staged while RUNNING, latched at
once otherwise with the demands of pedals no longer passed gone; else BADVAL. INFO: the report, written out here; nothing
changes. A layer number other than 0 or 1 is BADVAL (R70, R73, R76, R77, R89, R176). The layouts of the layer report and of
LAYER SET's reply are the model's choice of notes/assumptions/13. -/
def Obligations.LayerMarksSettingsAndReport : Prop :=
  ∀ (l : Link) (layer low high : Byte) (raw : RawSettings) (s : State),
    let marks (t : State) (st : Status) (body : List Byte) : Prop := (s.link l).slots = .serving (.layerMarks layer low high) →
      exec (.layerMarks l layer low high) s = .next (t.replied l (.layerMarks layer low high) st body)
    let set (t : State) (st : Status) (body : List Byte) : Prop := (s.link l).slots = .serving (.layerSet layer raw) →
      exec (.layerSet l layer raw) s = .next (t.replied l (.layerSet layer raw) st body)
    let info (st : Status) (body : List Byte) : Prop := (s.link l).slots = .serving (.layerInfo layer) →
      exec (.layerInfo l layer) s = .next (s.replied l (.layerInfo layer) st body)
    (1 < layer.toNat → marks s .badVal [] ∧ set s .badVal [] ∧ info .badVal []) ∧
    ∀ y : LayerId, layer.toNat = y.code →
      let r := s.layer y
      (let lo := max 16 (min 240 low.toNat)
        let h := max 17 (min 255 high.toNat)
        let hi := if lo < h then h else lo + 1
        let body : List Byte := [BitVec.ofNat 8 lo, BitVec.ofNat 8 hi]
        ((∀ n, r.source = some (.take n) → ¬ (r.ring.length < lo ∧ r.cursor < (s.store.entry n).length)) →
          marks (s.setLayer y { r with low := lo, high := hi }) .ok body) ∧
        ∀ n, r.source = some (.take n) → r.ring.length < lo → r.cursor < (s.store.entry n).length →
          let c := min (256 - r.ring.length) ((s.store.entry n).length - r.cursor)
          marks
            (s.setLayer y { r with
              low := lo, high := hi, cursor := r.cursor + c
              ring := r.ring ++ (List.range c).map fun i => s.store.record n (r.cursor + i) }) .ok body) ∧
      (let good : Prop :=
          raw.flags.toNat < 32 ∧ raw.winLow.toNat ≤ raw.winHigh.toNat ∧ raw.winHigh.toNat ≤ 87 ∧
            -12 ≤ raw.transpose.toInt ∧ raw.transpose.toInt ≤ 12 ∧ raw.scale.toNat ≤ 32 ∧ raw.priority.toNat ≤ 7
        let bytes : List Byte :=
          [raw.winLow, raw.winHigh, raw.transpose, raw.scale, raw.velOffset] ++ bytes16 raw.timeOffset ++
            [raw.flags, raw.priority]
        (¬ good → set s .badVal []) ∧
        (good → ∃ st : Settings,
          st.winLow = raw.winLow.toNat ∧ st.winHigh = raw.winHigh.toNat ∧ st.transpose = raw.transpose.toInt ∧
          st.scale = raw.scale.toNat ∧ st.velOffset = raw.velOffset.toInt ∧ st.timeOffset = raw.timeOffset.toInt ∧
          st.mute = raw.flags.getLsbD 0 ∧ st.yieldKeys = raw.flags.getLsbD 1 ∧
          (∀ p : Pedal, bankGet st.pass p = raw.flags.getLsbD (2 + p.val)) ∧ st.priority = raw.priority.toNat ∧
          (s.clk.state = .running → set (s.setLayer y { r with staged := some st }) .ok (bytes ++ [0])) ∧
          (s.clk.state ≠ .running → ∃ t,
            set t .ok (bytes ++ [1]) ∧
            t.layer y = { r with latched := st, staged := none, demands := (t.layer y).demands } ∧
            (∀ p, bankGet (t.layer y).demands p = if bankGet st.pass p then bankGet r.demands p else none) ∧
            t = { (s.setLayer y (t.layer y)) with drive := { s.drive with pedals := t.drive.pedals } }))) ∧
      (let settings (st : Settings) : List Byte :=
          [BitVec.ofNat 8 st.winLow, BitVec.ofNat 8 st.winHigh, BitVec.ofInt 8 st.transpose, BitVec.ofNat 8 st.scale,
            BitVec.ofInt 8 st.velOffset] ++ bytes16 (BitVec.ofInt 16 st.timeOffset) ++
            [(if st.mute then 1 else 0) ||| (if st.yieldKeys then 2 else 0) ||| (if bankGet st.pass 0 then 4 else 0) |||
                (if bankGet st.pass 1 then 8 else 0) ||| (if bankGet st.pass 2 then 16 else 0),
              BitVec.ofNat 8 st.priority]
        let four (x : Option Nat) : List Byte := match x with
          | some n => bytes32 (BitVec.ofNat 32 n)
          | none => [255, 255, 255, 255]
        let flag (f : Bool) : Byte := if f then 1 else 0
        info .ok
          ([BitVec.ofNat 8 r.state.code] ++
            (match r.source with
              | some (.take n) => [0, BitVec.ofNat 8 n.val, 255]
              | some (.stream link) => [1, 255, if link = .a then 0 else 1]
              | none => [255, 255, 255]) ++
            bytes32 (BitVec.ofNat 32 r.ring.length) ++ [BitVec.ofNat 8 r.low, BitVec.ofNat 8 r.high] ++
            (match r.source with
              | some (.take _) => four (some r.cursor) ++ four none
              | some (.stream _) => four none ++ four (some r.fedTime)
              | none => four none ++ four none) ++
            [flag r.endFed, flag r.endFetched] ++ four r.cue ++ four r.origin ++ settings r.latched ++
            (match r.staged with
              | some st => settings st
              | none => List.replicate 9 255) ++
            (List.finRange 3).map fun p => match bankGet r.demands p with
              | some v => BitVec.ofNat 8 v
              | none => 255))

/-- LAYER FEED: BADVAL for a layer number other than 0 or 1 (R70), STATE for a FREE or ENDED layer or a take's, HELD for a link
that is not the binding link; otherwise the records join the ring in order up to the first that fails, whose test gives the
status, and the reply tells the count, the ring and the fed time; while the clock does not run that is all, but for
STREAM_HIGH where the ring passed its high mark while armed (R72, R74, R75). That the reply is formed before the takings of a
RUNNING clock is the model's choice of notes/assumptions/14. -/
def Obligations.LayerFeedStopsAtTheFirstRefusedRecord : Prop :=
  (∀ (l : Link) (layer : Byte) (rs : List Record) (s : State), (s.link l).slots = .serving (.layerFeed layer rs) →
    1 < layer.toNat → exec (.layerFeed l layer rs) s = .next (s.replied l (.layerFeed layer rs) .badVal [])) ∧
  ∀ (l : Link) (layer : Byte) (y : LayerId) (good rest : List Record) (status : Status) (s : State),
    let rs := good ++ rest
    (s.link l).slots = .serving (.layerFeed layer rs) → layer.toNat = y.code →
    let r := s.layer y
    let refused (st : Status) : Prop := exec (.layerFeed l layer rs) s = .next (s.replied l (.layerFeed layer rs) st [])
    (r.state = .free ∨ r.state = .ended ∨ (∀ link, r.source ≠ some (.stream link)) → refused .state) ∧
    (r.state ≠ .free → r.state ≠ .ended → r.source = some (.stream l.other) → refused .held) ∧
    (r.state ≠ .free → r.state ≠ .ended → r.source = some (.stream l) →
      let last := ((good.getLast?).map fun g => g.time.toNat).getD r.fedTime
      let ended := r.endFed || good.any Record.isEnd
      (good ≠ [] → r.endFed = false) → (∀ g ∈ good, g.legal = true ∧ r.fedTime ≤ g.time.toNat) →
      good.Pairwise (fun a b => a.time.toNat ≤ b.time.toNat ∧ a.isEnd = false) → r.ring.length + good.length ≤ 256 →
      (rest = [] ∧ status = .ok ∨ ∃ x more, rest = x :: more ∧
        (ended = true ∧ status = .state ∨
          ended = false ∧
            (x.legal = false ∧ status = .badVal ∨
              x.legal = true ∧
                (x.time.toNat < last ∧ status = .order ∨
                  last ≤ x.time.toNat ∧ r.ring.length + good.length = 256 ∧ status = .full)))) →
      let body : List Byte :=
        bytes32 (BitVec.ofNat 32 good.length) ++ bytes32 (BitVec.ofNat 32 (r.ring.length + good.length)) ++
          bytes32 (BitVec.ofNat 32 last)
      ∃ t, exec (.layerFeed l layer rs) s = .next t ∧
        (t.link l).slots = .reply { status := status, kind := 0x42, body := body } ∧
        (s.clk.state ≠ .running →
          let crosses := r.ring.length ≤ r.high ∧ r.high < r.ring.length + good.length ∧ r.highArmed = true
          let u := s.setLayer y
            { r with
              ring := r.ring ++ good, fedTime := last, endFed := ended
              highArmed := if crosses then false else r.highArmed, lowArmed := if crosses then true else r.lowArmed }
          t = State.replied (if crosses then raise l (if y = .l0 then .streamHigh0 else .streamHigh1) u else u) l
            (.layerFeed layer rs) status body))

/-- LAYER CUE: the refusals of R176 and then of R79 in their order, each leaving the layer as it was; otherwise the entry
boundary becomes the origin. A take layer is cued at the first record at the cue time or later, its ring refilled from there
and the last pedal values before it chased; a stream layer is cued at 0 with its ring kept unless it had ENDED. A RUNNING
clock at or above the origin takes the layer on to PLAYING at once (R34, R35, R79, R80, R81, R82). The counts of the reply
while RUNNING are the model's choice of notes/assumptions/14, the cue index after the report that of notes/assumptions/13. -/
def Obligations.LayerCuePlacesTheLayer : Prop :=
  ∀ (l : Link) (layer ck ek : Byte) (value tick : Word32) (s : State),
    let q : Request := .layerCue layer ck value ek tick
    (s.link l).slots = .serving q →
    let answered (t : State) (st : Status) (body : List Byte) : Prop :=
      exec (.layerCue l layer ck value ek tick) s = .next (t.replied l q st body)
    let base := if ek = 1 then s.clk.position else tick.toNat
    let o := if ek = 1 ∧ s.clk.state = .running then 200 * (base / 200 + 1) else 200 * ((base + 199) / 200)
    let inRange : Prop := (if ck = 0 then value.toNat ≤ 2147483647 else value.toNat ≤ 65535) ∧
      (ek = 1 ∨ tick.toNat ≤ 2147483647) ∧ o ≤ 2147483600
    let readable : Prop := layer.toNat ≤ 1 ∧ ck.toNat ≤ 1 ∧ ek.toNat ≤ 1 ∧ (ek = 1 → tick = 0)
    (¬ readable → answered s .badVal []) ∧
    ∀ y : LayerId, layer.toNat = y.code → readable →
      let r := s.layer y
      (r.state ≠ .bound → r.state ≠ .ended → answered s .state []) ∧
      (r.state = .bound ∨ r.state = .ended → ¬ inRange → answered s .badVal []) ∧
      (r.state = .bound ∨ r.state = .ended → inRange →
        let placed (cued : Layer) (tail : List Byte) : Prop :=
          (s.clk.state ≠ .running →
            answered (s.setLayer y cued) .ok (layerReport cued ++ tail)) ∧
          (s.clk.state = .running → ∃ t body, exec (.layerCue l layer ck value ek tick) s = .next t ∧
            (t.link l).slots = .reply { status := .ok, kind := q.kind, body := body } ∧ (t.layer y).origin = some o ∧
            (s.clk.position < o → (t.layer y).state = .cued ∧ body = layerReport cued ++ tail) ∧
            (o ≤ s.clk.position → (t.layer y).state = .playing ∨ (t.layer y).state = .ended))
        (∀ link, r.source = some (.stream link) →
          placed
            { r with
              state := .cued, cue := some 0, origin := some o, chase := Vector.replicate 3 none, endFetched := false
              ring := if r.state = .ended then [] else r.ring, fedTime := if r.state = .ended then 0 else r.fedTime
              endFed := if r.state = .ended then false else r.endFed } []) ∧
        ∀ n, r.source = some (.take n) →
          let e := s.store.entry n
          let rec_ := s.store.record n
          let marked (i : Nat) : Prop := (rec_ i).kind = 5 ∧ (rec_ i).value.toNat = value.toNat
          let from_ (c i : Nat) : Prop := c ≤ (rec_ i).time.toNat ∨ (rec_ i).kind = 6
          let pedal (p : Pedal) (i : Nat) : Prop := (rec_ i).kind = 4 ∧ (rec_ i).target.toNat = p.val
          (ck = 1 → (∀ i, i < e.length → ¬ marked i) → answered s .badVal []) ∧
          ∀ c j, 0 < r.low →
            (ck = 0 ∧ c = value.toNat ∨
              ck = 1 ∧ ∃ i, i < e.length ∧ marked i ∧ (∀ h, h < i → ¬ marked h) ∧ c = (rec_ i).time.toNat) →
            j < e.length → from_ c j → (∀ i, i < j → ¬ from_ c i) →
            ∃ chase : Bank (Option Nat) 3,
              (∀ p v, bankGet chase p = some v ↔
                ∃ i, i < j ∧ pedal p i ∧ (rec_ i).value.toNat = v ∧ ∀ h, i < h → h < j → ¬ pedal p h) ∧
              placed
                { r with
                  state := .cued, cue := some c, origin := some o, chase := chase, endFetched := false
                  ring := (List.range (min 256 (e.length - j))).map fun i => rec_ (j + i)
                  cursor := j + min 256 (e.length - j) }
                (bytes32 (BitVec.ofNat 32 j)))

/-! ### Strike arithmetic and the strike plan -/

/-- PLAN SET clamps and takes both values and reports them with the count of actions; DROPS READ reports the drop list oldest
first with the count of actions and both values, written out here, and changes nothing (R122, R123, R124). -/
def Obligations.PlanSetAndDropsRead : Prop :=
  ∀ (l : Link) (late rise : Word16) (s : State),
    ((s.link l).slots = .serving (.planSet late rise) →
      exec (.planSet l late rise) s =
        .next (State.replied
          { s with sched := { s.sched with late := min 200 late.toNat, rise := max 200 (min 2000 rise.toNat) } }
          l (.planSet late rise) .ok
          (bytes16 (BitVec.ofNat 16 (min 200 late.toNat)) ++ bytes16 (BitVec.ofNat 16 (max 200 (min 2000 rise.toNat))) ++
            bytes32 (BitVec.ofNat 32 s.sched.plan.length)))) ∧
    ((s.link l).slots = .serving .dropsRead →
      exec (.dropsRead l) s =
        .next (s.replied l .dropsRead .ok
          (bytes32 (BitVec.ofNat 32 s.sched.drops.length) ++
            (s.sched.drops.flatMap fun e =>
              [(match e.reason with
                  | .range => (0 : Byte)
                  | .unset => 1
                  | .merge => 2
                  | .late => 3
                  | .sag => 4
                  | .quiet => 5
                  | .blocked => 6
                  | .hot => 7
                  | .yielded => 8
                  | .missed => 9)] ++
                (match e.target with
                  | .key n => [0, BitVec.ofNat 8 n]
                  | .pedal n => [1, BitVec.ofNat 8 n]) ++
                [if e.layer = .l0 then 0 else 1] ++ bytes32 (BitVec.ofNat 32 e.event) ++
                (match e.velocity with
                  | some v => bytes16 (BitVec.ofNat 16 v)
                  | none => [255, 255])) ++
            bytes32 (BitVec.ofNat 32 s.sched.plan.length) ++ bytes16 (BitVec.ofNat 16 s.sched.late) ++
            bytes16 (BitVec.ofNat 16 s.sched.rise))))

/-- ALL OFF: the reply counts the actions removed. While the clock does not run, the plan, the key memory and the wait queue are
empty, every key in STRIKE or SUSTAIN is in LETGO, every present pedal demand is 0, a PLAYING layer whose END was taken and
which lost its last actions ENDS, and drops, captures, maps, runs and the clock stand (R86, R121, R125, R138). That a key let go
from STRIKE loses its sustain demand and rebound gap is the model's choice of notes/assumptions/21. -/
def Obligations.AllOffSilencesTheInstrument : Prop :=
  ∀ (l : Link) (s : State), (s.link l).slots = .serving .allOff →
    ∃ t, exec (.allOff l) s = .next t ∧
      (t.link l).slots =
        .reply { status := .ok, kind := 0x5A, body := bytes32 (BitVec.ofNat 32 s.sched.plan.length) } ∧
      t.clk = s.clk ∧ t.map = s.map ∧ t.run = s.run ∧ t.wall = s.wall ∧ t.drive.power = s.drive.power ∧
      (s.clk.state ≠ .running →
        t.sched = { s.sched with plan := [], memory := t.sched.memory } ∧ (∀ k, bankGet t.sched.memory k = none) ∧
        t.drive.queue = [] ∧ t.cap = s.cap ∧ t.store = s.store ∧
        (∀ k, t.driveKey k =
          (if (s.driveKey k).state = .strike ∨ (s.driveKey k).state = .sustain then
            { (s.driveKey k) with
              state := .letgo, owner := none, sustainDemand := none, reboundGap := none, sustain := none
              reboundEnd := none, letGoAt := some (s.now + 1000000) }
          else s.driveKey k)) ∧
        ∀ y,
          let ends := (s.layer y).state = .playing ∧ (s.layer y).endFetched = true ∧ ∃ a ∈ s.sched.plan, a.layer = y
          t.layer y = { (s.layer y) with
            state := if ends then .ended else (s.layer y).state, demands := (t.layer y).demands } ∧
          (ends → t.noticed .a .layerEnd = true ∧ t.noticed .b .layerEnd = true) ∧
          ∀ p, bankGet (t.layer y).demands p =
            (if ends then none else (bankGet (s.layer y).demands p).map fun _ => 0))

/-- The arithmetic of a strike stays where the rules put it: the captured velocity (R7), the layer velocity (R93), the corrected
velocity (R94), the curve between its knots (R95), the demand between T and 4095 (R96), the safe values in FAULT (R67, R97),
the lead and the flight within it (R98), the applied drive (R101), the pedal's drive (R103). -/
def Obligations.StrikeArithmeticStaysInRange : Prop :=
  (∀ spacing dt : Nat,
    1 ≤ hammerVelocity spacing dt ∧ hammerVelocity spacing dt ≤ 1023 ∧
    hammerVelocity spacing 0 = hammerVelocity spacing 1 ∧
    (0 < dt →
      (1 < hammerVelocity spacing dt → hammerVelocity spacing dt * (2 * dt) ≤ 400 * spacing + dt) ∧
      (hammerVelocity spacing dt < 1023 → 400 * spacing + dt < (hammerVelocity spacing dt + 1) * (2 * dt)))) ∧
  (∀ (v scale : Nat) (offset : Int), 1 ≤ layerVelocity v scale offset ∧ layerVelocity v scale offset ≤ 1023 ∧
    (1 ≤ v → v ≤ 1023 → layerVelocity v 16 0 = v)) ∧
  (∀ v g : Nat, 1 ≤ gainVelocity v g ∧ gainVelocity v g ≤ 1023 ∧ (1 ≤ v → v ≤ 1023 → gainVelocity v 16384 = v) ∧
    (512 ≤ v → gainVelocity v 32767 = 1023)) ∧
  (∀ (e : KeyEntry) (k : Fin 8) (frac : Nat), e.isSet = true → e.Sound → frac < 128 →
    let v := 128 * k.val + frac
    (e.knot k.castSucc : Int) ≤ curveAt e v ∧ curveAt e v ≤ (e.knot k.succ : Int) ∧
      curveAt e (128 * k.val) = (e.knot k.castSucc : Int)) ∧
  (∀ (e : KeyEntry) (v : Nat), e.isSet = true → e.Sound →
    let w := strikeValues e .good v
    e.t.toNat ≤ w.demand ∧ w.demand ≤ 4095 ∧ 1 ≤ w.lead ∧ w.lead ≤ 4000 ∧ (w.lead < 4000 → w.flight ≤ 50 * w.lead)) ∧
  (∀ (e : KeyEntry) (v : Nat), strikeValues e .fault v = StrikeValues.mk 1600 2000 100000) ∧
  (∀ (d : Drive) (demand : Nat), 0 < d.vnom → 0 < d.sagPercent →
    let vc := max d.vmeas ((d.vnom * d.sagPercent + 99) / 100)
    d.applied demand ≤ 4095 ∧ d.applied demand * vc ≤ demand * d.vnom + vc / 2 ∧
      (d.applied demand < 4095 → demand * d.vnom + vc / 2 < (d.applied demand + 1) * vc)) ∧
  (∀ (e : PedalEntry) (p q : Nat), e.Sound → p ≤ q →
    pedalDrive e 0 = e.restDrive ∧ pedalDrive e 255 = e.fullDrive ∧ pedalDrive e p ≤ pedalDrive e q)

/-- A STRIKE offered: the yield test, then the drive unit's table row by row. A refusal drops it with its own fields and
reason, a wait keeps it with the reason and only SLOT puts it in the wait queue, and taken it fires: the key is in STRIKE
with the applied drive, the fire, the heat and the map's sustain values (R101, R104, R118, R131, R132, R133, R142). A due
action carried out: a strike beyond the late tolerance at its first processing is dropped LATE before any other test, the
yield test too (the model's choice, notes/assumptions/28); a PEDAL hands its value to its layer, and where that changes the
demand the drive unit judges the pedal's new merged demand (R86, R146), which of a pedal whose entry is UNSET is the reading
of notes/assumptions/32; the owner's RELEASE lets the key go, a DEPRESS holds a key in REST while ACTIVE, and each leaves the
plan with no drop (R117, R137). At an advance every strike that has waited beyond the tolerance is dropped LATE, SAG or QUIET
by what it waited for (R120). The arbiter takes the queued strike first in due tick, priority, key and place, answers it, and
looks again while a slot is free (R132). That a key let go from STRIKE loses its sustain demand and rebound gap is the
model's choice of notes/assumptions/21, and that overdue strikes enter the drop list in plan order that of
notes/assumptions/29. The yield test and row 5 judge the last position by the repetition threshold in force when it was
sampled (R2), not by one a CAPTURE SET has given since: the model's choice of notes/assumptions/30. -/
def Obligations.OfferedStrikeFollowsTheTable : Prop :=
  (∀ (s : State) (a : Action) (k : Key) (v d f : Nat) (w : Option WaitReason), a.body = .strike k v d f w →
    let key := s.driveKey k
    let e := bankGet s.map.keys k
    let touched := key.repetitionAt ≤ key.lastPos.val
    let gone (t : State) : Prop :=
      t.sched.plan = s.sched.plan.filter (fun b => b.serial ≠ a.serial) ∧
        t.drive.queue = s.drive.queue.filter (fun n => n ≠ a.serial)
    let dropped (reason : DropReason) : Prop :=
      let t := offerStrike a k s
      gone t ∧ t.drive.keys = s.drive.keys ∧ t.store = s.store ∧ t.cap = s.cap ∧
        t.noticed .a .drops = true ∧ t.noticed .b .drops = true ∧
        t.sched.drops = (s.sched.drops ++ [DropEntry.mk reason (.key k.val) a.layer a.event (some v)]).drop
          (s.sched.drops.length + 1 - 16)
    let waits (reason : WaitReason) : Prop :=
      offerStrike a k s =
        { s with
          sched := { s.sched with plan := s.sched.plan.map fun b => if b.serial = a.serial then b.withWait reason else b }
          drive := { s.drive with
            queue := (s.drive.queue.filter fun n => n ≠ a.serial) ++ if reason = .slot then [a.serial] else [] } }
    let tooSoon := ∃ tick, key.lastFire = some tick ∧
      (s.clk.position : Int) - tick < (if e.state = 1 then e.rm.toNat else 1000)
    let yields := (s.layer a.layer).latched.yieldKeys = true ∧ key.state = .rest ∧ touched
    let row5 := key.state ≠ .rest ∨ touched ∨ tooSoon
    (yields → dropped .yielded) ∧
    (¬ yields → s.drive.power = .quiet ∨ s.drive.power = .quietPending → dropped .quiet) ∧
    (¬ yields → s.drive.power = .waking → waits .waking) ∧
    (¬ yields → s.drive.power = .active →
      (key.state = .blocked → dropped .blocked) ∧
      (key.state ≠ .blocked → key.hot = true → dropped .hot) ∧
      (key.state ≠ .blocked → key.hot = false → row5 → waits .key) ∧
      (key.state ≠ .blocked → key.hot = false → ¬ row5 → s.drive.sag = true → waits .sag) ∧
      (key.hot = false → ¬ row5 → s.drive.sag = false → s.drive.slots ≤ s.slotsHeld → waits .slot) ∧
      (key.hot = false → ¬ row5 → s.drive.sag = false → s.slotsHeld < s.drive.slots →
        let applied := s.drive.applied d
        let heat := min 65535 (key.heat + applied / 16)
        let t := offerStrike a k s
        (∀ b ∈ t.sched.plan, b.serial ≠ a.serial) ∧ a.serial ∉ t.drive.queue ∧
        (∀ j, j ≠ k → t.driveKey j = s.driveKey j) ∧
        t.driveKey k =
          { state := .strike, owner := some a.layer, lastPos := key.lastPos, lastFire := some s.clk.position
            fire := some
              { kind := .strike a.layer a.event v d f (s.now + f), firedAt := s.now, grace := s.now + f + 10000
                applied := applied }
            sustainDemand := some (if e.state = 1 then e.sd.toNat else 0)
            reboundGap := some (if e.state = 1 then e.rebound.toNat else 10), sustain := none, reboundEnd := none
            letGoAt := key.letGoAt, repetitionAt := key.repetitionAt, heat := heat
            warm := if 24000 ≤ heat then true else if heat < 20000 then false else key.warm
            hot := if 48000 ≤ heat then true else if heat < 40000 then false else key.hot }))) ∧
  (∀ (s : State) (a : Action),
    let t := carryOut a s
    let late : Int := (s.clk.position : Int) - a.due
    let left : Prop := t.sched.plan = s.sched.plan.filter fun b => b.serial ≠ a.serial
    let quietly : Prop := left ∧ t.sched.drops = s.sched.drops ∧ t.sched.memory = s.sched.memory
    (∀ k v d f w, a.body = .strike k v d f w →
      (w = none → (s.sched.late : Int) < late →
        left ∧ t.drive.keys = s.drive.keys ∧ t.noticed .a .drops = true ∧ t.noticed .b .drops = true ∧
          t.sched.drops = (s.sched.drops ++ [DropEntry.mk .late (.key k.val) a.layer a.event (some v)]).drop
            (s.sched.drops.length + 1 - 16)) ∧
      (w ≠ none ∨ late ≤ s.sched.late → t = offerStrike a k s)) ∧
    (∀ p v, a.body = .pedal p v →
      quietly ∧ t.drive.keys = s.drive.keys ∧
        ((t.layer a.layer).state = (s.layer a.layer).state →
          let passes := bankGet (s.layer a.layer).latched.pass p = true
          bankGet (t.layer a.layer).demands p = (if passes then some v else bankGet (s.layer a.layer).demands p) ∧
          (¬ passes ∨ bankGet (s.layer a.layer).demands p = some v → t.drive.pedals = s.drive.pedals) ∧
          (passes → bankGet (s.layer a.layer).demands p ≠ some v →
            PedalFollows s s.drive.power p (t.mergedDemand p) (bankGet t.drive.pedals p) ∧
              ∀ q, q ≠ p → bankGet t.drive.pedals q = bankGet s.drive.pedals q))) ∧
    (∀ k auto, a.body = .release k auto →
      let key := s.driveKey k
      let owned := (key.state = .strike ∨ key.state = .sustain) ∧ key.owner = some a.layer
      let u := s.setDriveKey k
        { key with
          state := .letgo, owner := none, sustainDemand := none, reboundGap := none, sustain := none, reboundEnd := none
          letGoAt := some (s.now + 1000000) }
      (owned → key.state = .strike → handRelease k a.layer s = arbiter u) ∧
      (owned → key.state = .sustain → handRelease k a.layer s = u) ∧ (¬ owned → handRelease k a.layer s = s) ∧
      (s.drive.queue = [] → quietly ∧ t.drive.keys = if owned then u.drive.keys else s.drive.keys)) ∧
    (∀ k d, a.body = .depress k d →
      quietly ∧ t.drive.keys =
        if (s.driveKey k).state = .rest ∧ s.drive.power = .active then
          bankSet s.drive.keys k
            { (s.driveKey k) with
              state := .sustain, owner := some a.layer, sustainDemand := some d, reboundGap := some 0
              sustain := some (s.drive.applied d), reboundEnd := none }
        else s.drive.keys)) ∧
  (∀ s : State, SerialsSound s → s.sched.drops.length ≤ 16 →
    let overdue (a : Action) : Bool := a.wait.isSome && decide ((s.sched.late : Int) < (s.clk.position : Int) - a.due)
    let entry (a : Action) : Option DropEntry := match a.body with
      | .strike k v _ _ (some w) =>
        let reason : DropReason := match w with
          | .key => .late
          | .slot => .late
          | .sag => .sag
          | .waking => .quiet
        some (DropEntry.mk reason (.key k.val) a.layer a.event (some v))
      | _ => none
    let t := judgeLateness s
    let all := s.sched.drops ++ (s.sched.plan.filter overdue).filterMap entry
    t.sched.plan = s.sched.plan.filter (fun a => !overdue a) ∧ t.drive.keys = s.drive.keys ∧
      t.drive.queue = s.drive.queue.filter (fun n => s.sched.plan.all fun a => decide (a.serial = n → ¬ overdue a)) ∧
      t.sched.memory = s.sched.memory ∧ t.sched.drops = all.drop (all.length - 16) ∧
      ((∃ a ∈ s.sched.plan, overdue a = true) → t.noticed .a .drops = true ∧ t.noticed .b .drops = true)) ∧
  ∀ s : State,
    let queued (a : Action) : Prop := a.serial ∈ s.drive.queue ∧ a.strikeKey?.isSome = true
    let priority (a : Action) : Nat := (s.layer a.layer).latched.priority
    (arbiterPick s = none → ∀ a ∈ s.sched.plan, ¬ queued a) ∧
    (s.drive.slots ≤ s.slotsHeld ∨ arbiterPick s = none → arbiter s = s) ∧
    ∀ a, arbiterPick s = some a → ∀ k, a.strikeKey? = some k →
      a ∈ s.sched.plan ∧ queued a ∧
      (∀ b ∈ s.sched.plan, queued b → ∀ j, b.strikeKey? = some j →
        a.due < b.due ∨ a.due = b.due ∧ (priority b < priority a ∨ priority b = priority a ∧
          (k < j ∨ k = j ∧ s.sched.plan.idxOf a ≤ s.sched.plan.idxOf b))) ∧
      (s.slotsHeld < s.drive.slots → arbiter s = arbiter
        (match offerTest k s with
          | none => takeStrike a s
          | some .taken => takeStrike a s
          | some (.wait w) => waitStrike w a s
          | some (.refused reason) => dropStrike reason a s))

/-- What a record taken from a ring becomes (R84, R92, R97, R99, R108, R112, R114, R115): discarded, dropped with its reason, or
an action inserted at its due tick; a STRIKE in conflict with the other layer's loses, and one on a key a layer holds gets
its auto-release first. An END sets end fetched and plans a RELEASE for every key the layer holds, in ascending order, closing
their memories; a PLAYING layer left without actions ENDS (R85, R116). Of two ready front records the earlier is taken first,
then the higher priority's, then Layer 0's, and takings go on until none is ready (R109, R110, R111). The event clock-time a
RANGE drop records, clamped into the clock's range, is the model's choice of notes/assumptions/20. -/
def Obligations.TakenRecordsBecomeActions : Prop :=
  (∀ (y : LayerId) (r : Record) (s : State),
    let lay := s.layer y
    let key := r.target.toNat
    let out := key < lay.latched.winLow ∨ lay.latched.winHigh < key
    let time : Int := (lay.origin.getD 0 : Int) + ((r.time.toNat : Int) - lay.cue.getD 0) + lay.latched.timeOffset
    let clamped : Nat := (max 0 (min 2147483647 time)).toNat
    let inRange := 0 ≤ time ∧ time ≤ 2147483647
    let drop (reason : DropReason) (target : DropTarget) (v : Option Nat) : Prop :=
      handRecord y r s = addDrop (DropEntry.mk reason target y clamped v) s
    let act (serial : Nat) (layer : LayerId) (event : Nat) (due : Int) (lead : Nat) (body : ActionBody) : Action :=
      { serial := serial, layer := layer, event := event, due := due, lead := lead, body := body }
    let plan (actions : List Action) (memory : Bank (Option KeyMemory) 88) : Prop :=
      handRecord y r s = { s with sched := { s.sched with
        plan := actions.foldl (fun p a => planInsert a p) s.sched.plan, memory := memory
        nextSerial := s.sched.nextSerial + actions.length } }
    let n := s.sched.nextSerial
    (r.kind = 5 → handRecord y r s = s) ∧
    (r.kind = 6 →
      let held (k : Key) : Bool := match bankGet s.sched.memory k with
        | some m => decide (m.layer = y)
        | none => decide (((s.driveKey k).state = .strike ∨ (s.driveKey k).state = .sustain) ∧ (s.driveKey k).owner = some y)
      let keys := allKeys.filter held
      let releases := keys.zipIdx.map fun x => act (n + x.2) y clamped clamped 0 (.release x.1 (some .ending))
      s.keysHeld y = keys ∧
      handRecord y r s =
        { (s.setLayer y { lay with endFetched := true }) with
          sched := { s.sched with
            plan := releases.foldl (fun p a => planInsert a p) s.sched.plan
            memory := bankMap (fun k m => if held k then none else m) s.sched.memory
            nextSerial := n + keys.length } } ∧
      (lay.state = .playing → keys = [] → (∀ a ∈ s.sched.plan, a.layer ≠ y) → ∀ rest, lay.ring = r :: rest →
        ((takeRecord y r s).layer y).state = .ended)) ∧
    (r.kind = 4 → ∀ p : Pedal, key = p.val →
      let e := bankGet s.map.pedals p
      (bankGet lay.latched.pass p = false → handRecord y r s = s) ∧
      (bankGet lay.latched.pass p = true →
        (¬ inRange → drop .range (.pedal p.val) none) ∧ (inRange → e.state ≠ 1 → drop .unset (.pedal p.val) none) ∧
        (inRange → e.state = 1 →
          plan [act n y clamped (time - e.lead.toNat) e.lead.toNat (.pedal p r.value.toNat)] s.sched.memory))) ∧
    (r.kind = 1 ∨ r.kind = 2 ∨ r.kind = 3 →
      (out → handRecord y r s = s) ∧ (r.kind ≠ 3 → lay.latched.mute = true → handRecord y r s = s) ∧
      (¬ out → (r.kind ≠ 3 → lay.latched.mute = false) →
        ((key : Int) + lay.latched.transpose < 0 ∨ 87 < (key : Int) + lay.latched.transpose →
          drop .range (.key key) none) ∧
        ∀ k : Key, (k.val : Int) = (key : Int) + lay.latched.transpose →
          let e := bankGet s.map.keys k
          let mem := bankGet s.sched.memory k
          let v := layerVelocity r.value.toNat lay.latched.scale lay.latched.velOffset
          (¬ inRange → drop .range (.key k.val) none) ∧
          (inRange → r.kind ≠ 3 → e.state ≠ 1 → drop .unset (.key k.val) (if r.kind = 1 then some v else none)) ∧
          (inRange → r.kind = 3 →
            plan [act n y clamped clamped 0 (.release k none)]
              (match mem with
                | some m => if m.layer = y then bankSet s.sched.memory k none else s.sched.memory
                | none => s.sched.memory)) ∧
          (inRange → r.kind = 2 → e.state = 1 →
            let lead := max 1 ((e.lfix.toNat + 49) / 50)
            plan [act n y clamped (time - lead) lead (.depress k e.sd.toNat)]
              (bankSet s.sched.memory k (some { layer := y, depress := true, event := clamped, serial := n }))) ∧
          (inRange → r.kind = 1 → e.state = 1 →
            let sv := strikeValues e s.map.integrity v
            let due : Int := time - sv.lead
            let rival (a : Action) : Prop :=
              a.layer = y.other ∧ (∃ v' d f w, a.body = .strike k v' d f w) ∧
                max a.event clamped - min a.event clamped < e.rm.toNat
            let wins := (s.layer y.other).latched.priority < lay.latched.priority ∨
              (s.layer y.other).latched.priority = lay.latched.priority ∧ y = .l0
            let strike (serial : Nat) : Action := act serial y clamped due sv.lead (.strike k v sv.demand sv.flight none)
            let opened (serial : Nat) : Bank (Option KeyMemory) 88 :=
              bankSet s.sched.memory k (some { layer := y, depress := false, event := clamped, serial := serial })
            let owned := (s.driveKey k).state = .strike ∨ (s.driveKey k).state = .sustain
            ((∃ a ∈ s.sched.plan, rival a) → ¬ wins → drop .merge (.key k.val) (some v)) ∧
            ((∀ a ∈ s.sched.plan, ¬ rival a) → mem = none → (owned → (s.driveKey k).owner = none) →
              plan [strike n] (opened n)) ∧
            ((∀ a ∈ s.sched.plan, ¬ rival a) →
              ∀ z ref, (∃ m, mem = some m ∧ z = m.layer ∧ ref = m.event) ∨
                  mem = none ∧ owned ∧ (s.driveKey k).owner = some z ∧ ref = s.clk.position →
                let at_ : Int := max (due - s.sched.rise) ref
                plan [act n z at_.toNat at_ 0 (.release k (some .repetition)), strike (n + 1)] (opened (n + 1))) ∧
            ((∃ a ∈ s.sched.plan, rival a) → wins →
              (∀ a ∈ (handRecord y r s).sched.plan, ¬ rival a) ∧
                ∃ b ∈ (handRecord y r s).sched.plan, b = strike b.serial))))) ∧
  ∀ s : State,
    let time (y : LayerId) (r : Record) : Int :=
      ((s.layer y).origin.getD 0 : Int) + ((r.time.toNat : Int) - (s.layer y).cue.getD 0) + (s.layer y).latched.timeOffset
    let need (y : LayerId) (r : Record) : Nat :=
      if r.kind = 1 then 2 else if r.kind = 6 then max 1 (s.keysHeld y).length else 1
    let ready (y : LayerId) (r : Record) : Prop :=
      (s.layer y).ring.head? = some r ∧ ((s.layer y).state = .cued ∨ (s.layer y).state = .playing) ∧
        (s.layer y).endFetched = false ∧ s.clk.state = .running ∧ time y r ≤ (s.clk.position : Int) + 4400 ∧
        s.sched.plan.length + need y r ≤ 128
    let priority (y : LayerId) : Nat := (s.layer y).latched.priority
    (∀ y r, nextTaking s = some (y, r) ↔
      ready y r ∧ ∀ q, ready y.other q →
        time y r < time y.other q ∨ time y r = time y.other q ∧
          (priority y.other < priority y ∨ priority y.other = priority y ∧ y = .l0)) ∧
    (nextTaking s = none → takeAll s = s) ∧
    ∀ y r, nextTaking s = some (y, r) → StoreSound s → BindingsAgree s → takeAll s = takeAll (takeRecord y r s)

/-! ### The drive unit -/

/-- GATE2_EVENT on a key the part is driving, REBOUND_END and STRIKE_GRACE_EXPIRY: a detection puts the key in SUSTAIN with its
rebound gap, or with its sustain drive where the gap is 0; the rebound end begins the sustain drive; a strike not seen by its
grace is MISSED and sustained at once; a strike cut before loses its fire alone. The sustain demand is compensated where the
drive begins. Shown whole for a scheduler with nothing to process (R11, R102, R134, R135, R136). That REBOUND_END and
STRIKE_GRACE_EXPIRY before their instant or with nothing to act on change nothing is the model's choice of notes/assumptions/3. -/
def Obligations.StrikesEndInSustain : Prop :=
  ∀ (k : Key) (s : State),
    let d := s.driveKey k
    let sustained (r : DriveKey) : DriveKey :=
      { r with sustain := some (s.drive.applied (r.sustainDemand.getD 0)), reboundEnd := none }
    let echoed : State := s.setCapKey k { (s.capKey k) with gate1At := none }
    let noFire : DriveKey := { d with fire := none }
    (∀ (fire : Fire) y event v demand flight intended, d.state = .strike → d.fire = some fire →
      fire.kind = .strike y event v demand flight intended → NothingToSchedule s →
      exec (.gate2Event k .toward) s = .next (echoed.setDriveKey k
        (if d.reboundGap.getD 0 = 0 then sustained { d with state := .sustain, fire := none }
        else
          { d with
            state := .sustain, fire := none, sustain := none
            reboundEnd := some (s.now + 50 * d.reboundGap.getD 0) }))) ∧
    (d.state = .letgo ∨ d.state = .blocked → d.fire.isSome = true →
      exec (.gate2Event k .toward) s = .next (echoed.setDriveKey k noFire)) ∧
    (d.state = .sustain ∨ (d.state = .letgo ∨ d.state = .blocked) ∧ d.fire = none →
      exec (.gate2Event k .toward) s = .next echoed) ∧
    (∀ t, d.state = .sustain → d.reboundEnd = some t → t ≤ s.now →
      exec (.reboundEnd k) s = .next (s.setDriveKey k (sustained d))) ∧
    (d.state ≠ .sustain ∨ d.reboundEnd = none ∨ (∃ t, d.reboundEnd = some t ∧ s.now < t) →
      exec (.reboundEnd k) s = .next s) ∧
    (∀ (fire : Fire) y event v demand flight intended, d.fire = some fire →
      fire.kind = .strike y event v demand flight intended → fire.grace ≤ s.now →
      (d.state = .strike → NothingToSchedule s →
        exec (.strikeGraceExpiry k) s =
          .next (addDrop { reason := .missed, target := .key k.val, layer := y, event := event, velocity := some v }
            (s.setDriveKey k (sustained { d with state := .sustain, fire := none })))) ∧
      (d.state = .letgo ∨ d.state = .blocked → exec (.strikeGraceExpiry k) s = .next (s.setDriveKey k noFire))) ∧
    (d.fire = none ∨ (∃ fire, d.fire = some fire ∧ (fire.kind = .pulse ∨ s.now < fire.grace)) →
      exec (.strikeGraceExpiry k) s = .next s)

/-- LET_GO_EXPIRY at its instant puts a key in LETGO into BLOCKED with KEY_FAULT in both sets; KEYS CLEAR returns each named
BLOCKED key below the repetition threshold to REST, and the capture unit takes it back, leaves every other key, and replies
their number and the named keys still BLOCKED; QUIET_PENDING ends with the last of them. Where the expiry is that of the key
whose pulse a CAL STOP cut, the run leaves STOPPING for IDLE with CAL_DONE in both sets, and KEY_FAULT as well if a key
failed (R13, R139, R140, R144, R162). Shown for a scheduler with nothing to process. That LET_GO_EXPIRY before its instant or
outside LETGO changes nothing is the model's choice of notes/assumptions/3. KEYS CLEAR judges the last position by the
repetition threshold in force when it was sampled (R2), the model's choice of notes/assumptions/30. -/
def Obligations.BlockedKeysAreEnteredAndCleared : Prop :=
  (∀ (k : Key) (s : State) (t : Nat), (s.driveKey k).state = .letgo → (s.driveKey k).letGoAt = some t →
    (t ≤ s.now → NothingToSchedule s →
      let ended := s.run.state = .stopping ∧ s.run.current = some k
      let u := raiseBoth .keyFault (s.setDriveKey k { (s.driveKey k) with state := .blocked, letGoAt := none })
      let v := raiseBoth .calDone
        { u with run := { s.run with state := .idle, keys := 0, current := none, copy := none, wait := .none } }
      (¬ ended → exec (.letGoExpiry k) s = .next u) ∧
      (ended → exec (.letGoExpiry k) s = .next (if s.run.failed then raiseBoth .keyFault v else v))) ∧
    (s.now < t → exec (.letGoExpiry k) s = .next s)) ∧
  (∀ (k : Key) (s : State), (s.driveKey k).state ≠ .letgo → exec (.letGoExpiry k) s = .next s) ∧
  ∀ (l : Link) (keys : BitVec 88) (s : State), (s.link l).slots = .serving (.keysClear keys) →
    let named (k : Key) : Bool := keys.getLsbD k.val && decide ((s.driveKey k).state = .blocked)
    let low (k : Key) : Bool := decide ((s.driveKey k).lastPos.val < (s.driveKey k).repetitionAt)
    ∃ t body, exec (.keysClear l keys) s = .next t ∧
      (t.link l).slots = .reply { status := .ok, kind := 0x60, body := body } ∧
      t.clk = s.clk ∧ t.map = s.map ∧ t.run = s.run ∧ t.wall = s.wall ∧
      (NothingToSchedule s →
        body = bytes32 (BitVec.ofNat 32 (allKeys.filter fun k => named k && low k).length) ++
          ((List.range 11).map fun i => (keySetOf fun k => named k && !low k).extractLsb' (8 * i) 8) ∧
        (∀ k, t.driveKey k =
          (if named k && low k then
            { (s.driveKey k) with
              state := .rest, owner := none, fire := none, sustainDemand := none, reboundGap := none, sustain := none
              reboundEnd := none, letGoAt := none }
          else s.driveKey k)) ∧
        (∀ k, t.capKey k =
          (if named k && low k then { (s.capKey k) with state := .up, gate1At := none, held := false }
          else s.capKey k)) ∧
        t.store = s.store ∧ t.sched = s.sched ∧ t.layer0 = s.layer0 ∧ t.layer1 = s.layer1 ∧
        (t.drive.power =
          if s.drive.power = .quietPending ∧ (∃ k, named k && low k = true) ∧ ∀ k, (t.driveKey k).state = .rest then .quiet
          else s.drive.power))

/-- Pedal demands, the supply and the drive power state. The merged demand of a pedal is the greatest of the layers' demands;
at a change of one, and for every pedal at the entry to ACTIVE, the drive unit judges it: a new compensated drive where none
is applied, at 0 and 255, and from the entry's deadband on, else the output held (R86, R103, R146), also for an UNSET entry
with R55's stand-ins, the reading of notes/assumptions/32. SUPPLY_READING at its instant becomes the measured supply, and SAG
is judged with its hysteresis of 8 while ACTIVE or QUIET_PENDING; WAKE_EXPIRY makes WAKING ACTIVE; QUIET ENTER and QUIET
LEAVE move between the states; each where the scheduler has nothing to process. QUIET ENTER is STATE while the clock is
RUNNING or a run is active (R143, R144, R145, R146). The model's choices here: an event before its instant changes nothing
(notes/assumptions/3), WAKING to QUIET_PENDING leaves the pedal outputs (17), a key let go from STRIKE loses its sustain
values (21). -/
def Obligations.SupplyAndPowerStates : Prop :=
  (∀ (s : State) (p : Pedal),
    (s.mergedDemand p = none ↔ ∀ y, bankGet (s.layer y).demands p = none) ∧
    (∀ n, s.mergedDemand p = some n → (∃ y, bankGet (s.layer y).demands p = some n) ∧
      ∀ y v, bankGet (s.layer y).demands p = some v → v ≤ n) ∧
    ∀ (y : LayerId) (v : Option Nat),
      let t := setDemand y p v s
      (bankGet (s.layer y).demands p = v → t = s) ∧
      (bankGet (s.layer y).demands p ≠ v →
        t.layer y = { (s.layer y) with demands := bankSet (s.layer y).demands p v } ∧
        (∀ z, z ≠ y → t.layer z = s.layer z) ∧
        PedalFollows s s.drive.power p (t.mergedDemand p) (bankGet t.drive.pedals p) ∧
        (∀ q, q ≠ p → bankGet t.drive.pedals q = bankGet s.drive.pedals q) ∧
        t.drive = { s.drive with pedals := t.drive.pedals } ∧
        t = { s with drive := t.drive, layer0 := t.layer0, layer1 := t.layer1 })) ∧
  ∀ s : State, NothingToSchedule s →
    let sags (live : Bool) (reading : Nat) : Bool :=
      if live then decide (reading < (s.drive.vnom * s.drive.sagPercent + 99) / 100 + 8)
      else decide (reading < (s.drive.vnom * s.drive.sagPercent + 99) / 100)
    let judged := s.drive.power = .active ∨ s.drive.power = .quietPending
    let now := sags s.drive.sag s.drive.vmeas
    let awake (t : State) : Prop :=
      t.drive.power = .active ∧ t.drive.wakeAt = none ∧ t.drive.sag = now ∧ t.drive.keys = s.drive.keys ∧
        (now = true → s.drive.sag = false → ∀ l, t.noticed l .sag = true) ∧
        ∀ p, PedalFollows s .active p (s.mergedDemand p) (bankGet t.drive.pedals p)
    (∀ v : SupplyReading,
      (s.wall.supply ≤ s.now →
        let live := if judged then sags s.drive.sag v.val else s.drive.sag
        let t : State :=
          { s with
            wall := { s.wall with supply := s.wall.supply + 1000 }, drive := { s.drive with vmeas := v.val, sag := live } }
        exec (.supplyReading v) s = .next (if live = true ∧ s.drive.sag = false then raiseBoth .sag t else t)) ∧
      (s.now < s.wall.supply → exec (.supplyReading v) s = .next s)) ∧
    (∀ at_, s.drive.power = .waking → s.drive.wakeAt = some at_ →
      (at_ ≤ s.now → ∃ t, exec .wakeExpiry s = .next t ∧ awake t ∧
        t.sched = s.sched ∧ t.cap = s.cap ∧ t.store = s.store ∧ t.clk = s.clk ∧ t.map = s.map ∧ t.run = s.run) ∧
      (s.now < at_ → exec .wakeExpiry s = .next s)) ∧
    (s.drive.power ≠ .waking → exec .wakeExpiry s = .next s) ∧
    ∀ l : Link,
      ((s.link l).slots = .serving .quietEnter →
        (s.clk.state = .running ∨ s.run.state ≠ .idle → exec (.quietEnter l) s = .next (s.replied l .quietEnter .state [])) ∧
        (s.clk.state ≠ .running → s.run.state = .idle →
          (s.drive.power = .quiet → exec (.quietEnter l) s = .next (s.replied l .quietEnter .ok [2])) ∧
          (s.drive.power = .quietPending → exec (.quietEnter l) s = .next (s.replied l .quietEnter .ok [1])) ∧
          (s.drive.power = .active ∨ s.drive.power = .waking →
            let rested := ∀ k, (s.driveKey k).state = .rest
            ∃ t : State, exec (.quietEnter l) s =
                .next (t.replied l .quietEnter .ok [if t.drive.power = .quiet then 2 else 1]) ∧
              t = { s with drive := t.drive } ∧ t.drive.wakeAt = none ∧
              (rested → t.drive.power = .quiet ∧ t.drive.sag = false ∧
                ∀ p, (bankGet t.drive.pedals p).output = 0 ∧ (bankGet t.drive.pedals p).applied = none) ∧
              (¬ rested → t.drive.power = .quietPending ∧ t.drive.sag = s.drive.sag ∧ t.drive.pedals = s.drive.pedals) ∧
              ∀ k, t.driveKey k =
                (if (s.driveKey k).state = .strike ∨ (s.driveKey k).state = .sustain then
                  { (s.driveKey k) with
                    state := .letgo, owner := none, sustainDemand := none, reboundGap := none, sustain := none
                    reboundEnd := none, letGoAt := some (s.now + 1000000) }
                else s.driveKey k)))) ∧
      ((s.link l).slots = .serving .quietLeave →
        (s.drive.power = .quiet → exec (.quietLeave l) s =
          .next (State.replied
            { s with drive := { s.drive with power := .waking, wakeAt := some (s.now + 200000) } } l .quietLeave .ok [])) ∧
        (s.drive.power = .active ∨ s.drive.power = .waking →
          exec (.quietLeave l) s = .next (s.replied l .quietLeave .ok [])) ∧
        (s.drive.power = .quietPending → ∃ t : State, exec (.quietLeave l) s = .next (t.replied l .quietLeave .ok []) ∧ awake t))

/-- DRIVE SET clamps and takes its three values, judges SAG at once and reports them with the sag threshold; DRIVE INFO reports
the drive unit as it stands, written out here, and changes nothing, or is BADVAL for a bad range (R143, R147, R148). That SAG is
not judged in QUIET and WAKING is the model's choice of notes/assumptions/16, the one pulse flag that of notes/assumptions/13. -/
def Obligations.DriveSetAndInfo : Prop :=
  ∀ (l : Link) (s : State),
    (∀ (slots sag : Byte) (vnom : Word16), (s.link l).slots = .serving (.driveSet slots vnom sag) →
      let n := max 4 (min 16 slots.toNat)
      let v := max 100 (min 1000 vnom.toNat)
      let p := max 60 (min 95 sag.toNat)
      let least := (v * p + 99) / 100
      let live : Bool :=
        if s.drive.power = .active ∨ s.drive.power = .quietPending then
          if s.drive.sag then decide (s.drive.vmeas < least + 8) else decide (s.drive.vmeas < least)
        else s.drive.sag
      let body : List Byte := [BitVec.ofNat 8 n] ++ bytes16 (BitVec.ofNat 16 v) ++ [BitVec.ofNat 8 p] ++
        bytes16 (BitVec.ofNat 16 least)
      ∃ t, exec (.driveSet l slots vnom sag) s = .next t ∧
        t.drive.slots = n ∧ t.drive.vnom = v ∧ t.drive.sagPercent = p ∧ t.drive.sag = live ∧
        (t.link l).slots = .reply { status := .ok, kind := 0x63, body := body } ∧
        (NothingToSchedule s →
          let u : State :=
            { s with drive := { s.drive with slots := n, vnom := v, sagPercent := p, sag := live } }
          t = State.replied (if live = true ∧ s.drive.sag = false then raiseBoth .sag u else u) l
            (.driveSet slots vnom sag) .ok body)) ∧
    ∀ first count : Byte, (s.link l).slots = .serving (.driveInfo first count) →
      let f := first.toNat
      let n := count.toNat
      let d := s.drive
      let flag (b : Bool) : Byte := if b then 1 else 0
      (87 < f ∨ n < 1 ∨ 32 < n ∨ 88 < f + n →
        exec (.driveInfo l first count) s = .next (s.replied l (.driveInfo first count) .badVal [])) ∧
      (f ≤ 87 → 1 ≤ n → n ≤ 32 → f + n ≤ 88 →
        exec (.driveInfo l first count) s = .next (s.replied l (.driveInfo first count) .ok
          ([BitVec.ofNat 8 d.power.code, flag (decide (d.power ≠ .quiet)), flag d.sag] ++ bytes16 (BitVec.ofNat 16 d.vmeas) ++
            bytes16 (BitVec.ofNat 16 d.vnom) ++ [BitVec.ofNat 8 d.sagPercent] ++
            bytes16 (BitVec.ofNat 16 ((d.vnom * d.sagPercent + 99) / 100)) ++ [BitVec.ofNat 8 d.slots] ++
            bytes32 (BitVec.ofNat 32
              (allKeys.filter fun k => decide ((s.driveKey k).state = .strike) || decide ((s.driveKey k).state = .probe)).length) ++
            bytes32 (BitVec.ofNat 32 d.queue.length) ++
            [flag (d.pulse.isSome || decide (∃ k ∈ allKeys, (s.driveKey k).state = .probe))] ++
            ((allKeys.filter fun k => decide (f ≤ k.val) && decide (k.val < f + n)).flatMap fun k =>
              let r := s.driveKey k
              [(match r.state with
                  | .rest => (0 : Byte)
                  | .strike => 1
                  | .sustain => 2
                  | .letgo => 3
                  | .probe => 4
                  | .blocked => 5),
                (match r.owner with
                  | some .l0 => 0
                  | some .l1 => 1
                  | none => 255)] ++ bytes16 (BitVec.ofNat 16 r.heat) ++ [flag r.warm, flag r.hot]) ++
            (allPedals.flatMap fun p =>
              [(match (bankGet d.pedals p).merged with
                  | some m => BitVec.ofNat 8 m
                  | none => 255)] ++ bytes16 (BitVec.ofNat 16 (bankGet d.pedals p).output)))))

/-! ### Calibration runs -/

/-- CAL RUN: BADVAL, CALRUN and STATE in the order of R150's table, with nothing changed; otherwise the run is RUNNING with its
options and takes its highest key: the entry is copied, a BLOCKED key is put into REST, and a rest wait begins; a proof over
UNSET keys ends at once with NO_STRIKE for each. CAL STOP: STATE in IDLE, no change in STOPPING; a RUNNING run withdraws its
pulse, writes ABORTED, and is IDLE, or STOPPING while a cut key is in LETGO (R150, R151, R154, R158, R161, R162). -/
def Obligations.CalRunStartsAndStops : Prop :=
  (∀ (l : Link) (kind stop repeats : Byte) (keys : BitVec 88) (velocity : Word16) (s : State),
    let q : Request := .calRun kind keys stop velocity repeats
    (s.link l).slots = .serving q →
    let answered (t : State) (st : Status) (body : List Byte) : Prop :=
      exec (.calRun l kind keys stop velocity repeats) s = .next (t.replied l q st body)
    let good : Prop := kind.toNat ≤ 1 ∧ stop.toNat ≤ 1 ∧ keys ≠ 0 ∧ 40 ≤ velocity.toNat ∧ velocity.toNat ≤ 1000 ∧
      1 ≤ repeats.toNat ∧ repeats.toNat ≤ 8
    (¬ good → answered s .badVal []) ∧ (good → s.run.state ≠ .idle → answered s .calRun []) ∧
    (good → s.run.state = .idle → s.clk.state ≠ .stopped ∨ s.drive.power ≠ .active → answered s .state []) ∧
    (good → s.run.state = .idle → s.clk.state = .stopped → s.drive.power = .active →
      ∀ top : Key, keys.getLsbD top.val = true → (∀ k : Key, top < k → keys.getLsbD k.val = false) →
        let e := bankGet s.map.keys top
        let body : List Byte := [1, kind] ++ bytes32 (BitVec.ofNat 32 (keysOf keys).length) ++ [BitVec.ofNat 8 top.val]
        let sv := strikeValues e s.map.integrity velocity.toNat
        let rk : RunKind := if kind = 0 then .threshold else .proof
        let run : RunController :=
          { state := .running, kind := rk, keys := keys, current := some top
            copy := some { entry := e, integrity := s.map.integrity }, phase := .first
            level := if kind = 0 then (if e.state = 1 then e.t.toNat - 128 else 0) else sv.demand
            flight := if kind = 0 then 0 else sv.flight, lead := if kind = 0 then 0 else sv.lead
            lastMiss := none, coarse := none, probes := 0, velSum := 0, errSum := 0, hits := 0
            wait := .rest (s.now + 2000000), lastFire := none, failed := false, stopOnFault := decide (stop = 1)
            velocity := velocity.toNat, repeats := repeats.toNat }
        (kind = 0 ∨ e.state = 1 →
          ((s.driveKey top).state ≠ .blocked → answered { s with run := run } .ok body) ∧
          ((s.driveKey top).state = .blocked →
            answered
              { ((s.setDriveKey top (s.driveKey top).resting).setCapKey top
                  { (s.capKey top) with state := .up, gate1At := none, held := false }) with run := run } .ok body)) ∧
        (kind = 1 → stop = 0 →
          (∀ k : Key, keys.getLsbD k.val = true →
            (bankGet s.map.keys k).state ≠ 1 ∧ (s.driveKey k).state ≠ .blocked) →
          ∃ t, exec (.calRun l kind keys stop velocity repeats) s = .next t ∧
            (t.link l).slots = .reply { status := .ok, kind := 0x70, body := body } ∧
            t.run.state = .idle ∧ t.run.keys = 0 ∧ t.run.current = none ∧
            (∀ m, t.noticed m .calDone = true ∧ t.noticed m .keyFault = true) ∧
            (∀ k : Key, bankGet t.map.keys k =
              if keys.getLsbD k.val then { (bankGet s.map.keys k) with result := 2 } else bankGet s.map.keys k) ∧
            t.map.pedals = s.map.pedals ∧ t.map.sum - t.map.check = s.map.sum - s.map.check ∧
            t.drive = s.drive ∧ t.clk = s.clk ∧ t.cap = s.cap ∧ t.store = s.store ∧ t.sched = s.sched))) ∧
  ∀ (l : Link) (s : State), (s.link l).slots = .serving .calStop →
    let answered (t : State) (st : Status) (body : List Byte) : Prop :=
      exec (.calStop l) s = .next (t.replied l .calStop st body)
    (s.run.state = .idle → answered s .state []) ∧
    (s.run.state = .stopping → answered s .ok
      [2, (match s.run.current with
        | some k => BitVec.ofNat 8 k.val
        | none => 255)]) ∧
    ∀ k, s.run.state = .running → s.run.current = some k → ∃ check,
      let m : CalMap :=
        { s.map with keys := bankSet s.map.keys k { (bankGet s.map.keys k) with result := 6 }, check := check }
      let d := s.driveKey k
      m.sum - check = s.map.sum - s.map.check ∧
      (d.state ≠ .probe →
        let u : State :=
          { s with
            map := m, drive := { s.drive with pulse := none }
            run := { s.run with state := .idle, keys := 0, current := none, copy := none, wait := .none } }
        let v := raiseBoth .calDone u
        answered (if s.run.failed then raiseBoth .keyFault v else v) .ok [0, BitVec.ofNat 8 k.val]) ∧
      (d.state = .probe → NothingToSchedule s →
        answered
          (State.setDriveKey
            { s with
              map := m, drive := { s.drive with pulse := none }, run := { s.run with state := .stopping, wait := .none } }
            k { (d.lettingGo s.now) with fire := none })
          .ok [2, BitVec.ofNat 8 k.val])

/-- PULSE_REQUEST asks for a pulse once the current key is at rest, 150,000 µs after the last fire, where no other pulse is
pending or in flight. PULSE_FIRE fires the pending pulse on a key in REST that is not HOT, outside SAG, with a slot free: the
key is in PROBE with the compensated level for at most 120,000 µs, its heat rises and the run counts the probe. REST_DEADLINE
ends the key DISTURBED where it is not at rest (R141, R152, R153, R161). In every other case nothing changes, which before a
deadline or with no pulse pending is the model's choice of notes/assumptions/3. Both rest waits judge the key's last position
by the repetition threshold in force when it was sampled (R2), the model's choice of notes/assumptions/30. -/
def Obligations.CalibrationPulses : Prop :=
  ∀ s : State,
    (∀ k deadline, s.run.state = .running → s.run.wait = .rest deadline → s.run.current = some k →
      let ready : Prop :=
        (s.driveKey k).state = .rest ∧ (s.driveKey k).lastPos.val < (s.driveKey k).repetitionAt ∧
          (∀ t, s.run.lastFire = some t → t + 150000 ≤ s.now) ∧ s.drive.pulse = none ∧
          ∀ j, (s.driveKey j).state ≠ .probe
      (ready → exec .pulseRequest s =
        .next { s with
          run := { s.run with wait := .pending }, drive := { s.drive with pulse := some (PendingPulse.mk k s.run.level) } }) ∧
      (¬ ready → exec .pulseRequest s = .next s)) ∧
    (s.run.state ≠ .running ∨ s.run.current = none ∨ (∀ deadline, s.run.wait ≠ .rest deadline) →
      exec .pulseRequest s = .next s) ∧
    ((s.drive.pulse = none → exec .pulseFire s = .next s) ∧
      ∀ p, s.drive.pulse = some p →
        let d := s.driveKey p.key
        let free := d.state = .rest ∧ d.hot = false ∧ s.drive.sag = false ∧ s.slotsHeld < s.drive.slots
        (¬ free → exec .pulseFire s = .next s) ∧
        (free → (s.capKey p.key).held = false ∨ s.cap.state ≠ .recording →
          let applied := s.drive.applied p.level
          let heat := min 65535 (d.heat + applied / 16)
          let r : DriveKey :=
            { d with
              state := .probe, owner := none, heat := heat
              fire := some { kind := .pulse, firedAt := s.now, grace := s.now + 120000, applied := applied }
              warm := if 24000 ≤ heat then true else if heat < 20000 then false else d.warm
              hot := if 48000 ≤ heat then true else if heat < 40000 then false else d.hot }
          let u : State := { s with drive := { s.drive with pulse := none } }
          let t := (u.setDriveKey p.key r).setCapKey p.key { (s.capKey p.key) with state := .up, gate1At := none, held := false }
          exec .pulseFire s =
            .next (if s.run.wait = .pending ∧ s.run.current = some p.key then
              { t with run := { s.run with probes := s.run.probes + 1, lastFire := some s.now, wait := .inFlight } }
            else t))) ∧
    (∀ k deadline, s.run.state = .running → s.run.wait = .rest deadline → s.run.current = some k →
      let atRest := (s.driveKey k).state = .rest ∧ (s.driveKey k).lastPos.val < (s.driveKey k).repetitionAt
      (s.now < deadline ∨ atRest → exec .restDeadline s = .next s) ∧
      (deadline ≤ s.now → ¬ atRest → ∃ t, exec .restDeadline s = .next t ∧
        bankGet t.map.keys k = { (bankGet s.map.keys k) with result := 5 } ∧
        (∀ j, k < j → bankGet t.map.keys j = bankGet s.map.keys j) ∧
        t.map.sum - t.map.check = s.map.sum - s.map.check ∧ t.run.failed = true ∧ t.run.current ≠ some k ∧
        (s.run.stopOnFault = true → t.run.state = .idle ∧ ∀ l, t.noticed l .calDone = true ∧ t.noticed l .keyFault = true))) ∧
    (s.run.state ≠ .running ∨ s.run.current = none ∨ (∀ deadline, s.run.wait ≠ .rest deadline) →
      exec .restDeadline s = .next s)

/-- The answer to a pulse in flight, a hit by a gate-2 event or a miss by PULSE_GRACE_EXPIRY: the key goes to LETGO, and the run
goes on as the search's phases or the proof's count give, with a fresh rest wait, or the key ends with the result and the
values R157 and R159 write (R141, R154, R155, R156, R157, R158, R159, R160, R161). That a proof in the map's FAULT ends
NO_STRIKE for hits without a velocity is the model's choice of notes/assumptions/22. -/
def Obligations.PulseAnswersMoveTheRun : Prop :=
  ∀ (k : Key) (s : State) (fire : Fire) (hit : Bool), NothingToSchedule s → (s.driveKey k).state = .probe →
    (s.driveKey k).fire = some fire → fire.kind = .pulse → (hit = false → fire.grace ≤ s.now) →
    let c : Instr := if hit then .gate2Event k .toward else .pulseGraceExpiry k
    let base : State := if hit then s.setCapKey k { (s.capKey k) with gate1At := none } else s
    let freed : DriveKey := { ((s.driveKey k).lettingGo s.now) with fire := none }
    let u := base.setDriveKey k freed
    let r := s.run
    let answered := r.state = .running ∧ r.wait = .inFlight ∧ r.current = some k
    let waits (run : RunController) : Prop :=
      exec c s = .next { u with run := { run with wait := .rest (s.now + 2000000) } }
    let e := bankGet s.map.keys k
    let ends (e' : KeyEntry) (result : Word16) : Prop :=
      ∃ t, exec c s = .next t ∧ bankGet t.map.keys k = { e' with result := result } ∧
        (∀ j, k < j → bankGet t.map.keys j = bankGet s.map.keys j) ∧
        t.map.sum - t.map.check = s.map.sum - s.map.check ∧ t.driveKey k = freed ∧ t.run.current ≠ some k ∧
        ((∀ j : Key, j < k → r.keys.getLsbD j.val = false) →
          t.run.state = .idle ∧ ∀ l, t.noticed l .calDone = true ∧
            (result ≠ 1 ∨ r.failed = true → t.noticed l .keyFault = true))
    let velocity := passageVelocity k s
    (¬ answered → exec c s = .next u) ∧
    (answered → r.kind = .threshold → ∀ copy, r.copy = some copy →
      let found (t : Nat) : Prop :=
        if copy.entry.state = 1 then
          ends { e with t := BitVec.ofNat 16 t, sd := if t ≤ e.sd.toNat then BitVec.ofNat 16 (t - 64) else e.sd } 1
        else
          ends
            { state := 1, t := BitVec.ofNat 16 t, sd := BitVec.ofNat 16 (t - 64), g := 16384, lfix := 6000, dLow := 21568
              dHigh := 137, s := 3000, rm := 1000, rebound := 10, result := 0
              knots := Vector.ofFn fun i => BitVec.ofNat 16 (t + ((4095 - t) * i.val + 4) / 8) } 1
      let next (run : RunController) (level : Nat) : Prop :=
        if r.probes < 64 then waits { run with level := level } else ends e 4
      let fine (run : RunController) (coarse level : Nat) : Prop :=
        if coarse ≤ level then found coarse else next { run with phase := .fine } level
      (hit = true → r.level < 4 → ends e 3) ∧
      (hit = true → 4 ≤ r.level →
        (r.phase = .first ∨ r.phase = .down → next { r with coarse := some r.level, phase := .down } (r.level - 32)) ∧
        (∀ m, r.phase = .up → r.lastMiss = some m → fine { r with coarse := some r.level } r.level (m + 4)) ∧
        (r.phase = .fine → found r.level)) ∧
      (hit = false →
        (r.phase = .first → next { r with lastMiss := some r.level, phase := .up } (r.level + 32)) ∧
        (r.phase = .up → r.level + 32 ≤ 4095 → next { r with lastMiss := some r.level } (r.level + 32)) ∧
        (r.phase = .up → 4095 < r.level + 32 → ends e 2) ∧
        (∀ coarse, r.coarse = some coarse →
          (r.phase = .down → fine { r with lastMiss := some r.level } coarse (r.level + 4)) ∧
          (r.phase = .fine → fine r coarse (r.level + 4))))) ∧
    (answered → r.kind = .proof → ∀ copy, r.copy = some copy →
      let seen := if hit then velocity else none
      let sum := r.velSum + seen.getD 0
      let err : Int := r.errSum + if seen.isSome then (s.now : Int) - (fire.firedAt + r.flight) else 0
      let n := r.hits + if seen.isSome then 1 else 0
      (r.probes < r.repeats → waits { r with velSum := sum, errSum := err, hits := n }) ∧
      (r.repeats ≤ r.probes →
        (n = 0 → ends e 2) ∧ (0 < n → copy.integrity = .fault → ends e 1) ∧
        (0 < n → copy.integrity = .good →
          let v := (2 * sum + n) / (2 * n)
          let mean : Int := (2 * err + n) / (2 * n)
          let g := max 8192 (min 32767 ((2 * copy.entry.g.toNat * r.velocity + v) / (2 * v)))
          (-10000 ≤ mean → mean ≤ 10000 →
            ends { e with
              g := BitVec.ofNat 16 g
              lfix := BitVec.ofNat 16 (max 0 (min 20000 ((copy.entry.lfix.toNat : Int) + mean))).toNat } 1) ∧
          (mean < -10000 ∨ 10000 < mean → ends { e with g := BitVec.ofNat 16 g } 7))))

/-! ### What always holds -/

/-- Every step keeps every configuration value in its range and the position within its own, only a STOPPED clock standing at the
limit; and the position falls only through CLOCK LOCATE or a reset (R2, R20, R40, R46, R47, R72, R73, R76, R122, R124, R147). -/
def Obligations.EveryStepKeepsTheRanges : Prop :=
  ∀ s t : State, step s = .next t →
    (ControlsInRange s → ControlsInRange t) ∧ (ClockInRange s → ClockInRange t) ∧
      (ClockInRange s → t.clk.position < s.clk.position →
        ∃ c rest, s.pending = c :: rest ∧
          ((∃ l v, c = .clockLocate l v) ∨ (∃ l, c = .partReset l) ∨ c = .powerOnReset))

/-- Every step keeps the plan within its places, in due order and empty while the clock is STOPPED, the serial numbers of its
actions their own (the model's, notes/assumptions/11), demands and PEDAL actions to layers in replay, every key's owner, fire
and heat in agreement with its state, and at most 16 slots held; and a key leaves BLOCKED only by KEYS CLEAR naming it, by a
run that takes it, or by a reset (R70, R86, R107, R104, R105, R129, R132, R140). -/
def Obligations.EveryStepKeepsThePlanAndTheDrive : Prop :=
  ∀ s t : State, step s = .next t →
    (PlanSound s → PlanSound t) ∧ (SerialsSound s → SerialsSound t) ∧ (DemandsOnlyInReplay s → DemandsOnlyInReplay t) ∧
      (DriveKeysSound s → DriveKeysSound t) ∧ (SlotsBounded s → SlotsBounded t) ∧
      ∀ k : Key, (s.driveKey k).state = .blocked → (t.driveKey k).state ≠ .blocked →
        ∃ c rest, s.pending = c :: rest ∧
          ((∃ l keys, c = .keysClear l keys ∧ keys.getLsbD k.val = true) ∨
            (∃ l kind keys stop v n, c = .calRun l kind keys stop v n ∧ keys.getLsbD k.val = true) ∨
            ((∃ j, c = .gate2Event j .toward ∨ c = .pulseGraceExpiry j ∨ c = .restDeadline) ∧ s.run.state = .running ∧
              s.run.keys.getLsbD k.val = true) ∨
            (∃ l, c = .partReset l) ∨ c = .powerOnReset)

/-- The part at the end of its power-on reset meets every property that the statements above say each step keeps (R174). -/
def Obligations.ResetMeetsEveryInvariant : Prop :=
  MemoryCanonical State.reset ∧ StoreSound State.reset ∧ BindingsAgree State.reset ∧ CaptureSound State.reset ∧
    CheckWordCurrent State.reset ∧ MapInRange State.reset ∧ ControlsInRange State.reset ∧ ClockInRange State.reset ∧ PlanSound State.reset ∧
    SerialsSound State.reset ∧ DemandsOnlyInReplay State.reset ∧ DriveKeysSound State.reset ∧ SlotsBounded State.reset
end

