-- ==== Sys2Proof/Laws/State.lean ====
section
/-! SUPPORT. What each update of the state leaves: one lemma per field per update, true by unfolding, for simp. -/

namespace Sys2Proof.Machine

/-! ### Banks -/

@[simp] theorem bankGet_bankSet_same {α : Type} {n : Nat} (b : Bank α n) (k : Fin n) (x : α) :
    bankGet (bankSet b k x) k = x := by simp [bankGet, bankSet]

theorem bankGet_bankSet_other {α : Type} {n : Nat} (b : Bank α n) {k j : Fin n} (x : α) (h : j ≠ k) :
    bankGet (bankSet b k x) j = bankGet b j := by
  have h' : k.val ≠ j.val := fun e => h (Fin.ext e.symm)
  simp [bankGet, bankSet, h']

theorem bankGet_bankSet {α : Type} {n : Nat} (b : Bank α n) (k j : Fin n) (x : α) :
    bankGet (bankSet b k x) j = if j = k then x else bankGet b j := by
  by_cases h : j = k
  · subst h; simp
  · simp [h, bankGet_bankSet_other]

@[simp] theorem bankGet_bankMap {α : Type} {n : Nat} (f : Fin n → α → α) (b : Bank α n) (k : Fin n) :
    bankGet (bankMap f b) k = f k (bankGet b k) := by simp [bankGet, bankMap]

@[simp] theorem bankGet_replicate {α : Type} {n : Nat} (x : α) (k : Fin n) :
    bankGet (Vector.replicate n x) k = x := by simp [bankGet]

/-- Two banks with the same items are one bank. -/
theorem bank_ext {α : Type} {n : Nat} {b c : Bank α n} (h : ∀ k, bankGet b k = bankGet c k) : b = c := by
  apply Vector.ext
  intro i hi
  exact h ⟨i, hi⟩

/-! ### Links -/

@[simp] theorem link_a (s : State) : s.link .a = s.linkA := rfl
@[simp] theorem link_b (s : State) : s.link .b = s.linkB := rfl
@[simp] theorem link_setLink_same (s : State) (l : Link) (r : LinkRec) : (s.setLink l r).link l = r := by cases l <;> rfl
theorem link_setLink_other (s : State) {l m : Link} (r : LinkRec) (h : m ≠ l) : (s.setLink l r).link m = s.link m := by
  cases l <;> cases m <;> first | rfl | exact absurd rfl h
@[simp] theorem setLink_link (s : State) (l : Link) : s.setLink l (s.link l) = s := by cases l <;> rfl
@[simp] theorem setLink_setLink (s : State) (l : Link) (r q : LinkRec) : (s.setLink l r).setLink l q = s.setLink l q := by
  cases l <;> rfl

/-! ### Layers -/

@[simp] theorem layer_l0 (s : State) : s.layer .l0 = s.layer0 := rfl
@[simp] theorem layer_l1 (s : State) : s.layer .l1 = s.layer1 := rfl
@[simp] theorem layer_setLayer_same (s : State) (y : LayerId) (r : Layer) : (s.setLayer y r).layer y = r := by
  cases y <;> rfl
theorem layer_setLayer_other (s : State) {y z : LayerId} (r : Layer) (h : z ≠ y) :
    (s.setLayer y r).layer z = s.layer z := by cases y <;> cases z <;> first | rfl | exact absurd rfl h
@[simp] theorem setLayer_layer (s : State) (y : LayerId) : s.setLayer y (s.layer y) = s := by cases y <;> rfl
@[simp] theorem setLayer_setLayer (s : State) (y : LayerId) (r q : Layer) :
    (s.setLayer y r).setLayer y q = s.setLayer y q := by cases y <;> rfl

/-! ### Key records -/

@[simp] theorem capKey_setCapKey_same (s : State) (k : Key) (r : CapKey) : (s.setCapKey k r).capKey k = r := by
  simp [State.capKey, State.setCapKey]
theorem capKey_setCapKey_other (s : State) {k j : Key} (r : CapKey) (h : j ≠ k) :
    (s.setCapKey k r).capKey j = s.capKey j := by simp [State.capKey, State.setCapKey, bankGet_bankSet_other _ _ h]
@[simp] theorem driveKey_setDriveKey_same (s : State) (k : Key) (r : DriveKey) : (s.setDriveKey k r).driveKey k = r := by
  simp [State.driveKey, State.setDriveKey]
theorem driveKey_setDriveKey_other (s : State) {k j : Key} (r : DriveKey) (h : j ≠ k) :
    (s.setDriveKey k r).driveKey j = s.driveKey j := by
  simp [State.driveKey, State.setDriveKey, bankGet_bankSet_other _ _ h]
@[simp] theorem driveKey_setCapKey (s : State) (k j : Key) (r : CapKey) : (s.setCapKey k r).driveKey j = s.driveKey j := rfl
@[simp] theorem capKey_setDriveKey (s : State) (k j : Key) (r : DriveKey) : (s.setDriveKey k r).capKey j = s.capKey j := rfl
@[simp] theorem driveKey_setLink (s : State) (l : Link) (r : LinkRec) (k : Key) :
    (s.setLink l r).driveKey k = s.driveKey k := by cases l <;> rfl
@[simp] theorem capKey_setLink (s : State) (l : Link) (r : LinkRec) (k : Key) :
    (s.setLink l r).capKey k = s.capKey k := by cases l <;> rfl
@[simp] theorem layer_setLink (s : State) (l : Link) (r : LinkRec) (y : LayerId) :
    (s.setLink l r).layer y = s.layer y := by cases l <;> cases y <;> rfl
@[simp] theorem link_setLayer (s : State) (y : LayerId) (r : Layer) (l : Link) :
    (s.setLayer y r).link l = s.link l := by cases y <;> cases l <;> rfl
@[simp] theorem driveKey_setLayer (s : State) (y : LayerId) (r : Layer) (k : Key) :
    (s.setLayer y r).driveKey k = s.driveKey k := by cases y <;> rfl
@[simp] theorem capKey_setLayer (s : State) (y : LayerId) (r : Layer) (k : Key) :
    (s.setLayer y r).capKey k = s.capKey k := by cases y <;> rfl

/-! ### Fields of `setLink` -/

@[simp] theorem setLink_pending (s : State) (l : Link) (r : LinkRec) : (s.setLink l r).pending = s.pending := by cases l <;> rfl
@[simp] theorem setLink_wall (s : State) (l : Link) (r : LinkRec) : (s.setLink l r).wall = s.wall := by cases l <;> rfl
@[simp] theorem setLink_resetLow (s : State) (l : Link) (r : LinkRec) : (s.setLink l r).resetLow = s.resetLow := by cases l <;> rfl
@[simp] theorem setLink_cause (s : State) (l : Link) (r : LinkRec) : (s.setLink l r).cause = s.cause := by cases l <;> rfl
@[simp] theorem setLink_cap (s : State) (l : Link) (r : LinkRec) : (s.setLink l r).cap = s.cap := by cases l <;> rfl
@[simp] theorem setLink_store (s : State) (l : Link) (r : LinkRec) : (s.setLink l r).store = s.store := by cases l <;> rfl
@[simp] theorem setLink_clk (s : State) (l : Link) (r : LinkRec) : (s.setLink l r).clk = s.clk := by cases l <;> rfl
@[simp] theorem setLink_map (s : State) (l : Link) (r : LinkRec) : (s.setLink l r).map = s.map := by cases l <;> rfl
@[simp] theorem setLink_layer0 (s : State) (l : Link) (r : LinkRec) : (s.setLink l r).layer0 = s.layer0 := by cases l <;> rfl
@[simp] theorem setLink_layer1 (s : State) (l : Link) (r : LinkRec) : (s.setLink l r).layer1 = s.layer1 := by cases l <;> rfl
@[simp] theorem setLink_sched (s : State) (l : Link) (r : LinkRec) : (s.setLink l r).sched = s.sched := by cases l <;> rfl
@[simp] theorem setLink_drive (s : State) (l : Link) (r : LinkRec) : (s.setLink l r).drive = s.drive := by cases l <;> rfl
@[simp] theorem setLink_run (s : State) (l : Link) (r : LinkRec) : (s.setLink l r).run = s.run := by cases l <;> rfl

/-! ### Fields of `setLayer` -/

@[simp] theorem setLayer_pending (s : State) (y : LayerId) (r : Layer) : (s.setLayer y r).pending = s.pending := by cases y <;> rfl
@[simp] theorem setLayer_wall (s : State) (y : LayerId) (r : Layer) : (s.setLayer y r).wall = s.wall := by cases y <;> rfl
@[simp] theorem setLayer_resetLow (s : State) (y : LayerId) (r : Layer) : (s.setLayer y r).resetLow = s.resetLow := by cases y <;> rfl
@[simp] theorem setLayer_cause (s : State) (y : LayerId) (r : Layer) : (s.setLayer y r).cause = s.cause := by cases y <;> rfl
@[simp] theorem setLayer_linkA (s : State) (y : LayerId) (r : Layer) : (s.setLayer y r).linkA = s.linkA := by cases y <;> rfl
@[simp] theorem setLayer_linkB (s : State) (y : LayerId) (r : Layer) : (s.setLayer y r).linkB = s.linkB := by cases y <;> rfl
@[simp] theorem setLayer_cap (s : State) (y : LayerId) (r : Layer) : (s.setLayer y r).cap = s.cap := by cases y <;> rfl
@[simp] theorem setLayer_store (s : State) (y : LayerId) (r : Layer) : (s.setLayer y r).store = s.store := by cases y <;> rfl
@[simp] theorem setLayer_clk (s : State) (y : LayerId) (r : Layer) : (s.setLayer y r).clk = s.clk := by cases y <;> rfl
@[simp] theorem setLayer_map (s : State) (y : LayerId) (r : Layer) : (s.setLayer y r).map = s.map := by cases y <;> rfl
@[simp] theorem setLayer_sched (s : State) (y : LayerId) (r : Layer) : (s.setLayer y r).sched = s.sched := by cases y <;> rfl
@[simp] theorem setLayer_drive (s : State) (y : LayerId) (r : Layer) : (s.setLayer y r).drive = s.drive := by cases y <;> rfl
@[simp] theorem setLayer_run (s : State) (y : LayerId) (r : Layer) : (s.setLayer y r).run = s.run := by cases y <;> rfl

/-! ### Fields of `setCapKey` -/

@[simp] theorem setCapKey_pending (s : State) (k : Key) (r : CapKey) : (s.setCapKey k r).pending = s.pending := rfl
@[simp] theorem setCapKey_wall (s : State) (k : Key) (r : CapKey) : (s.setCapKey k r).wall = s.wall := rfl
@[simp] theorem setCapKey_resetLow (s : State) (k : Key) (r : CapKey) : (s.setCapKey k r).resetLow = s.resetLow := rfl
@[simp] theorem setCapKey_cause (s : State) (k : Key) (r : CapKey) : (s.setCapKey k r).cause = s.cause := rfl
@[simp] theorem setCapKey_linkA (s : State) (k : Key) (r : CapKey) : (s.setCapKey k r).linkA = s.linkA := rfl
@[simp] theorem setCapKey_linkB (s : State) (k : Key) (r : CapKey) : (s.setCapKey k r).linkB = s.linkB := rfl
@[simp] theorem setCapKey_store (s : State) (k : Key) (r : CapKey) : (s.setCapKey k r).store = s.store := rfl
@[simp] theorem setCapKey_clk (s : State) (k : Key) (r : CapKey) : (s.setCapKey k r).clk = s.clk := rfl
@[simp] theorem setCapKey_map (s : State) (k : Key) (r : CapKey) : (s.setCapKey k r).map = s.map := rfl
@[simp] theorem setCapKey_layer0 (s : State) (k : Key) (r : CapKey) : (s.setCapKey k r).layer0 = s.layer0 := rfl
@[simp] theorem setCapKey_layer1 (s : State) (k : Key) (r : CapKey) : (s.setCapKey k r).layer1 = s.layer1 := rfl
@[simp] theorem setCapKey_sched (s : State) (k : Key) (r : CapKey) : (s.setCapKey k r).sched = s.sched := rfl
@[simp] theorem setCapKey_drive (s : State) (k : Key) (r : CapKey) : (s.setCapKey k r).drive = s.drive := rfl
@[simp] theorem setCapKey_run (s : State) (k : Key) (r : CapKey) : (s.setCapKey k r).run = s.run := rfl

/-! ### Fields of `setDriveKey` -/

@[simp] theorem setDriveKey_pending (s : State) (k : Key) (r : DriveKey) : (s.setDriveKey k r).pending = s.pending := rfl
@[simp] theorem setDriveKey_wall (s : State) (k : Key) (r : DriveKey) : (s.setDriveKey k r).wall = s.wall := rfl
@[simp] theorem setDriveKey_resetLow (s : State) (k : Key) (r : DriveKey) : (s.setDriveKey k r).resetLow = s.resetLow := rfl
@[simp] theorem setDriveKey_cause (s : State) (k : Key) (r : DriveKey) : (s.setDriveKey k r).cause = s.cause := rfl
@[simp] theorem setDriveKey_linkA (s : State) (k : Key) (r : DriveKey) : (s.setDriveKey k r).linkA = s.linkA := rfl
@[simp] theorem setDriveKey_linkB (s : State) (k : Key) (r : DriveKey) : (s.setDriveKey k r).linkB = s.linkB := rfl
@[simp] theorem setDriveKey_cap (s : State) (k : Key) (r : DriveKey) : (s.setDriveKey k r).cap = s.cap := rfl
@[simp] theorem setDriveKey_store (s : State) (k : Key) (r : DriveKey) : (s.setDriveKey k r).store = s.store := rfl
@[simp] theorem setDriveKey_clk (s : State) (k : Key) (r : DriveKey) : (s.setDriveKey k r).clk = s.clk := rfl
@[simp] theorem setDriveKey_map (s : State) (k : Key) (r : DriveKey) : (s.setDriveKey k r).map = s.map := rfl
@[simp] theorem setDriveKey_layer0 (s : State) (k : Key) (r : DriveKey) : (s.setDriveKey k r).layer0 = s.layer0 := rfl
@[simp] theorem setDriveKey_layer1 (s : State) (k : Key) (r : DriveKey) : (s.setDriveKey k r).layer1 = s.layer1 := rfl
@[simp] theorem setDriveKey_sched (s : State) (k : Key) (r : DriveKey) : (s.setDriveKey k r).sched = s.sched := rfl
@[simp] theorem setDriveKey_run (s : State) (k : Key) (r : DriveKey) : (s.setDriveKey k r).run = s.run := rfl

/-! ### Fields of `raise` -/

@[simp] theorem raise_pending (l : Link) (n : Notice) (s : State) : (raise l n s).pending = s.pending := by cases l <;> rfl
@[simp] theorem raise_wall (l : Link) (n : Notice) (s : State) : (raise l n s).wall = s.wall := by cases l <;> rfl
@[simp] theorem raise_resetLow (l : Link) (n : Notice) (s : State) : (raise l n s).resetLow = s.resetLow := by cases l <;> rfl
@[simp] theorem raise_cause (l : Link) (n : Notice) (s : State) : (raise l n s).cause = s.cause := by cases l <;> rfl
@[simp] theorem raise_cap (l : Link) (n : Notice) (s : State) : (raise l n s).cap = s.cap := by cases l <;> rfl
@[simp] theorem raise_store (l : Link) (n : Notice) (s : State) : (raise l n s).store = s.store := by cases l <;> rfl
@[simp] theorem raise_clk (l : Link) (n : Notice) (s : State) : (raise l n s).clk = s.clk := by cases l <;> rfl
@[simp] theorem raise_map (l : Link) (n : Notice) (s : State) : (raise l n s).map = s.map := by cases l <;> rfl
@[simp] theorem raise_layer0 (l : Link) (n : Notice) (s : State) : (raise l n s).layer0 = s.layer0 := by cases l <;> rfl
@[simp] theorem raise_layer1 (l : Link) (n : Notice) (s : State) : (raise l n s).layer1 = s.layer1 := by cases l <;> rfl
@[simp] theorem raise_sched (l : Link) (n : Notice) (s : State) : (raise l n s).sched = s.sched := by cases l <;> rfl
@[simp] theorem raise_drive (l : Link) (n : Notice) (s : State) : (raise l n s).drive = s.drive := by cases l <;> rfl
@[simp] theorem raise_run (l : Link) (n : Notice) (s : State) : (raise l n s).run = s.run := by cases l <;> rfl

/-! ### Fields of `raiseBoth` -/

@[simp] theorem raiseBoth_pending (n : Notice) (s : State) : (raiseBoth n s).pending = s.pending := rfl
@[simp] theorem raiseBoth_wall (n : Notice) (s : State) : (raiseBoth n s).wall = s.wall := rfl
@[simp] theorem raiseBoth_resetLow (n : Notice) (s : State) : (raiseBoth n s).resetLow = s.resetLow := rfl
@[simp] theorem raiseBoth_cause (n : Notice) (s : State) : (raiseBoth n s).cause = s.cause := rfl
@[simp] theorem raiseBoth_cap (n : Notice) (s : State) : (raiseBoth n s).cap = s.cap := rfl
@[simp] theorem raiseBoth_store (n : Notice) (s : State) : (raiseBoth n s).store = s.store := rfl
@[simp] theorem raiseBoth_clk (n : Notice) (s : State) : (raiseBoth n s).clk = s.clk := rfl
@[simp] theorem raiseBoth_map (n : Notice) (s : State) : (raiseBoth n s).map = s.map := rfl
@[simp] theorem raiseBoth_layer0 (n : Notice) (s : State) : (raiseBoth n s).layer0 = s.layer0 := rfl
@[simp] theorem raiseBoth_layer1 (n : Notice) (s : State) : (raiseBoth n s).layer1 = s.layer1 := rfl
@[simp] theorem raiseBoth_sched (n : Notice) (s : State) : (raiseBoth n s).sched = s.sched := rfl
@[simp] theorem raiseBoth_drive (n : Notice) (s : State) : (raiseBoth n s).drive = s.drive := rfl
@[simp] theorem raiseBoth_run (n : Notice) (s : State) : (raiseBoth n s).run = s.run := rfl

/-! ### Fields of `withPending` -/

@[simp] theorem withPending_wall (s : State) (cs : List Instr) : (s.withPending cs).wall = s.wall := rfl
@[simp] theorem withPending_resetLow (s : State) (cs : List Instr) : (s.withPending cs).resetLow = s.resetLow := rfl
@[simp] theorem withPending_cause (s : State) (cs : List Instr) : (s.withPending cs).cause = s.cause := rfl
@[simp] theorem withPending_linkA (s : State) (cs : List Instr) : (s.withPending cs).linkA = s.linkA := rfl
@[simp] theorem withPending_linkB (s : State) (cs : List Instr) : (s.withPending cs).linkB = s.linkB := rfl
@[simp] theorem withPending_cap (s : State) (cs : List Instr) : (s.withPending cs).cap = s.cap := rfl
@[simp] theorem withPending_store (s : State) (cs : List Instr) : (s.withPending cs).store = s.store := rfl
@[simp] theorem withPending_clk (s : State) (cs : List Instr) : (s.withPending cs).clk = s.clk := rfl
@[simp] theorem withPending_map (s : State) (cs : List Instr) : (s.withPending cs).map = s.map := rfl
@[simp] theorem withPending_layer0 (s : State) (cs : List Instr) : (s.withPending cs).layer0 = s.layer0 := rfl
@[simp] theorem withPending_layer1 (s : State) (cs : List Instr) : (s.withPending cs).layer1 = s.layer1 := rfl
@[simp] theorem withPending_sched (s : State) (cs : List Instr) : (s.withPending cs).sched = s.sched := rfl
@[simp] theorem withPending_drive (s : State) (cs : List Instr) : (s.withPending cs).drive = s.drive := rfl
@[simp] theorem withPending_run (s : State) (cs : List Instr) : (s.withPending cs).run = s.run := rfl

/-! ### Fields of `setRun` -/

@[simp] theorem setRun_pending (r : RunController) (s : State) : (setRun r s).pending = s.pending := rfl
@[simp] theorem setRun_wall (r : RunController) (s : State) : (setRun r s).wall = s.wall := rfl
@[simp] theorem setRun_resetLow (r : RunController) (s : State) : (setRun r s).resetLow = s.resetLow := rfl
@[simp] theorem setRun_cause (r : RunController) (s : State) : (setRun r s).cause = s.cause := rfl
@[simp] theorem setRun_linkA (r : RunController) (s : State) : (setRun r s).linkA = s.linkA := rfl
@[simp] theorem setRun_linkB (r : RunController) (s : State) : (setRun r s).linkB = s.linkB := rfl
@[simp] theorem setRun_cap (r : RunController) (s : State) : (setRun r s).cap = s.cap := rfl
@[simp] theorem setRun_store (r : RunController) (s : State) : (setRun r s).store = s.store := rfl
@[simp] theorem setRun_clk (r : RunController) (s : State) : (setRun r s).clk = s.clk := rfl
@[simp] theorem setRun_map (r : RunController) (s : State) : (setRun r s).map = s.map := rfl
@[simp] theorem setRun_layer0 (r : RunController) (s : State) : (setRun r s).layer0 = s.layer0 := rfl
@[simp] theorem setRun_layer1 (r : RunController) (s : State) : (setRun r s).layer1 = s.layer1 := rfl
@[simp] theorem setRun_sched (r : RunController) (s : State) : (setRun r s).sched = s.sched := rfl
@[simp] theorem setRun_drive (r : RunController) (s : State) : (setRun r s).drive = s.drive := rfl

/-! ### Fields of `replied` -/

@[simp] theorem replied_pending (s : State) (l : Link) (q : Request) (st : Status) (body : List Byte) : (s.replied l q st body).pending = s.pending := by cases l <;> rfl
@[simp] theorem replied_wall (s : State) (l : Link) (q : Request) (st : Status) (body : List Byte) : (s.replied l q st body).wall = s.wall := by cases l <;> rfl
@[simp] theorem replied_resetLow (s : State) (l : Link) (q : Request) (st : Status) (body : List Byte) : (s.replied l q st body).resetLow = s.resetLow := by cases l <;> rfl
@[simp] theorem replied_cause (s : State) (l : Link) (q : Request) (st : Status) (body : List Byte) : (s.replied l q st body).cause = s.cause := by cases l <;> rfl
@[simp] theorem replied_cap (s : State) (l : Link) (q : Request) (st : Status) (body : List Byte) : (s.replied l q st body).cap = s.cap := by cases l <;> rfl
@[simp] theorem replied_store (s : State) (l : Link) (q : Request) (st : Status) (body : List Byte) : (s.replied l q st body).store = s.store := by cases l <;> rfl
@[simp] theorem replied_clk (s : State) (l : Link) (q : Request) (st : Status) (body : List Byte) : (s.replied l q st body).clk = s.clk := by cases l <;> rfl
@[simp] theorem replied_map (s : State) (l : Link) (q : Request) (st : Status) (body : List Byte) : (s.replied l q st body).map = s.map := by cases l <;> rfl
@[simp] theorem replied_layer0 (s : State) (l : Link) (q : Request) (st : Status) (body : List Byte) : (s.replied l q st body).layer0 = s.layer0 := by cases l <;> rfl
@[simp] theorem replied_layer1 (s : State) (l : Link) (q : Request) (st : Status) (body : List Byte) : (s.replied l q st body).layer1 = s.layer1 := by cases l <;> rfl
@[simp] theorem replied_sched (s : State) (l : Link) (q : Request) (st : Status) (body : List Byte) : (s.replied l q st body).sched = s.sched := by cases l <;> rfl
@[simp] theorem replied_drive (s : State) (l : Link) (q : Request) (st : Status) (body : List Byte) : (s.replied l q st body).drive = s.drive := by cases l <;> rfl
@[simp] theorem replied_run (s : State) (l : Link) (q : Request) (st : Status) (body : List Byte) : (s.replied l q st body).run = s.run := by cases l <;> rfl

@[simp] theorem withPending_pending (s : State) (cs : List Instr) : (s.withPending cs).pending = cs := rfl
@[simp] theorem setRun_run (r : RunController) (s : State) : (setRun r s).run = r := rfl
@[simp] theorem raiseBoth_linkA (n : Notice) (s : State) : (raiseBoth n s).linkA = s.linkA.raise n := rfl
@[simp] theorem raiseBoth_linkB (n : Notice) (s : State) : (raiseBoth n s).linkB = s.linkB.raise n := rfl
@[simp] theorem raise_slots (r : LinkRec) (n : Notice) : (r.raise n).slots = r.slots := rfl
@[simp] theorem raise_mask (r : LinkRec) (n : Notice) : (r.raise n).mask = r.mask := rfl
@[simp] theorem raise_fetch (r : LinkRec) (n : Notice) : (r.raise n).fetch = r.fetch := rfl
@[simp] theorem raise_resetDue (r : LinkRec) (n : Notice) : (r.raise n).resetDue = r.resetDue := rfl
@[simp] theorem raise_notices (r : LinkRec) (n : Notice) : (r.raise n).notices = r.notices ||| n.flag := rfl
theorem link_raiseBoth (n : Notice) (s : State) (l : Link) : (raiseBoth n s).link l = (s.link l).raise n := by
  cases l <;> rfl

/-! ### The request rows -/

/-- What taking a request does where it stands in its link's slot. -/
theorem serve_standing {l : Link} {q : Request} {s : State} (answer : State → Answer) (h : s.serves l q = true) :
    serve l q answer s = (answer s).state.replied l q (answer s).status (answer s).body := by
  simp [serve, h, placeAnswer, State.replied]

/-- A request that does not stand in its link's slot is not taken. -/
theorem serve_absent {l : Link} {q : Request} {s : State} (answer : State → Answer) (h : s.serves l q = false) :
    serve l q answer s = s := by simp [serve, h]

/-- What placing a reply does to the link's record (R167). -/
theorem replied_link (s : State) (l : Link) (q : Request) (st : Status) (body : List Byte) :
    (s.replied l q st body).link l =
      { slots := .reply { status := st, kind := q.kind, body := body }
        notices := (s.link l).notices ||| Notice.reply.flag, mask := (s.link l).mask
        fetch := (s.link l).fetch.map fun f => { f with holds := false }, resetDue := none } := by
  simp [State.replied, LinkRec.place, LinkRec.slotChanged, LinkRec.raise]

/-- Placing a reply leaves the other link alone. -/
theorem replied_otherLink (s : State) {l m : Link} (q : Request) (st : Status) (body : List Byte) (h : m ≠ l) :
    (s.replied l q st body).link m = s.link m := link_setLink_other s _ h

end Sys2Proof.Machine
end

