-- ==== Sys2Proof/Laws/Keeps.lean ====
section
/-! SUPPORT. What the operations of the capture unit, the drive unit, the layers and the scheduler can do outside their own
state: one lemma per operation. None of them touches the queue, the wall timer, the RESET line, the reset cause, the
clock, the map, the run controller, or a link's slots, mask, fetch and waiting reset; and none clears a notice. -/

namespace Sys2Proof.Machine

/-- A link's record with its slots, mask, fetch and waiting reset kept and no notice cleared. -/
structure LinkKeeps (r q : LinkRec) : Prop where
  slots    : q.slots = r.slots
  mask     : q.mask = r.mask
  fetch    : q.fetch = r.fetch
  resetDue : q.resetDue = r.resetDue
  notices  : ∀ i, r.notices.getLsbD i = true → q.notices.getLsbD i = true

/-- Everything outside the capture unit, the store, the layers, the scheduler and the drive unit kept, no notice cleared. -/
structure Keeps (s t : State) : Prop where
  pending  : t.pending = s.pending
  wall     : t.wall = s.wall
  resetLow : t.resetLow = s.resetLow
  cause    : t.cause = s.cause
  clk      : t.clk = s.clk
  map      : t.map = s.map
  run      : t.run = s.run
  linkA    : LinkKeeps s.linkA t.linkA
  linkB    : LinkKeeps s.linkB t.linkB

theorem LinkKeeps.refl (r : LinkRec) : LinkKeeps r r := ⟨rfl, rfl, rfl, rfl, fun _ h => h⟩

theorem LinkKeeps.trans {r q p : LinkRec} (h : LinkKeeps r q) (g : LinkKeeps q p) : LinkKeeps r p :=
  ⟨g.slots.trans h.slots, g.mask.trans h.mask, g.fetch.trans h.fetch, g.resetDue.trans h.resetDue,
    fun i hi => g.notices i (h.notices i hi)⟩

theorem LinkKeeps.raise (r : LinkRec) (n : Notice) : LinkKeeps r (r.raise n) :=
  ⟨rfl, rfl, rfl, rfl, fun i hi => by simp [hi]⟩

theorem Keeps.refl (s : State) : Keeps s s := ⟨rfl, rfl, rfl, rfl, rfl, rfl, rfl, .refl _, .refl _⟩

theorem Keeps.trans {s t u : State} (h : Keeps s t) (g : Keeps t u) : Keeps s u :=
  ⟨g.pending.trans h.pending, g.wall.trans h.wall, g.resetLow.trans h.resetLow, g.cause.trans h.cause, g.clk.trans h.clk,
    g.map.trans h.map, g.run.trans h.run, h.linkA.trans g.linkA, h.linkB.trans g.linkB⟩

/-- An update of the blocks' own state keeps the rest. -/
theorem Keeps.inner {s : State} (cap : Capture) (store : Store) (layer0 layer1 : Layer) (sched : Scheduler) (drive : Drive) :
    Keeps s { s with
      cap := cap, store := store, layer0 := layer0, layer1 := layer1, sched := sched, drive := drive } :=
  ⟨rfl, rfl, rfl, rfl, rfl, rfl, rfl, .refl _, .refl _⟩

theorem Keeps.setLayer (s : State) (y : LayerId) (r : Layer) : Keeps s (s.setLayer y r) := by
  cases y <;> exact .inner ..

theorem Keeps.raise (l : Link) (n : Notice) (s : State) : Keeps s (raise l n s) := by
  cases l
  · exact ⟨rfl, rfl, rfl, rfl, rfl, rfl, rfl, .raise _ _, .refl _⟩
  · exact ⟨rfl, rfl, rfl, rfl, rfl, rfl, rfl, .refl _, .raise _ _⟩

theorem Keeps.raiseBoth (n : Notice) (s : State) : Keeps s (raiseBoth n s) :=
  ⟨rfl, rfl, rfl, rfl, rfl, rfl, rfl, .raise _ _, .raise _ _⟩

/-- A pass over a list keeps what each of its steps keeps. -/
theorem Keeps.foldl {α : Type} {f : State → α → State} (h : ∀ s x, Keeps s (f s x)) (xs : List α) (s : State) :
    Keeps s (xs.foldl f s) := by
  induction xs generalizing s with
  | nil => exact .refl s
  | cons x xs ih => exact (h s x).trans (ih _)

/-! ### The capture unit -/

theorem closeCapture_keeps (e : Nat) (s : State) : Keeps s (closeCapture e s) := by
  unfold closeCapture; split <;> exact .inner ..

theorem stopCapture_keeps (s : State) : Keeps s (stopCapture s) := closeCapture_keeps _ s

theorem captureWrite_keeps (kind target value time : Nat) (s : State) :
    Keeps s (captureWrite kind target value time s) := by
  unfold captureWrite
  split
  · split
    · exact .inner ..
    · exact (closeCapture_keeps _ s).trans (.raiseBoth _ _)
  · exact .refl s

theorem captureRelease_keeps (k : Key) (s : State) : Keeps s (captureRelease k s) := by
  unfold captureRelease
  split
  · exact (Keeps.inner ..).trans (captureWrite_keeps ..)
  · exact .refl s

theorem ownKey_keeps (k : Key) (s : State) : Keeps s (ownKey k s) := by
  unfold ownKey
  dsimp only
  split
  · exact (Keeps.inner ..).trans (captureWrite_keeps ..)
  · exact .inner ..

theorem disownKey_keeps (k : Key) (s : State) : Keeps s (disownKey k s) := .inner ..

theorem captureGate1_keeps (k : Key) (s : State) : Keeps s (captureGate1 k s) := by
  unfold captureGate1; dsimp only; split <;> exact .inner ..

theorem captureGate2_keeps (k : Key) (s : State) : Keeps s (captureGate2 k s) := by
  unfold captureGate2
  dsimp only
  split
  · exact (Keeps.inner ..).trans (captureWrite_keeps ..)
  · exact .refl s

theorem captureWindowEnd_keeps (k : Key) (s : State) : Keeps s (captureWindowEnd k s) := by
  unfold captureWindowEnd
  dsimp only
  split
  · exact .inner ..
  · split
    · split
      · split
        · exact .inner ..
        · exact (Keeps.inner ..).trans (captureWrite_keeps ..)
      · split
        · exact .inner ..
        · split
          · exact (Keeps.inner ..).trans (captureRelease_keeps ..)
          · exact .inner ..
    · exact .inner ..

theorem captureSample_keeps (k : Key) (p : KeyPos) (s : State) : Keeps s (captureSample k p s) := by
  unfold captureSample
  dsimp only
  split
  · exact .inner ..
  · split
    · exact .inner ..
    · split
      · exact (Keeps.inner ..).trans (captureRelease_keeps ..)
      · exact .inner ..
    · split
      · exact (Keeps.inner ..).trans ((Keeps.inner ..).trans (captureRelease_keeps ..))
      · exact (Keeps.inner ..).trans (.inner ..)

theorem framePedal_keeps (r : PedalReadings) (time : Nat) (s : State) (p : Pedal) : Keeps s (framePedal r time s p) := by
  unfold framePedal
  dsimp only
  split
  · split
    · exact .inner ..
    · split
      · exact (Keeps.inner ..).trans (captureWrite_keeps ..)
      · exact .inner ..
  · exact .refl s

theorem frameSample_keeps (r : PedalReadings) (b : Nat) (s : State) : Keeps s (frameSample r b s) :=
  .foldl (fun s p => framePedal_keeps r _ s p) _ s

theorem fixOrigin_keeps (b : Nat) (s : State) : Keeps s (fixOrigin b s) := by
  unfold fixOrigin
  split
  · exact .refl s
  · exact .inner ..

theorem captureFrame_keeps (r : PedalReadings) (b : Nat) (s : State) : Keeps s (captureFrame r b s) := by
  unfold captureFrame
  dsimp only
  split
  · exact (fixOrigin_keeps b s).trans (frameSample_keeps ..)
  · exact frameSample_keeps ..

theorem captureReenter_keeps (s : State) : Keeps s (captureReenter s) := by
  unfold captureReenter
  dsimp only
  split
  · refine (Keeps.inner ..).trans (.foldl (fun s k => ?_) _ _)
    split
    · exact captureRelease_keeps k s
    · exact .refl s
  · exact .refl s

theorem capturePause_keeps (s : State) : Keeps s (capturePause s) := by
  unfold capturePause
  split
  · exact .inner ..
  · exact .refl s

/-! ### The drive unit -/

theorem putDriveKey_keeps (k : Key) (d : DriveKey) (s : State) : Keeps s (putDriveKey k d s) := by
  unfold putDriveKey
  dsimp only
  split
  · exact (Keeps.inner ..).trans (ownKey_keeps k _)
  · split
    · exact (Keeps.inner ..).trans (disownKey_keeps k _)
    · exact .inner ..

theorem enterLetGo_keeps (k : Key) (s : State) : Keeps s (enterLetGo k s) := putDriveKey_keeps ..
theorem enterRest_keeps (k : Key) (s : State) : Keeps s (enterRest k s) := putDriveKey_keeps ..
theorem beginSustain_keeps (k : Key) (s : State) : Keeps s (beginSustain k s) := .inner ..

theorem detect_keeps (k : Key) (s : State) : Keeps s (detect k s) := by
  unfold detect
  dsimp only
  split
  · exact (putDriveKey_keeps ..).trans (beginSustain_keeps ..)
  · exact putDriveKey_keeps ..

theorem fireStrike_keeps (k : Key) (y : LayerId) (e v d f : Nat) (s : State) : Keeps s (fireStrike k y e v d f s) :=
  putDriveKey_keeps ..
theorem firePulse_keeps (k : Key) (level : Nat) (s : State) : Keeps s (firePulse k level s) := putDriveKey_keeps ..
theorem depressKey_keeps (k : Key) (y : LayerId) (d : Nat) (s : State) : Keeps s (depressKey k y d s) :=
  (putDriveKey_keeps ..).trans (beginSustain_keeps ..)

theorem drivePedal_keeps (p : Pedal) (s : State) : Keeps s (drivePedal p s) := by
  unfold drivePedal
  dsimp only
  split
  · split
    · exact .inner ..
    · exact .inner ..
    · split <;> exact .inner ..
  · exact .inner ..

theorem driveAllPedals_keeps (s : State) : Keeps s (driveAllPedals s) := .foldl (fun s p => drivePedal_keeps p s) _ s
theorem pedalsOff_keeps (s : State) : Keeps s (pedalsOff s) := .inner ..

theorem setDemand_keeps (y : LayerId) (p : Pedal) (v : Option Nat) (s : State) : Keeps s (setDemand y p v s) := by
  unfold setDemand
  split
  · exact .refl s
  · exact (Keeps.setLayer ..).trans (drivePedal_keeps ..)

theorem dropDemands_keeps (y : LayerId) (s : State) : Keeps s (dropDemands y s) :=
  .foldl (fun s p => setDemand_keeps y p none s) _ s

theorem judgeSag_keeps (s : State) : Keeps s (judgeSag s) := by
  unfold judgeSag
  dsimp only
  split
  · split
    · exact (Keeps.inner ..).trans (.raiseBoth _ _)
    · exact .inner ..
  · exact .refl s

theorem enterQuiet_keeps (s : State) : Keeps s (enterQuiet s) := (Keeps.inner ..).trans (pedalsOff_keeps _)
theorem quietIfAtRest_keeps (s : State) : Keeps s (quietIfAtRest s) := by
  unfold quietIfAtRest
  split
  · exact enterQuiet_keeps s
  · exact .refl s
theorem enterActive_keeps (s : State) : Keeps s (enterActive s) :=
  (Keeps.inner ..).trans ((judgeSag_keeps _).trans (driveAllPedals_keeps _))
theorem heatPeriod_keeps (s : State) : Keeps s (heatPeriod s) := .inner ..
theorem softResetDrive_keeps (s : State) : Keeps s (softResetDrive s) := .inner ..

/-! ### The layers -/

theorem refill_keeps (y : LayerId) (s : State) : Keeps s (refill y s) := by
  unfold refill
  dsimp only
  split
  · split
    · exact .setLayer ..
    · exact .refl s
  · exact .refl s

theorem popRing_keeps (y : LayerId) (s : State) : Keeps s (popRing y s) := by
  unfold popRing
  dsimp only
  split
  · split
    · exact (Keeps.setLayer ..).trans (.raise ..)
    · exact .setLayer ..
  · exact (Keeps.setLayer ..).trans (refill_keeps ..)

theorem joinRing_keeps (y : LayerId) (l : Link) (r : Record) (s : State) : Keeps s (joinRing y l r s) := by
  unfold joinRing
  dsimp only
  split
  · exact (Keeps.setLayer ..).trans (.raise ..)
  · exact .setLayer ..

theorem feedAll_keeps (y : LayerId) (l : Link) (rs : List Record) (n : Nat) (s : State) :
    Keeps s (feedAll y l rs n s).2 := by
  induction rs generalizing n s with
  | nil => exact .refl s
  | cons r rs ih =>
    unfold feedAll
    dsimp only
    split
    · exact .refl s
    · split
      · exact .refl s
      · split
        · exact .refl s
        · split
          · exact .refl s
          · exact (joinRing_keeps ..).trans (ih ..)

theorem latch_keeps (y : LayerId) (s : State) : Keeps s (latch y s) := by
  unfold latch
  split
  · exact .refl s
  · refine (Keeps.setLayer ..).trans (.foldl (fun s p => ?_) _ _)
    split
    · exact .refl s
    · exact setDemand_keeps ..

theorem endIfDone_keeps (y : LayerId) (s : State) : Keeps s (endIfDone y s) := by
  unfold endIfDone
  dsimp only
  split
  · exact (Keeps.setLayer ..).trans ((dropDemands_keeps ..).trans (.raiseBoth ..))
  · exact .refl s

theorem enterPlaying_keeps (y : LayerId) (s : State) : Keeps s (enterPlaying y s) := by
  unfold enterPlaying
  dsimp only
  split
  · split
    · refine (Keeps.setLayer ..).trans ((Keeps.foldl (fun s p => ?_) _ _).trans (endIfDone_keeps ..))
      split
      · split
        · exact setDemand_keeps ..
        · exact .refl s
      · exact .refl s
    · exact .refl s
  · exact .refl s

theorem stopLayer_keeps (y : LayerId) (s : State) : Keeps s (stopLayer y s) := by
  unfold stopLayer
  dsimp only
  split
  · exact (Keeps.setLayer ..).trans (dropDemands_keeps ..)
  · exact .refl s

theorem releaseLayer_keeps (y : LayerId) (s : State) : Keeps s (releaseLayer y s) := by
  unfold releaseLayer
  dsimp only
  refine (dropDemands_keeps y s).trans (.trans ?_ (.setLayer ..))
  split
  · exact .inner ..
  · exact .refl _

theorem cueTake_keeps (y : LayerId) (t : TakeNo) (c o : Nat) (s : State) : Keeps s (cueTake y t c o s) :=
  (Keeps.setLayer ..).trans (refill_keeps ..)
theorem cueStream_keeps (y : LayerId) (o : Nat) (s : State) : Keeps s (cueStream y o s) := .setLayer ..

/-! ### The scheduler -/

theorem addDrop_keeps (e : DropEntry) (s : State) : Keeps s (addDrop e s) := (Keeps.inner ..).trans (.raiseBoth ..)
theorem removeAction_keeps (n : Nat) (s : State) : Keeps s (removeAction n s) := .inner ..
theorem leavePlan_keeps (a : Action) (s : State) : Keeps s (leavePlan a s) :=
  (removeAction_keeps ..).trans (endIfDone_keeps ..)

theorem dropStrike_keeps (r : DropReason) (a : Action) (s : State) : Keeps s (dropStrike r a s) := by
  unfold dropStrike
  split
  · exact (addDrop_keeps ..).trans (leavePlan_keeps ..)
  · exact .refl s

theorem waitStrike_keeps (w : WaitReason) (a : Action) (s : State) : Keeps s (waitStrike w a s) := .inner ..

theorem takeStrike_keeps (a : Action) (s : State) : Keeps s (takeStrike a s) := by
  unfold takeStrike
  split
  · exact (fireStrike_keeps ..).trans (leavePlan_keeps ..)
  · exact .refl s

theorem applyAnswer_keeps (ans : OfferAnswer) (a : Action) (s : State) : Keeps s (applyAnswer ans a s) := by
  cases ans
  · exact takeStrike_keeps ..
  · exact waitStrike_keeps ..
  · exact dropStrike_keeps ..

theorem offerStrike_keeps (a : Action) (k : Key) (s : State) : Keeps s (offerStrike a k s) := by
  unfold offerStrike
  split
  · exact dropStrike_keeps ..
  · exact applyAnswer_keeps ..

theorem arbiterLoop_keeps (fuel : Nat) (s : State) : Keeps s (arbiterLoop fuel s) := by
  induction fuel generalizing s with
  | zero => exact .refl s
  | succ n ih =>
    unfold arbiterLoop
    split
    · split
      · exact .refl s
      · split
        · exact .refl s
        · exact (applyAnswer_keeps ..).trans (ih _)
    · exact .refl s

theorem arbiter_keeps (s : State) : Keeps s (arbiter s) := arbiterLoop_keeps _ s

theorem handRelease_keeps (k : Key) (y : LayerId) (s : State) : Keeps s (handRelease k y s) := by
  unfold handRelease
  dsimp only
  split
  · split
    · exact (enterLetGo_keeps ..).trans (arbiter_keeps _)
    · exact enterLetGo_keeps ..
  · exact .refl s

theorem handDepress_keeps (k : Key) (y : LayerId) (d : Nat) (s : State) : Keeps s (handDepress k y d s) := by
  unfold handDepress
  split
  · exact depressKey_keeps ..
  · exact .refl s

theorem carryOut_keeps (a : Action) (s : State) : Keeps s (carryOut a s) := by
  unfold carryOut
  split
  · refine .trans ?_ (leavePlan_keeps ..)
    split
    · exact setDemand_keeps ..
    · exact .refl s
  · exact (handRelease_keeps ..).trans (leavePlan_keeps ..)
  · exact (handDepress_keeps ..).trans (leavePlan_keeps ..)
  · split
    · exact dropStrike_keeps ..
    · exact offerStrike_keeps ..

theorem processLoop_keeps (fuel : Nat) (again todo : List Nat) (s : State) : Keeps s (processLoop fuel again todo s) := by
  induction fuel generalizing again todo s with
  | zero => exact .refl s
  | succ fuel ih =>
    cases todo with
    | nil => exact .refl s
    | cons n todo =>
      unfold processLoop
      split
      · exact ih ..
      · split
        · dsimp only
          split <;> exact (carryOut_keeps ..).trans (ih ..)
        · exact ih ..

theorem processDue_keeps (named : Key → Bool) (s : State) : Keeps s (processDue named s) := by
  unfold processDue
  split
  · exact processLoop_keeps ..
  · exact .refl s

theorem reportKey_keeps (k : Key) (s : State) : Keeps s (reportKey k s) := processDue_keeps _ s
theorem reportSupply_keeps (s : State) : Keeps s (reportSupply s) := processDue_keeps _ s

/-- What follows a change of keys between `s` and `t` keeps what `t` kept. -/
theorem respond_keeps (s t : State) : Keeps t (respond s t) := by
  unfold respond
  dsimp only
  split
  · exact (arbiter_keeps t).trans (processDue_keeps ..)
  · exact arbiter_keeps t

theorem judgeLateness_keeps (s : State) : Keeps s (judgeLateness s) := by
  refine .foldl (fun s n => ?_) _ s
  split
  · split
    · split
      · exact dropStrike_keeps ..
      · exact .refl s
    · exact .refl s
  · exact .refl s

theorem setMemory_keeps (k : Key) (m : Option KeyMemory) (s : State) : Keeps s (setMemory k m s) := .inner ..
theorem insertAction_keeps (y : LayerId) (e : Nat) (due : Int) (lead : Nat) (b : ActionBody) (s : State) :
    Keeps s (insertAction y e due lead b s) := .inner ..

theorem insertRelease_keeps (y : LayerId) (k : Key) (e : Nat) (auto : Option AutoFlag) (s : State) :
    Keeps s (insertRelease y k e auto s) := by
  unfold insertRelease
  dsimp only
  split
  · split
    · exact (insertAction_keeps ..).trans (setMemory_keeps ..)
    · exact insertAction_keeps ..
  · exact insertAction_keeps ..

theorem mergeOut_keeps (k : Key) (s : State) (a : Action) : Keeps s (mergeOut k s a) := by
  unfold mergeOut
  dsimp only
  refine .trans ?_ (dropStrike_keeps ..)
  split
  · split
    · exact setMemory_keeps ..
    · exact .refl s
  · exact .refl s

theorem autoRelease_keeps (k : Key) (due : Int) (s : State) : Keeps s (autoRelease k due s) := by
  unfold autoRelease
  split
  · exact insertRelease_keeps ..
  · exact .refl s

theorem insertStrike_keeps (y : LayerId) (k : Key) (e v rm : Nat) (sv : StrikeValues) (s : State) :
    Keeps s (insertStrike y k e v rm sv s) := by
  unfold insertStrike
  dsimp only
  split
  · exact (Keeps.foldl (fun s a => mergeOut_keeps k s a) _ s).trans
      ((autoRelease_keeps ..).trans ((insertAction_keeps ..).trans (setMemory_keeps ..)))
  · exact addDrop_keeps ..

theorem handKeyRecord_keeps (y : LayerId) (r : Record) (k : Key) (s : State) : Keeps s (handKeyRecord y r k s) := by
  unfold handKeyRecord
  dsimp only
  split
  · exact addDrop_keeps ..
  · split
    · split
      · exact insertStrike_keeps ..
      · exact addDrop_keeps ..
    · split
      · split
        · exact (insertAction_keeps ..).trans (setMemory_keeps ..)
        · exact addDrop_keeps ..
      · exact insertRelease_keeps ..

theorem handPedalRecord_keeps (y : LayerId) (r : Record) (p : Pedal) (s : State) : Keeps s (handPedalRecord y r p s) := by
  unfold handPedalRecord
  dsimp only
  split
  · exact addDrop_keeps ..
  · split
    · exact insertAction_keeps ..
    · exact addDrop_keeps ..

theorem handEnd_keeps (y : LayerId) (r : Record) (s : State) : Keeps s (handEnd y r s) :=
  (Keeps.setLayer ..).trans (.foldl (fun s k => insertRelease_keeps y k _ _ s) _ _)

theorem handWindow_keeps (y : LayerId) (r : Record) (s : State) : Keeps s (handWindow y r s) := by
  unfold handWindow
  dsimp only
  split
  · exact .refl s
  · split
    · exact .refl s
    · split
      · exact handKeyRecord_keeps ..
      · exact addDrop_keeps ..

theorem handRecord_keeps (y : LayerId) (r : Record) (s : State) : Keeps s (handRecord y r s) := by
  unfold handRecord
  split
  · exact handEnd_keeps ..
  · split
    · split
      · split
        · exact handPedalRecord_keeps ..
        · exact .refl s
      · exact .refl s
    · split
      · exact handWindow_keeps ..
      · exact .refl s

theorem processInserted_keeps (s t : State) : Keeps t (processInserted s t) := by
  unfold processInserted
  split
  · exact processDue_keeps ..
  · exact .refl t

theorem takeRecord_keeps (y : LayerId) (r : Record) (s : State) : Keeps s (takeRecord y r s) :=
  (popRing_keeps ..).trans ((handRecord_keeps ..).trans ((processInserted_keeps ..).trans (endIfDone_keeps ..)))

theorem takeLoop_keeps (fuel : Nat) (s : State) : Keeps s (takeLoop fuel s) := by
  induction fuel generalizing s with
  | zero => exact .refl s
  | succ n ih =>
    unfold takeLoop
    split
    · exact .refl s
    · exact (takeRecord_keeps ..).trans (ih _)

theorem takeAll_keeps (s : State) : Keeps s (takeAll s) := takeLoop_keeps _ s
theorem clearPlan_keeps (s : State) : Keeps s (clearPlan s) := .inner ..
theorem freePlan_keeps (y : LayerId) (s : State) : Keeps s (freePlan y s) := .inner ..
theorem withdrawQueue_keeps (s : State) : Keeps s (withdrawQueue s) := .inner ..
theorem softResetPlan_keeps (s : State) : Keeps s (softResetPlan s) := .inner ..

theorem letGoKeys_keeps (f : DriveKey → Bool) (s : State) : Keeps s (letGoKeys f s) := by
  refine .foldl (fun s k => ?_) _ s
  split
  · exact enterLetGo_keeps ..
  · exact .refl s

theorem letGoReported_keeps (f : DriveKey → Bool) (s : State) : Keeps s (letGoReported f s) :=
  (letGoKeys_keeps f s).trans (respond_keeps ..)

end Sys2Proof.Machine
end

