-- ==== Sys2Proof/Laws/Memory.lean ====
section
/-! SUPPORT. Record memory: every write keeps the canonical form, a read after a write gives what was written, and a write
leaves every other byte alone. -/

namespace Sys2Proof.Machine

theorem memWfFrom_mono {lo lo' : Nat} (h : lo' ≤ lo) {m : List Host.Cell} (w : memWfFrom lo m = true) :
    memWfFrom lo' m = true := by
  cases m with
  | nil => rfl
  | cons c m =>
    obtain ⟨x, b⟩ := c
    simp only [memWfFrom, Bool.and_eq_true, decide_eq_true_eq] at w ⊢
    exact ⟨⟨h.trans w.1.1, w.1.2⟩, w.2⟩

theorem memWfFrom_memWrite {lo a : Nat} (b : Byte) {m : List Host.Cell} (w : memWfFrom lo m = true) (h : lo ≤ a) :
    memWfFrom lo (memWrite m a b) = true := by
  induction m generalizing lo with
  | nil => by_cases hb : b = unlistedByte <;> simp [memWrite, hb, memWfFrom, h]
  | cons c m ih =>
    obtain ⟨x, c⟩ := c
    simp only [memWfFrom, Bool.and_eq_true, decide_eq_true_eq, bne_iff_ne] at w
    obtain ⟨⟨hx, hc⟩, hm⟩ := w
    unfold memWrite
    split
    · split
      · simp [memWfFrom, hx, hc, hm]
      · next hlt hb =>
        simp only [memWfFrom, Bool.and_eq_true, decide_eq_true_eq, bne_iff_ne]
        exact ⟨⟨h, hb⟩, ⟨by omega, hc⟩, hm⟩
    · split
      · next heq =>
        subst heq
        split
        · exact memWfFrom_mono (by omega) hm
        · next hb =>
          simp only [memWfFrom, Bool.and_eq_true, decide_eq_true_eq, bne_iff_ne]
          exact ⟨⟨h, hb⟩, hm⟩
      · simp only [memWfFrom, Bool.and_eq_true, decide_eq_true_eq, bne_iff_ne]
        exact ⟨⟨hx, hc⟩, ih hm (by omega)⟩

/-- A write of one byte keeps the canonical form. -/
theorem memWrite_wf {m : List Host.Cell} (a : Nat) (b : Byte) (w : Memory.wf m = true) : Memory.wf (memWrite m a b) = true :=
  memWfFrom_memWrite b w (Nat.zero_le a)

/-- A write of several bytes keeps the canonical form. -/
theorem memWriteBytes_wf {m : List Host.Cell} (a : Nat) (bs : List Byte) (w : Memory.wf m = true) :
    Memory.wf (memWriteBytes m a bs) = true := by
  induction bs generalizing m a with
  | nil => exact w
  | cons b bs ih => exact ih _ (memWrite_wf a b w)

/-- Below the least listed address every byte is unlisted. -/
theorem memRead_below {lo a : Nat} {m : List Host.Cell} (w : memWfFrom lo m = true) (h : a < lo) :
    memRead m a = unlistedByte := by
  induction m generalizing lo with
  | nil => rfl
  | cons c m ih =>
    obtain ⟨x, c⟩ := c
    simp only [memWfFrom, Bool.and_eq_true, decide_eq_true_eq] at w
    have : x ≠ a := by omega
    simp [memRead, this, ih w.2 (by omega)]

theorem memRead_memWrite_from {lo : Nat} {m : List Host.Cell} (a c : Nat) (b : Byte) (w : memWfFrom lo m = true) :
    memRead (memWrite m a b) c = if c = a then b else memRead m c := by
  induction m generalizing lo with
  | nil =>
    by_cases hb : b = unlistedByte
    · by_cases hc : c = a <;> simp [memWrite, memRead, hb, hc]
    · by_cases hc : c = a
      · subst hc; simp [memWrite, memRead, hb]
      · simp [memWrite, memRead, hb, hc, Ne.symm hc]
  | cons e m ih =>
    obtain ⟨x, d⟩ := e
    simp only [memWfFrom, Bool.and_eq_true, decide_eq_true_eq] at w
    obtain ⟨⟨hx, -⟩, hm⟩ := w
    unfold memWrite
    split
    · next hlt =>
      split
      · next hb =>
        by_cases hc : c = a
        · subst hc
          have hne : x ≠ c := by omega
          simp [memRead, hb, hne, memRead_below hm (show c < x + 1 by omega)]
        · simp [hc]
      · by_cases hc : c = a
        · subst hc; simp [memRead]
        · simp [memRead, hc, Ne.symm hc]
    · split
      · next heq =>
        subst heq
        split
        · next hb =>
          by_cases hc : c = a
          · subst hc; simp [hb, memRead_below hm (Nat.lt_succ_self c)]
          · simp [memRead, hc, Ne.symm hc]
        · by_cases hc : c = a
          · subst hc; simp [memRead]
          · simp [memRead, hc, Ne.symm hc]
      · next h1 h2 =>
        simp only [memRead, ih hm]
        by_cases hc : c = a
        · subst hc; simp [Ne.symm h2]
        · simp [hc]

/-- Reading after a write of one byte. -/
theorem memRead_memWrite {m : List Host.Cell} (a c : Nat) (b : Byte) (w : Memory.wf m = true) :
    memRead (memWrite m a b) c = if c = a then b else memRead m c := memRead_memWrite_from a c b w

/-- Reading after a write of several bytes: the byte written there, or what stood there. -/
theorem memRead_memWriteBytes {m : List Host.Cell} (a c : Nat) (bs : List Byte) (w : Memory.wf m = true) :
    memRead (memWriteBytes m a bs) c = if h : a ≤ c ∧ c - a < bs.length then bs[c - a] else memRead m c := by
  induction bs generalizing m a with
  | nil => simp [memWriteBytes]
  | cons b bs ih =>
    rw [memWriteBytes, ih (a + 1) (memWrite_wf a b w), memRead_memWrite a c b w]
    by_cases h1 : a + 1 ≤ c ∧ c - (a + 1) < bs.length
    · have h2 : a ≤ c ∧ c - a < (b :: bs).length := ⟨by omega, by simp only [List.length_cons]; omega⟩
      have h3 : c - a = c - (a + 1) + 1 := by omega
      simp only [h1, h2, and_self, ↓reduceDIte]
      simp [h3]
    · by_cases h4 : c = a
      · subst h4; simp
      · have h2 : ¬ (a ≤ c ∧ c - a < (b :: bs).length) := by
          simp only [List.length_cons]; omega
        simp only [h1, h2, ↓reduceDIte, h4, if_false]

/-- The bytes read from a list of addresses. -/
theorem memReadBytes_eq (m : List Host.Cell) (a n : Nat) :
    memReadBytes m a n = (List.range n).map fun i => memRead m (a + i) := by
  induction n generalizing a with
  | zero => rfl
  | succ n ih =>
    rw [memReadBytes, ih, List.range_succ_eq_map, List.map_cons, List.map_map]
    congr 1
    apply List.map_congr_left
    intro i _
    simp only [Function.comp_apply]
    congr 1
    omega

/-- The bytes written from an address on are the bytes read there. -/
theorem memReadBytes_memWriteBytes {m : List Host.Cell} (a : Nat) (bs : List Byte) (w : Memory.wf m = true) :
    memReadBytes (memWriteBytes m a bs) a bs.length = bs := by
  rw [memReadBytes_eq]
  apply List.ext_getElem
  · simp
  · intro i h1 h2
    simp only [List.getElem_map, List.getElem_range]
    rw [memRead_memWriteBytes _ _ _ w, dif_pos ⟨by omega, by omega⟩]
    congr 1
    omega

/-- The two bytes of a number joined. -/
theorem join16 (w : Word16) : (w.extractLsb' 8 8 ++ w.extractLsb' 0 8 : BitVec 16) = w := by
  apply BitVec.eq_of_getLsbD_eq; intro i hi
  simp only [BitVec.getLsbD_append, BitVec.getLsbD_extractLsb']
  by_cases h : i < 8
  · simp [h]
  · have : i - 8 < 8 := by omega
    simp [h, this, show 8 + (i - 8) = i by omega]

/-- The four bytes of a number joined. -/
theorem join32 (w : Word32) : ((w.extractLsb' 24 8 ++ w.extractLsb' 16 8 : BitVec 16) ++
    (w.extractLsb' 8 8 ++ w.extractLsb' 0 8 : BitVec 16) : BitVec 32) = w := by
  apply BitVec.eq_of_getLsbD_eq; intro i hi
  simp only [BitVec.getLsbD_append, BitVec.getLsbD_extractLsb']
  rcases (by omega : i < 8 ∨ (8 ≤ i ∧ i < 16) ∨ (16 ≤ i ∧ i < 24) ∨ (24 ≤ i ∧ i < 32)) with h | h | h | h
  · simp [h, show i < 16 by omega]
  · simp [show ¬ i < 8 by omega, h.2, show i - 8 < 8 by omega, show 8 + (i - 8) = i by omega]
  · simp [show ¬ i < 16 by omega, show i - 16 < 8 by omega, show 16 + (i - 16) = i by omega]
  · simp [show ¬ i < 16 by omega, show ¬ i - 16 < 8 by omega, show i - 16 - 8 < 8 by omega,
      show 24 + (i - 16 - 8) = i by omega]

/-- A record read from its own bytes. -/
theorem recordAt_bytes (r : Record) : recordAt r.bytes 0 = r := by
  obtain ⟨kind, target, value, time⟩ := r
  simp only [recordAt, Record.bytes, bytes16, bytes32, byteAt, word16At, word32At, List.cons_append, List.nil_append,
    List.getD_cons_zero, List.getD_cons_succ, Nat.zero_add, Nat.reduceAdd]
  rw [join16 value, join32 time]

/-- The record written at an address is the record read there. -/
theorem memRecord_memWriteBytes_same {m : List Host.Cell} (a : Nat) (r : Record) (w : Memory.wf m = true) :
    memRecord (memWriteBytes m a r.bytes) a = r := by
  have h := memReadBytes_memWriteBytes a r.bytes w
  have hl : r.bytes.length = 8 := rfl
  rw [hl] at h
  rw [memRecord, h, recordAt_bytes]

/-- Record memory after a reset is canonical. -/
theorem reset_memory_wf : Memory.wf State.reset.store.mem = true := rfl

end Sys2Proof.Machine
end

