-- ==== Sys2Proof/Laws/PerInstr.lean ====
section
/-! SUPPORT. Statements made per command, one lemma for each constructor of `Instr`. `RequestFraming`: the request a
well-formed request row takes is well formed, and its body fits the length byte of its transaction (R164). -/

namespace Sys2Proof.Laws

/-- The length of the body of the requests whose body has one length. -/
theorem recordsBytes_length (rs : List Record) : (recordsBytes rs).length = 8 * rs.length := by
  induction rs with
  | nil => rfl
  | cons r rs ih =>
    have h : r.bytes.length = 8 := rfl
    have e : recordsBytes (r :: rs) = r.bytes ++ recordsBytes rs := rfl
    rw [e, List.length_append, h, ih, List.length_cons]
    omega

/-- A well-formed MAP WRITE body has one of its two lengths. -/
theorem mapBody_length (b : MapBody) (h : b.WellFormed = true) : b.bytes.length = 38 ∨ b.bytes.length = 10 := by
  cases b with
  | key n f res =>
    left
    simp [MapBody.bytes, KeyFields.bytes, bytes16, bytes24, List.length_flatMap]
  | pedal n f res => right; simp [MapBody.bytes, PedalFields.bytes, bytes16]
  | other bs =>
    simp only [MapBody.WellFormed, Bool.and_eq_true, Bool.or_eq_true, beq_iff_eq] at h
    exact h.1.1

/-- The request of a row, where it has one, is well formed and its body is at most 255 bytes. -/
def RequestFraming.Statement (i : Instr) : Prop :=
  i.WellFormed = true → ∀ l q, i.request? = some (l, q) → q.WellFormed = true ∧ q.body.length ≤ 255

theorem RequestFraming.powerOnReset : Statement .powerOnReset := by
  intro w l q h
  cases h

theorem RequestFraming.keySample : ∀ x0, Statement (.keySample x0) := by
  intro x0 w l q h
  cases h

theorem RequestFraming.gate1Event : ∀ x0 x1, Statement (.gate1Event x0 x1) := by
  intro x0 x1 w l q h
  cases h

theorem RequestFraming.gate2Event : ∀ x0 x1, Statement (.gate2Event x0 x1) := by
  intro x0 x1 w l q h
  cases h

theorem RequestFraming.windowExpiry : ∀ x0, Statement (.windowExpiry x0) := by
  intro x0 w l q h
  cases h

theorem RequestFraming.clockAdvance : ∀ x0 x1, Statement (.clockAdvance x0 x1) := by
  intro x0 x1 w l q h
  cases h

theorem RequestFraming.servicePeriod : Statement .servicePeriod := by
  intro w l q h
  cases h

theorem RequestFraming.integrityCheck : Statement .integrityCheck := by
  intro w l q h
  cases h

theorem RequestFraming.supplyReading : ∀ x0, Statement (.supplyReading x0) := by
  intro x0 w l q h
  cases h

theorem RequestFraming.syncPulse : Statement .syncPulse := by
  intro w l q h
  cases h

theorem RequestFraming.lossIntervalExpiry : Statement .lossIntervalExpiry := by
  intro w l q h
  cases h

theorem RequestFraming.strikeGraceExpiry : ∀ x0, Statement (.strikeGraceExpiry x0) := by
  intro x0 w l q h
  cases h

theorem RequestFraming.reboundEnd : ∀ x0, Statement (.reboundEnd x0) := by
  intro x0 w l q h
  cases h

theorem RequestFraming.letGoExpiry : ∀ x0, Statement (.letGoExpiry x0) := by
  intro x0 w l q h
  cases h

theorem RequestFraming.wakeExpiry : Statement .wakeExpiry := by
  intro w l q h
  cases h

theorem RequestFraming.pulseRequest : Statement .pulseRequest := by
  intro w l q h
  cases h

theorem RequestFraming.pulseFire : Statement .pulseFire := by
  intro w l q h
  cases h

theorem RequestFraming.pulseGraceExpiry : ∀ x0, Statement (.pulseGraceExpiry x0) := by
  intro x0 w l q h
  cases h

theorem RequestFraming.restDeadline : Statement .restDeadline := by
  intro w l q h
  cases h

theorem RequestFraming.requestTransaction : ∀ x0 x1 x2, Statement (.requestTransaction x0 x1 x2) := by
  intro x0 x1 x2 w l q h
  cases h

theorem RequestFraming.transactionDiscarded : ∀ x0 x1, Statement (.transactionDiscarded x0 x1) := by
  intro x0 x1 w l q h
  cases h

theorem RequestFraming.fetch : ∀ x0 x1, Statement (.fetch x0 x1) := by
  intro x0 x1 w l q h
  cases h

theorem RequestFraming.captureStart : ∀ x0 x1, Statement (.captureStart x0 x1) := by
  intro x0 x1 w l q h
  cases h
  exact ⟨rfl, Nat.le_of_ble_eq_true rfl⟩

theorem RequestFraming.captureStop : ∀ x0, Statement (.captureStop x0) := by
  intro x0 w l q h
  cases h
  exact ⟨rfl, Nat.le_of_ble_eq_true rfl⟩

theorem RequestFraming.captureSet : ∀ x0 x1 x2 x3 x4, Statement (.captureSet x0 x1 x2 x3 x4) := by
  intro x0 x1 x2 x3 x4 w l q h
  cases h
  exact ⟨rfl, Nat.le_of_ble_eq_true rfl⟩

theorem RequestFraming.takeOpen : ∀ x0, Statement (.takeOpen x0) := by
  intro x0 w l q h
  cases h
  exact ⟨rfl, Nat.le_of_ble_eq_true rfl⟩

theorem RequestFraming.append : ∀ x0 x1 x2, Statement (.append x0 x1 x2) := by
  intro x0 x1 x2 w l q h
  simp only [Instr.request?, Option.some.injEq, Prod.mk.injEq] at h
  obtain ⟨-, rfl⟩ := h
  have w' : recordsWellFormed x2 = true := w
  refine ⟨w', ?_⟩
  simp only [recordsWellFormed, Bool.and_eq_true, decide_eq_true_eq] at w'
  simp only [Request.body, List.length_cons, recordsBytes_length]
  omega

theorem RequestFraming.close : ∀ x0 x1 x2, Statement (.close x0 x1 x2) := by
  intro x0 x1 x2 w l q h
  cases h
  exact ⟨rfl, Nat.le_of_ble_eq_true rfl⟩

theorem RequestFraming.read : ∀ x0 x1 x2 x3, Statement (.read x0 x1 x2 x3) := by
  intro x0 x1 x2 x3 w l q h
  cases h
  exact ⟨rfl, Nat.le_of_ble_eq_true rfl⟩

theorem RequestFraming.info : ∀ x0 x1, Statement (.info x0 x1) := by
  intro x0 x1 w l q h
  cases h
  exact ⟨rfl, Nat.le_of_ble_eq_true rfl⟩

theorem RequestFraming.erase : ∀ x0 x1, Statement (.erase x0 x1) := by
  intro x0 x1 w l q h
  cases h
  exact ⟨rfl, Nat.le_of_ble_eq_true rfl⟩

theorem RequestFraming.clockRun : ∀ x0 x1 x2, Statement (.clockRun x0 x1 x2) := by
  intro x0 x1 x2 w l q h
  cases h
  exact ⟨rfl, Nat.le_of_ble_eq_true rfl⟩

theorem RequestFraming.clockPause : ∀ x0, Statement (.clockPause x0) := by
  intro x0 w l q h
  cases h
  exact ⟨rfl, Nat.le_of_ble_eq_true rfl⟩

theorem RequestFraming.clockStop : ∀ x0, Statement (.clockStop x0) := by
  intro x0 w l q h
  cases h
  exact ⟨rfl, Nat.le_of_ble_eq_true rfl⟩

theorem RequestFraming.clockLocate : ∀ x0 x1, Statement (.clockLocate x0 x1) := by
  intro x0 x1 w l q h
  cases h
  exact ⟨rfl, Nat.le_of_ble_eq_true rfl⟩

theorem RequestFraming.clockSource : ∀ x0 x1 x2, Statement (.clockSource x0 x1 x2) := by
  intro x0 x1 x2 w l q h
  cases h
  exact ⟨rfl, Nat.le_of_ble_eq_true rfl⟩

theorem RequestFraming.mapRead : ∀ x0 x1 x2, Statement (.mapRead x0 x1 x2) := by
  intro x0 x1 x2 w l q h
  cases h
  exact ⟨rfl, Nat.le_of_ble_eq_true rfl⟩

theorem RequestFraming.mapWrite : ∀ x0 x1, Statement (.mapWrite x0 x1) := by
  intro x0 x1 w l q h
  simp only [Instr.request?, Option.some.injEq, Prod.mk.injEq] at h
  obtain ⟨-, rfl⟩ := h
  have w' : x1.WellFormed = true := w
  refine ⟨w', ?_⟩
  have := mapBody_length x1 w'
  simp only [Request.body]
  omega

theorem RequestFraming.mapClear : ∀ x0, Statement (.mapClear x0) := by
  intro x0 w l q h
  cases h
  exact ⟨rfl, Nat.le_of_ble_eq_true rfl⟩

theorem RequestFraming.mapAccept : ∀ x0, Statement (.mapAccept x0) := by
  intro x0 w l q h
  cases h
  exact ⟨rfl, Nat.le_of_ble_eq_true rfl⟩

theorem RequestFraming.layerBind : ∀ x0 x1 x2 x3, Statement (.layerBind x0 x1 x2 x3) := by
  intro x0 x1 x2 x3 w l q h
  cases h
  exact ⟨rfl, Nat.le_of_ble_eq_true rfl⟩

theorem RequestFraming.layerMarks : ∀ x0 x1 x2 x3, Statement (.layerMarks x0 x1 x2 x3) := by
  intro x0 x1 x2 x3 w l q h
  cases h
  exact ⟨rfl, Nat.le_of_ble_eq_true rfl⟩

theorem RequestFraming.layerFeed : ∀ x0 x1 x2, Statement (.layerFeed x0 x1 x2) := by
  intro x0 x1 x2 w l q h
  simp only [Instr.request?, Option.some.injEq, Prod.mk.injEq] at h
  obtain ⟨-, rfl⟩ := h
  have w' : recordsWellFormed x2 = true := w
  refine ⟨w', ?_⟩
  simp only [recordsWellFormed, Bool.and_eq_true, decide_eq_true_eq] at w'
  simp only [Request.body, List.length_cons, recordsBytes_length]
  omega

theorem RequestFraming.layerSet : ∀ x0 x1 x2, Statement (.layerSet x0 x1 x2) := by
  intro x0 x1 x2 w l q h
  cases h
  exact ⟨rfl, Nat.le_of_ble_eq_true rfl⟩

theorem RequestFraming.layerCue : ∀ x0 x1 x2 x3 x4 x5, Statement (.layerCue x0 x1 x2 x3 x4 x5) := by
  intro x0 x1 x2 x3 x4 x5 w l q h
  cases h
  exact ⟨rfl, Nat.le_of_ble_eq_true rfl⟩

theorem RequestFraming.layerFree : ∀ x0 x1, Statement (.layerFree x0 x1) := by
  intro x0 x1 w l q h
  cases h
  exact ⟨rfl, Nat.le_of_ble_eq_true rfl⟩

theorem RequestFraming.layerInfo : ∀ x0 x1, Statement (.layerInfo x0 x1) := by
  intro x0 x1 w l q h
  cases h
  exact ⟨rfl, Nat.le_of_ble_eq_true rfl⟩

theorem RequestFraming.dropsRead : ∀ x0, Statement (.dropsRead x0) := by
  intro x0 w l q h
  cases h
  exact ⟨rfl, Nat.le_of_ble_eq_true rfl⟩

theorem RequestFraming.planSet : ∀ x0 x1 x2, Statement (.planSet x0 x1 x2) := by
  intro x0 x1 x2 w l q h
  cases h
  exact ⟨rfl, Nat.le_of_ble_eq_true rfl⟩

theorem RequestFraming.allOff : ∀ x0, Statement (.allOff x0) := by
  intro x0 w l q h
  cases h
  exact ⟨rfl, Nat.le_of_ble_eq_true rfl⟩

theorem RequestFraming.keysClear : ∀ x0 x1, Statement (.keysClear x0 x1) := by
  intro x0 x1 w l q h
  cases h
  exact ⟨rfl, Nat.le_of_ble_eq_true rfl⟩

theorem RequestFraming.quietEnter : ∀ x0, Statement (.quietEnter x0) := by
  intro x0 w l q h
  cases h
  exact ⟨rfl, Nat.le_of_ble_eq_true rfl⟩

theorem RequestFraming.quietLeave : ∀ x0, Statement (.quietLeave x0) := by
  intro x0 w l q h
  cases h
  exact ⟨rfl, Nat.le_of_ble_eq_true rfl⟩

theorem RequestFraming.driveSet : ∀ x0 x1 x2 x3, Statement (.driveSet x0 x1 x2 x3) := by
  intro x0 x1 x2 x3 w l q h
  cases h
  exact ⟨rfl, Nat.le_of_ble_eq_true rfl⟩

theorem RequestFraming.driveInfo : ∀ x0 x1 x2, Statement (.driveInfo x0 x1 x2) := by
  intro x0 x1 x2 w l q h
  cases h
  exact ⟨rfl, Nat.le_of_ble_eq_true rfl⟩

theorem RequestFraming.calRun : ∀ x0 x1 x2 x3 x4 x5, Statement (.calRun x0 x1 x2 x3 x4 x5) := by
  intro x0 x1 x2 x3 x4 x5 w l q h
  cases h
  exact ⟨rfl, Nat.le_of_ble_eq_true rfl⟩

theorem RequestFraming.calStop : ∀ x0, Statement (.calStop x0) := by
  intro x0 w l q h
  cases h
  exact ⟨rfl, Nat.le_of_ble_eq_true rfl⟩

theorem RequestFraming.status : ∀ x0, Statement (.status x0) := by
  intro x0 w l q h
  cases h
  exact ⟨rfl, Nat.le_of_ble_eq_true rfl⟩

theorem RequestFraming.noticeClear : ∀ x0 x1, Statement (.noticeClear x0 x1) := by
  intro x0 x1 w l q h
  cases h
  exact ⟨rfl, Nat.le_of_ble_eq_true rfl⟩

theorem RequestFraming.noticeMask : ∀ x0 x1, Statement (.noticeMask x0 x1) := by
  intro x0 x1 w l q h
  cases h
  exact ⟨rfl, Nat.le_of_ble_eq_true rfl⟩

theorem RequestFraming.partReset : ∀ x0, Statement (.partReset x0) := by
  intro x0 w l q h
  cases h
  exact ⟨rfl, Nat.le_of_ble_eq_true rfl⟩

theorem RequestFraming.resetLineLow : Statement .resetLineLow := by
  intro w l q h
  cases h

theorem RequestFraming.fetchSelectInactive : ∀ x0 x1, Statement (.fetchSelectInactive x0 x1) := by
  intro x0 x1 w l q h
  cases h

end Sys2Proof.Laws
end

