-- ==== Sys2Proof/Laws/Schedule.lean ====
section
/-! SUPPORT. What the scheduler's shared operations answer: due processing, the slot arbiter and the takings where they have
nothing to act on, what an action carried out becomes by its kind, and a looked-at action's three ways through the loop. -/

namespace Sys2Proof.Machine

/-! ### The fields a sample writes -/

@[simp] theorem sampled_state (d : DriveKey) (p : KeyPos) (n : Nat) : (d.sampled p n).state = d.state := rfl
@[simp] theorem sampled_owner (d : DriveKey) (p : KeyPos) (n : Nat) : (d.sampled p n).owner = d.owner := rfl
@[simp] theorem sampled_lastPos (d : DriveKey) (p : KeyPos) (n : Nat) : (d.sampled p n).lastPos = p := rfl
@[simp] theorem sampled_repetitionAt (d : DriveKey) (p : KeyPos) (n : Nat) : (d.sampled p n).repetitionAt = n := rfl
@[simp] theorem sampled_fire (d : DriveKey) (p : KeyPos) (n : Nat) : (d.sampled p n).fire = d.fire := rfl
@[simp] theorem sampled_hot (d : DriveKey) (p : KeyPos) (n : Nat) : (d.sampled p n).hot = d.hot := rfl
@[simp] theorem sampled_lastFire (d : DriveKey) (p : KeyPos) (n : Nat) : (d.sampled p n).lastFire = d.lastFire := rfl
@[simp] theorem sampled_letGoAt (d : DriveKey) (p : KeyPos) (n : Nat) : (d.sampled p n).letGoAt = d.letGoAt := rfl

/-! ### The processing loop, one look at a time (R117, R119) -/

@[simp] theorem processLoop_fuel_zero (again todo : List Nat) (s : State) : processLoop 0 again todo s = s := by
  cases todo <;> rfl

@[simp] theorem processLoop_nil (fuel : Nat) (again : List Nat) (s : State) : processLoop fuel again [] s = s := by
  cases fuel <;> rfl

/-- An action that is not processable is passed by. -/
theorem processLoop_skip {fuel n : Nat} {again todo : List Nat} {s : State} {a : Action} (h : s.action n = some a)
    (hp : processable again s a = false) : processLoop (fuel + 1) again (n :: todo) s = processLoop fuel again todo s := by
  simp [processLoop, h, hp]

/-- An action carried out that changes no key's drive state leaves the loop where it is. -/
theorem processLoop_quiet {fuel n : Nat} {again todo : List Nat} {s : State} {a : Action} (h : s.action n = some a)
    (hp : processable again s a = true) (hc : ∀ k, ((carryOut a s).driveKey k).state = (s.driveKey k).state) :
    processLoop (fuel + 1) again (n :: todo) s = processLoop fuel (again.filter fun m => m ≠ n) todo (carryOut a s) := by
  have hq : (allKeys.any (changedKeys s (carryOut a s))) = false :=
    List.any_eq_false.mpr fun k _ => by simp [changedKeys, hc k]
  rw [processLoop, h]
  simp [hp, hq]

/-- An action carried out that changes a key's drive state starts the processing over, that key's strikes offered again. -/
theorem processLoop_restart {fuel n : Nat} {again todo : List Nat} {s : State} {a : Action} {k : Key} (h : s.action n = some a)
    (hp : processable again s a = true) (hc : ((carryOut a s).driveKey k).state ≠ (s.driveKey k).state) :
    processLoop (fuel + 1) again (n :: todo) s =
      processLoop fuel ((again.filter fun m => m ≠ n) ++ reoffers (changedKeys s (carryOut a s)) (carryOut a s))
        (carryOut a s).planSerials (carryOut a s) := by
  have hq : (allKeys.any (changedKeys s (carryOut a s))) = true :=
    List.any_eq_true.mpr ⟨k, List.mem_finRange k, by simp [changedKeys, Ne.symm hc]⟩
  rw [processLoop, h]
  simp [hp, hq]

/-- The strikes a report offers again: those of the named keys that wait, but for the arbiter's own (R119). -/
theorem mem_reoffers {named : Key → Bool} {s : State} {n : Nat} :
    n ∈ reoffers named s ↔
      ∃ a ∈ s.sched.plan, a.serial = n ∧ reofferable s a = true ∧ ∃ k, a.strikeKey? = some k ∧ named k = true := by
  simp only [reoffers, List.mem_map, List.mem_filter, Bool.and_eq_true, Option.any_eq_true]
  constructor
  · rintro ⟨a, ⟨h, hr, k, hk, hn⟩, rfl⟩
    exact ⟨a, h, rfl, hr, k, hk, hn⟩
  · rintro ⟨a, h, rfl, hr, k, hk, hn⟩
    exact ⟨a, ⟨h, hr, k, hk, hn⟩, rfl⟩

/-! ### Nothing to act on -/

theorem processDue_of_not_running {named : Key → Bool} {s : State} (h : s.clk.state ≠ .running) : processDue named s = s := by
  simp [processDue, State.running, h]

theorem processDue_of_plan_nil {named : Key → Bool} {s : State} (h : s.sched.plan = []) : processDue named s = s := by
  simp [processDue, State.planSerials, h]

theorem processDue_of_nothing {named : Key → Bool} {s : State} (h : NothingToSchedule s) : processDue named s = s :=
  h.2.elim processDue_of_not_running fun g => processDue_of_plan_nil g.1

theorem arbiter_of_queue_nil {s : State} (h : s.drive.queue = []) : arbiter s = s := by
  simp [arbiter, h, arbiterLoop]

theorem arbiter_of_no_slot {s : State} (h : s.slotFree = false) : arbiter s = s := by
  unfold arbiter
  cases s.drive.queue.length with
  | zero => rfl
  | succ n => simp [arbiterLoop, h]

/-- A report of the drive unit's changes adds nothing where the scheduler has nothing to process. -/
theorem respond_of_nothing {s t : State} (h : NothingToSchedule t) : respond s t = t := by
  simp [respond, arbiter_of_queue_nil h.1, processDue_of_nothing h]

theorem reportKey_of_nothing {k : Key} {s : State} (h : NothingToSchedule s) : reportKey k s = s := processDue_of_nothing h
theorem reportSupply_of_nothing {s : State} (h : NothingToSchedule s) : reportSupply s = s := processDue_of_nothing h

theorem readyRecord_of_ring_nil {y : LayerId} {s : State} (h : (s.layer y).ring = []) : readyRecord y s = none := by
  simp [readyRecord, h]

theorem readyRecord_of_not_running {y : LayerId} {s : State} (h : s.clk.state ≠ .running) : readyRecord y s = none := by
  unfold readyRecord
  cases hr : (s.layer y).ring with
  | nil => simp [hr]
  | cons r rest => simp [hr, State.running, h]

theorem nextTaking_of_nothing {s : State} (h : NothingToSchedule s) : nextTaking s = none := by
  have hr : ∀ y, readyRecord y s = none := fun y =>
    h.2.elim readyRecord_of_not_running fun g => readyRecord_of_ring_nil (g.2 y)
  simp [nextTaking, hr]

theorem takeAll_of_nothing {s : State} (h : NothingToSchedule s) : takeAll s = s := by
  unfold takeAll
  cases s.recordsLeft .l0 + s.recordsLeft .l1 with
  | zero => rfl
  | succ n => simp [takeLoop, nextTaking_of_nothing h]

/-! ### An action carried out, by its kind (R117, R118, R137) -/

theorem carryOut_pedal {a : Action} {p : Pedal} {v : Nat} {s : State} (h : a.body = .pedal p v) :
    carryOut a s = leavePlan a (if (s.layer a.layer).latched.passes p then setDemand a.layer p (some v) s else s) := by
  simp [carryOut, h]

theorem carryOut_release {a : Action} {k : Key} {auto : Option AutoFlag} {s : State} (h : a.body = .release k auto) :
    carryOut a s = leavePlan a (handRelease k a.layer s) := by
  simp [carryOut, h]

theorem carryOut_depress {a : Action} {k : Key} {d : Nat} {s : State} (h : a.body = .depress k d) :
    carryOut a s = leavePlan a (handDepress k a.layer d s) := by
  simp [carryOut, h]

/-- A strike carried out is dropped LATE at a first processing beyond the tolerance, and offered otherwise. -/
theorem carryOut_strike {a : Action} {k : Key} {v d f : Nat} {w : Option WaitReason} {s : State}
    (h : a.body = .strike k v d f w) :
    a.wait = none ∧ (s.sched.late : Int) < s.lateness a ∧ carryOut a s = dropStrike .late a s ∨
      ¬ (a.wait = none ∧ (s.sched.late : Int) < s.lateness a) ∧ carryOut a s = offerStrike a k s := by
  by_cases c : a.wait = none ∧ (s.sched.late : Int) < s.lateness a
  · exact .inl ⟨c.1, c.2, by simp [carryOut, h, c]⟩
  · refine .inr ⟨c, ?_⟩
    simp only [carryOut, h]
    rw [if_neg (by simpa [Option.isNone_iff_eq_none] using c)]

/-- A RELEASE handed to the drive unit: discarded, or the owner's, with the arbiter's look where it gives a slot back. -/
theorem handRelease_cases (k : Key) (y : LayerId) (s : State) :
    (¬ ((s.driveKey k).state.holdsKey = true ∧ (s.driveKey k).owner = some y) ∧ handRelease k y s = s) ∨
      ((s.driveKey k).state.holdsKey = true ∧ (s.driveKey k).owner = some y ∧
        handRelease k y s = if (s.driveKey k).state.holdsSlot then arbiter (enterLetGo k s) else enterLetGo k s) := by
  by_cases c : (s.driveKey k).state.holdsKey = true ∧ (s.driveKey k).owner = some y
  · exact .inr ⟨c.1, c.2, by simp [handRelease, c]⟩
  · exact .inl ⟨c, by simp only [handRelease, if_neg c]⟩

end Sys2Proof.Machine
end

