-- ==== Sys2Proof/Tests/Slice0.lean ====
section
/-! SUPPORT. The model's own tests: the well-formedness checks, requests read from bytes written out from section 11.3, the
manual's worked numbers, a few single commands, and for every statement with hypotheses a state that meets them. -/

namespace Sys2Proof.Tests

open Sys2Proof Sys2Proof.Machine

-- One theorem at a time: each evaluates a state in the kernel, and many at once ask for more memory than a build has.
set_option Elab.async false

/-! ### Small states -/

/-- A request standing in a link's slot. -/
def serving (l : Link) (q : Request) (s : State) : State := s.setLink l { (s.link l) with slots := .serving q }

/-- Directory entry 0 replaced, its blocks gone from the pool. -/
def withTake (e : TakeEntry) (s : State) : State :=
  { s with store := { s.store with dir := bankSet s.store.dir 0 e, pool := (List.range 256).drop e.blocks.length } }

/-- An OPEN take of one block, 0 records long. -/
def openTake (w : Writer) : TakeEntry :=
  { state := .opened, writer := some w, length := 0, lastTime := 0, blocks := [0], bound := 0, origin := none }

/-- A CLOSED take of one block whose only record is its END; the END's bytes stand at the block's start. -/
def closedTake : State :=
  withTake { (openTake .capture) with state := .closed, writer := none, length := 1 }
    { State.reset with store := { State.reset.store with mem := [(0, 6)] } }

/-- The clock in a state at a position. -/
def clockAt (st : ClockState) (p : Nat) (s : State) : State := { s with clk := { s.clk with state := st, position := p } }

/-- The wall timer at an instant. -/
def atNow (n : Nat) (s : State) : State := { s with wall := { s.wall with now := n } }

/-- The capture unit in a state with take 0 as its target. -/
def capturing (st : CaptureState) (origin : Option Nat) (s : State) : State :=
  let s := withTake (openTake .capture) s
  { s with cap := { s.cap with state := st, target := some 0, origin := origin } }

/-- The same with take 0 full to the place of its END and no block in the pool. -/
def captureFull (s : State) : State :=
  let s := capturing .recording (some 0) s
  { s with store := { s.store with dir := bankSet s.store.dir 0 { (openTake .capture) with length := 511 }, pool := [] } }

/-- A fire in flight of a strike of layer 0. -/
def strikeFire (grace : Nat) : Fire :=
  { kind := .strike .l0 500 405 1612 27176 27176, firedAt := 0, grace := grace, applied := 1612 }

/-- A fire in flight of a calibration pulse. -/
def pulseFire (grace : Nat) : Fire := { kind := .pulse, firedAt := 0, grace := grace, applied := 900 }

/-- Key 39's drive record replaced. -/
def key39 (d : DriveKey) (s : State) : State := s.setDriveKey 39 d

/-- A key being driven by layer 0, in STRIKE or SUSTAIN, with a rebound gap of 10. -/
def driven (st : DriveState) : DriveKey :=
  { DriveKey.reset with state := st, owner := some .l0, sustainDemand := some 840, reboundGap := some 10 }

/-- Layer 0 replaced. -/
def layer0 (l : Layer) (s : State) : State := { s with layer0 := l }

/-- Layer 0 bound to a stream of LINK_A in a state. -/
def streaming (st : LayerState) : Layer := { Layer.reset with state := st, source := some (.stream .a) }

/-- A run on key 39 in a state, waiting. -/
def running (st : RunState) (kind : RunKind) (w : RunWait) (s : State) : State :=
  { s with run := { s.run with
      state := st, kind := kind, keys := BitVec.twoPow 88 39, current := some 39, wait := w
      copy := some { entry := KeyEntry.zero, integrity := .good } } }

/-- The key entry of the manual's worked strikes (sections 4.7 and 6.9): key 39. -/
def entry39 : KeyEntry :=
  { state := 1, t := 900, sd := 840
    knots := ⟨#[900, 1000, 1200, 1500, 1850, 2250, 2700, 3250, 4095], rfl⟩, g := 17203, lfix := 6000
    dLow := BitVec.ofNat 16 (9000000 % 65536), dHigh := BitVec.ofNat 16 (9000000 / 65536), s := 3000, rm := 1000
    rebound := 10, result := 1 }

/-! ### Well-formedness: each check refuses an ill-formed term -/

/-- All 88 keys at one position. -/
def readings (p : KeyPos) : List (Key × KeyPos) := (List.finRange 88).map fun k => (k, p)

/-- A record, and a list of `n` of them. -/
def mark : Record := { kind := 5, target := 0, value := 7, time := 100 }

theorem test_key_sample_whole : (Instr.keySample (readings 0)).WellFormed = true := by decide
theorem test_key_sample_short : (Instr.keySample ((readings 0).drop 1)).WellFormed = false := by decide
theorem test_key_sample_twice :
    (Instr.keySample ((1, 5) :: (readings 0).tail)).WellFormed = false := by decide
theorem test_append_none : (Instr.append .a 0 []).WellFormed = false := by decide
theorem test_append_thirty_one : (Instr.append .a 0 (List.replicate 31 mark)).WellFormed = false := by decide
theorem test_append_thirty : (Instr.append .a 0 (List.replicate 30 mark)).WellFormed = true := by decide
theorem test_feed_none : (Instr.layerFeed .b 0 []).WellFormed = false := by decide
theorem test_map_write_of_no_entry :
    (Instr.mapWrite .a (.other [2, 0])).WellFormed = false ∧
      (Instr.mapWrite .a (.other (0 :: List.replicate 37 0))).WellFormed = false ∧
      (Instr.mapWrite .a (.other (2 :: List.replicate 37 0))).WellFormed = true := by decide
theorem test_discarded_is_incomplete :
    (Instr.transactionDiscarded .a [0x51, 0x7C, 0]).WellFormed = false ∧
      (Instr.transactionDiscarded .a [0x51, 0x7D, 2, 0]).WellFormed = true := by decide

/-! ### Requests read from the bytes section 11.3 gives -/

theorem test_read_capture_set : decodeRequest 0x03 [0x01, 0x90, 0x01, 0xF4, 0x02, 0x58, 4] =
    .request (.captureSet 400 500 600 4) := by decide
theorem test_read_append : decodeRequest 0x11 [7, 1, 39, 0x01, 0x95, 0x00, 0x00, 0x07, 0xED] =
    .request (.append 7 [{ kind := 1, target := 39, value := 405, time := 2029 }]) := by decide
theorem test_read_clock_locate : decodeRequest 0x23 [0xFF, 0xFF, 0xFF, 0xFE] =
    .request (.clockLocate (-2)) := by decide
theorem test_read_map_write_pedal : decodeRequest 0x31 [1, 2, 0x01, 0x2C, 0x08, 0xFC, 0x07, 0xD0, 2, 0] =
    .request (.mapWrite (.pedal 2 { rest := 300, full := 2300, lead := 2000, deadband := 2 } 0)) := by decide
theorem test_read_layer_cue : decodeRequest 0x44 [1, 1, 0, 0, 0, 3, 0, 0, 3, 0xC0, 0xF0] =
    .request (.layerCue 1 1 3 0 246000) := by decide
theorem test_read_keys_clear : decodeRequest 0x60 [0x01, 0, 0, 0, 0x80, 0, 0, 0, 0, 0, 0x80] =
    .request (.keysClear (BitVec.twoPow 88 0 ||| BitVec.twoPow 88 39 ||| BitVec.twoPow 88 87)) := by decide
theorem test_read_cal_run :
    decodeRequest 0x70 [1, 0x01, 0, 0, 0, 0, 0, 0, 0, 0, 0, 0, 1, 0x01, 0x90, 4] =
      .request (.calRun 1 1 1 400 4) := by decide
theorem test_read_drive_set : decodeRequest 0x63 [12, 0x01, 0xE0, 80] = .request (.driveSet 12 480 80) := by decide
theorem test_read_notice_clear : decodeRequest 0x7D [0x84, 0x01] = .request (.noticeClear 0x8401) := by decide
theorem test_read_bad_kind_and_length : decodeRequest 0x50 [] = .badKind ∧ decodeRequest 0x45 [] = .badLen := by decide
theorem test_status_transaction :
    completeRequest [0x51, 0x7C, 0, 9, 9] = some (0x7C, []) ∧ completeRequest [0x50, 0x7C, 0] = none ∧
      completeRequest [0x51, 0x7D, 2, 1] = none := by decide
theorem test_no_word_spells_a_command : decodeTableWord 32 0x51 = none := rfl

/-! ### The manual's worked numbers -/

/-- The table of R7 for the spacing 3000. -/
theorem test_hammer_velocity :
    hammerVelocity 3000 500 = 1023 ∧ hammerVelocity 3000 1480 = 405 ∧ hammerVelocity 3000 2400 = 250 ∧
      hammerVelocity 3000 15000 = 40 ∧ hammerVelocity 3000 60000 = 10 := by decide

/-- The worked strike of section 6.9 on key 39's entry, from its velocity of 400 under scale 14 to its applied drive. -/
theorem test_worked_strike :
    layerVelocity 400 14 0 = 350 ∧ gainVelocity 350 17203 = 367 ∧
      strikeValues entry39 .good 350 = { demand := 1460, lead := 611, flight := 30523 } ∧
      compensate 1460 480 456 = 1537 ∧ heatAfterFire 0 1537 = 96 := by decide +kernel

/-- The two strikes of section 7.8 on the same entry, and the proof of section 9.5. -/
theorem test_worked_repetition_and_proof :
    strikeValues entry39 .good 405 = { demand := 1612, lead := 544, flight := 27176 } ∧
      strikeValues entry39 .good 250 = { demand := 1214, lead := 808, flight := 40351 } ∧
      gainVelocity 400 17203 = 420 ∧ demandAt entry39 420 = 1598 ∧ flightAt entry39 420 = 27428 := by decide +kernel

/-- R103's pedal drive, and its compensation and R101's ceiling. -/
theorem test_pedal_drive_and_compensation :
    pedalDrive { state := 1, rest := 300, full := 2300, lead := 0, deadband := 2 } 180 = 1712 ∧
      compensate 1712 480 456 = 1802 ∧ compensate 4000 480 400 = 4095 := by decide

/-- The sag threshold and the hysteresis of R143: 384 for Vnom 480 at 80 percent; live until 392. -/
theorem test_sag_hysteresis :
    vsag 480 80 = 384 ∧
      ([400, 383, 388, 391, 392, 383].foldl (fun (x : Drive × List Bool) v =>
        let d : Drive := { x.1 with vmeas := v }
        ({ d with sag := d.judgedSag }, x.2 ++ [d.judgedSag])) (Drive.reset, [])).2 =
          [false, true, true, true, false, true] := by decide

/-! ### Single steps of the manual's worked sequences -/

/-- A value of the next state of a command. -/
def after {α : Type} (c : Instr) (s : State) (f : State → α) : Option α :=
  match exec c s with
  | .next t => some (f t)
  | _ => none

/-- Section 1.3: key 39's gate-2 event 1480 µs after gate 1 at clock 50,029 with origin 48,000 writes STRIKE 405 at 2029. -/
theorem test_sequence_1_3_strike :
    let s := (atNow 1480 (clockAt .running 50029 (capturing .recording (some 48000) State.reset))).setCapKey 39
      { CapKey.reset with state := .gate1, gate1At := some 0 }
    after (.gate2Event 39 .toward) s (fun t => (t.store.records 0 0 1, (t.capKey 39).held)) =
      some ([{ kind := 1, target := 39, value := 405, time := 2029 }], true) := by decide +kernel

/-- Section 2.7, step 1: the record that would take the last place of block 88 brings block 200. -/
theorem test_sequence_2_7_append :
    let e : TakeEntry := { (openTake (.link .b)) with length := 1023, lastTime := 90000, blocks := [31, 88] }
    let s := serving .b (.append 0 [{ kind := 5, target := 0, value := 1, time := 90000 }])
      { State.reset with store := { State.reset.store with dir := bankSet State.reset.store.dir 0 e, pool := [200] } }
    after (.append .b 0 [{ kind := 5, target := 0, value := 1, time := 90000 }]) s
        (fun t => ((t.store.entry 0).blocks, (t.store.entry 0).length, t.store.pool)) =
      some ([31, 88, 200], 1024, []) := by decide +kernel

/-- Section 3.4: the advance onto 40,000 with 6 ticks owed goes to 40,001 and leaves 5. -/
theorem test_sequence_3_4_skip :
    let s := atNow 50 (clockAt .running 39999 { State.reset with clk := { State.reset.clk with source := .sync, owed := 6 } })
    after (.clockAdvance ⟨0, 0, 0⟩ []) s (fun t => (t.clk.position, t.clk.owed)) = some (40001, 5) := by decide +kernel

/-- Section 3.4: the pulse at 44,011 owes −8; one at 48,100 is a FAULT with SYNC on both links. -/
theorem test_sequence_3_4_pulses :
    let s (p : Nat) := clockAt .running p { State.reset with clk := { State.reset.clk with source := .sync } }
    after .syncPulse (s 44011) (fun t => (t.clk.tracking, t.clk.owed)) = some (.tracking, -8) ∧
      after .syncPulse (s 48100) (fun t => (t.clk.tracking, t.clk.owed, t.noticed .a .sync, t.noticed .b .sync)) =
        some (.fault, 0, true, true) := by decide +kernel

/-- Section 3.5: CLOCK LOCATE −500 leaves the clock at 0. -/
theorem test_sequence_3_5_locate :
    after (.clockLocate .a (-500)) (serving .a (.clockLocate (-500)) (clockAt .stopped 7 State.reset))
      (fun t => t.clk.position) = some 0 := by decide +kernel

/-- The body of key 39 in section 4.7. -/
def worked39 : MapBody :=
  .key 39
    { t := 900, sd := 840, knots := entry39.knots, g := 17203, lfix := 6000, dtravel := 9000000, s := 3000, rm := 1000
      rebound := 10 } 0

/-- Section 4.7, step 1: the check word becomes 69,404. -/
theorem test_sequence_4_7_write :
    after (.mapWrite .a worked39) (serving .a (.mapWrite worked39) State.reset) (fun t => t.map.check) = some 69404 := by
  decide +kernel

/-- Section 4.7, step 4: the check at the 64th service period finds 70,141 against 70,133. -/
theorem test_sequence_4_7_check :
    let e : KeyEntry :=
      { entry39 with g := 17781, lfix := 6150, knots := ⟨#[900, 1000, 1200, 1500, 1850, 2258, 2700, 3250, 4095], rfl⟩ }
    let s := atNow 10000 { State.reset with map := { State.reset.map with
      keys := bankSet State.reset.map.keys 39 e, check := 70133, count := 63 } }
    s.map.sum = 70141 ∧
      after .servicePeriod s (fun t => (t.map.integrity, t.map.count, t.noticed .a .mapFault)) = some (.fault, 0, true) := by
  decide +kernel

/-- Section 7.8: the first STRIKE record becomes a strike due at 101,485 with lead 544, demand 1612 and F 27,176. -/
theorem test_sequence_7_8_insertion :
    let s : State := { State.reset with
      map := { State.reset.map with keys := bankSet State.reset.map.keys 39 entry39 }
      layer0 := { Layer.reset with state := .cued, source := some (.take 0), cue := some 0, origin := some 100000 } }
    (handRecord .l0 { kind := 1, target := 39, value := 405, time := 2029 } s).sched.plan =
      [{ serial := 0, layer := .l0, event := 102029, due := 101485, lead := 544, body := .strike 39 405 1612 27176 none }] := by
  decide +kernel

/-- Section 9.4: the hit at 880 in the fine phase ends the search; T is 880, SD 890 becomes 816, and the word falls by 93. -/
theorem test_sequence_9_4_hit :
    let e : KeyEntry := { entry39 with sd := 890, result := 0 }
    let s := running .running .threshold .inFlight
      (key39 { (driven .probe) with owner := none, fire := some (pulseFire 120000) }
        { State.reset with map := { State.reset.map with keys := bankSet State.reset.map.keys 39 e, check := 1000 } })
    let s : State := { s with run := { s.run with
      phase := .fine, level := 880, lastMiss := some 868, coarse := some 900, probes := 8
      copy := some { entry := e, integrity := .good } } }
    after (.gate2Event 39 .toward) s (fun t =>
        let w := bankGet t.map.keys 39
        ([w.t, w.sd, w.result], t.map.check, t.run.state, t.noticed .b .calDone, t.noticed .b .keyFault)) =
      some ([880, 816, 1], 907, .idle, true, false) := by decide +kernel

/-- Section 10.7, steps 3 and 10: STATUS while SERVING is BUSY; a request short of its body changes nothing. -/
theorem test_sequence_10_7_links :
    after (.requestTransaction .a [0x51, 0x7C, 0] false) (serving .a .clockRun State.reset)
        (fun t => (t.noticed .a .busy, (t.link .a).slots)) = some (true, .serving .clockRun) ∧
      after (.transactionDiscarded .b [0x51, 0x7C, 12, 0, 0, 0, 0, 0]) State.reset (fun t => t.linkB) =
        some State.reset.linkB := by decide +kernel

/-! ### Witnesses: for each statement with hypotheses, states and operands that meet them, at the boundaries of its clauses -/

theorem witness_StepTakesFrontCommand : State.reset.pending = [] := rfl

theorem witness_DecodeAndEncodeAgree :
    (Request.append 31 (List.replicate 30 mark)).WellFormed = true ∧ (Request.layerFeed 1 [mark]).WellFormed = true ∧
      decodeRequest 0x11 (0 :: List.replicate 8 0) = .request (.append 0 [{ kind := 0, target := 0, value := 0, time := 0 }]) ∧
      decodeRequest 0x7F [] = .request .partReset := by decide +kernel

theorem witness_LinkCheckOfKindAndLength :
    ¬ kindKnown 0x00 ∧ ¬ kindKnown 0x80 ∧ (kindKnown 0x01 ∧ ¬ lengthAdmitted 0x01 [0]) ∧
      (kindKnown 0x11 ∧ ¬ lengthAdmitted 0x11 [0]) ∧ (kindKnown 0x7F ∧ lengthAdmitted 0x7F []) ∧
      kindKnown 0x42 ∧ lengthAdmitted 0x42 (List.replicate 241 0) := by
  refine ⟨by unfold kindKnown; decide, by unfold kindKnown; decide, ⟨by unfold kindKnown; decide, ?_⟩,
    ⟨by unfold kindKnown; decide, ?_⟩, ⟨by unfold kindKnown; decide, .inl (by decide +kernel)⟩, by unfold kindKnown; decide,
    .inr (.inl ⟨.inr rfl, 30, by decide, by decide, List.length_replicate ..⟩)⟩ <;>
  · rintro (h | ⟨h, n, h1, h2, h3⟩ | ⟨h, -⟩)
    · exact absurd h (by decide +kernel)
    · first | exact absurd h (by decide +kernel) | (simp only [List.length_singleton] at h3; omega)
    · exact absurd h (by decide +kernel)

theorem witness_RequestTransactionEntersTheSlot :
    Request.status.WellFormed = true ∧ (Request.append 0 [mark]).WellFormed = true ∧ State.reset.resetLow = false ∧
      ∀ p, (State.reset.link .b).slots ≠ .serving p :=
  ⟨rfl, by decide +kernel, rfl, fun p h => by cases h⟩

theorem witness_RequestTransactionRefusedByTheLink :
    (List.replicate 255 (0 : Byte)).length ≤ 255 ∧ State.reset.resetLow = false ∧
      (∀ p, (State.reset.link .a).slots ≠ .serving p) ∧ ¬ (kindKnown 0x00 ∧ lengthAdmitted 0x00 (List.replicate 255 0)) ∧
      ¬ (kindKnown 0x01 ∧ lengthAdmitted 0x01 [0]) :=
  ⟨by decide +kernel, rfl, fun p h => (by cases h), fun h => absurd h.1 (by unfold kindKnown; decide),
    fun h => witness_LinkCheckOfKindAndLength.2.2.1.2 h.2⟩

theorem witness_BusyAndDiscardedTransactions :
    ((serving .a .status State.reset).link .a).slots = .serving .status ∧ State.reset.resetLow = false ∧
      (∀ kind len body, ([] : List Byte) = 0x51 :: kind :: len :: body → body.length < len.toNat) ∧
      ∀ kind len body, ([0x51, 0x7D, 2, 0] : List Byte) = 0x51 :: kind :: len :: body → body.length < len.toNat := by
  refine ⟨rfl, rfl, by simp, ?_⟩
  rintro kind len body h
  cases h
  decide +kernel

/-- A link with a reply of one body byte under way in a fetch. -/
def fetching : State :=
  State.reset.setLink .a
    { (State.reset.link .a) with
      slots := .reply { status := .ok, kind := 0x7F, body := [1] }, fetch := some { out := [0, 0x7F, 1, 1], holds := true } }

theorem witness_FetchShiftsOutWhatItFinds :
    State.reset.resetLow = false ∧ fetching.resetLow = false ∧
      (fetching.link .a).slots = .reply { status := .ok, kind := 0x7F, body := [1] } ∧
      ((serving .a .status State.reset).link .a).slots = .serving .status ∧ (State.reset.link .a).slots = .idle ∧
      (∃ t, exec (.fetch .a false) State.reset = .next t) ∧ (∃ t, exec (.fetchSelectInactive .a 4) fetching = .next t) ∧
      ∃ f, (fetching.link .a).fetch = some f ∧ (f.holds = true ∧ f.out.length ≤ 4) ∧ ¬ (f.holds = true ∧ f.out.length ≤ 3) :=
  ⟨rfl, rfl, rfl, rfl, rfl, ⟨_, rfl⟩, ⟨_, rfl⟩, _, rfl, by decide +kernel, by decide +kernel⟩

theorem witness_ResetLineLowSilencesTheLinks : { State.reset with resetLow := true }.resetLow = true := rfl

/-- A PART RESET the other link's of instant 0 discarded. -/
def discardedReset : State := State.reset.setLink .b { (State.reset.link .b) with resetDue := some 0 }

theorem witness_PartResetSetsAndKeeps :
    let s := serving .b .partReset State.reset
    let busy := capturing .recording (some 0) (running .running .proof .inFlight s)
    let waits := capturing .paused none (running .stopping .proof .none s)
    let both := serving .a .partReset s
    ((s.link .b).slots = .serving .partReset ∧ s.cap.state = .idle ∧ s.run.state = .idle) ∧
      ((discardedReset.link .b).slots = .idle ∧ (discardedReset.link .b).resetDue = some discardedReset.now) ∧
      ((busy.link .b).slots = .serving .partReset ∧ busy.cap.state ≠ .idle ∧ busy.cap.target = some 0 ∧
        busy.cap.origin = some 0 ∧ MemoryCanonical busy ∧ busy.run.state = .running ∧ busy.run.current = some 39) ∧
      (waits.cap.state ≠ .idle ∧ waits.cap.target = some 0 ∧ waits.cap.origin = none ∧ MemoryCanonical waits ∧
        waits.run.state ≠ .idle ∧ waits.run.state ≠ .running) ∧
      (∀ m, (both.link m).slots = .serving .partReset) ∧ (∃ t, exec (.partReset .a) both = .next t) ∧ 1 ≠ both.now := by
  refine ⟨⟨rfl, rfl, rfl⟩, by decide +kernel, ⟨rfl, by decide +kernel, rfl, rfl, ?_, rfl, rfl⟩,
    ⟨by decide +kernel, rfl, rfl, ?_, by decide +kernel, by decide +kernel⟩, ?_, ⟨_, rfl⟩, by decide⟩
  · unfold MemoryCanonical
    decide +kernel
  · unfold MemoryCanonical
    decide +kernel
  · rintro (_ | _) <;> rfl

theorem witness_TakenRequestIsAnsweredOnItsOwnLink :
    (Instr.status .a).request? = some (.a, .status) ∧ (Instr.noticeMask .b 0).request? = some (.b, .noticeMask 0) ∧
      ((serving .a .status State.reset).link .a).slots = .serving .status ∧
      ((serving .b (.noticeMask 0) State.reset).link .b).slots = .serving (.noticeMask 0) ∧
      (State.reset.link .a).slots ≠ .serving .status ∧ (Instr.partReset .a).request? = some (.a, .partReset) ∧
      (State.reset.link .a).slots ≠ .serving .partReset ∧
      ¬ ((State.reset.link .a).slots = .idle ∧ (State.reset.link .a).resetDue = some State.reset.now) :=
  ⟨rfl, rfl, rfl, rfl, by decide +kernel, rfl, by decide +kernel, by decide +kernel⟩

theorem witness_NoticeClearAndMask :
    ((serving .a (.noticeClear 0xFFFF) State.reset).link .a).slots = .serving (.noticeClear 0xFFFF) ∧
      ((serving .a (.noticeMask 0) State.reset).link .a).slots = .serving (.noticeMask 0) := ⟨rfl, rfl⟩

theorem witness_StatusReportsThePart : ((serving .b .status State.reset).link .b).slots = .serving .status := rfl

theorem witness_NoticesFallOnlyByTheirOwnLink :
    let s := (serving .a (.noticeClear 4) State.reset).withPending [.noticeClear .a 4]
    let f := (fetching.setLink .a { (fetching.link .a) with notices := 1 }).withPending [.fetchSelectInactive .a 4]
    (∃ t, step s = .next t ∧ (s.link .a).notices.getLsbD 2 = true ∧ (t.link .a).notices.getLsbD 2 = false) ∧
      ∃ t, step f = .next t ∧ (f.link .a).notices.getLsbD 0 = true ∧ (t.link .a).notices.getLsbD 0 = false :=
  ⟨⟨_, rfl, by decide +kernel, by decide +kernel⟩, _, rfl, by decide +kernel, by decide +kernel⟩

theorem witness_GateOneStartsTheWindow :
    (State.reset.driveKey 0).state = .rest ∧ ((key39 (driven .strike) State.reset).driveKey 39).state ≠ .rest ∧
      exec (.gate1Event 87 .toward) State.reset = .next (captureGate1 87 State.reset) :=
  ⟨by decide +kernel, by decide +kernel, rfl⟩

/-- Key 39 in GATE1 since instant 0, RECORDING into take 0 from origin 0. -/
def gate1Recording (s : State) : State :=
  (capturing .recording (some 0) s).setCapKey 39 { CapKey.reset with state := .gate1, gate1At := some 0 }

theorem witness_GateTwoCompletesAStrike :
    let s := gate1Recording (clockAt .running 2029 State.reset)
    let idle := State.reset.setCapKey 39 { CapKey.reset with state := .gate1, gate1At := some 0 }
    let full := (captureFull State.reset).setCapKey 39 { CapKey.reset with state := .gate1, gate1At := some 0 }
    ((idle.driveKey 39).state = .rest ∧ (idle.capKey 39).state = .gate1 ∧ (idle.capKey 39).gate1At = some 0 ∧
        idle.cap.state ≠ .recording) ∧
      ((s.driveKey 39).state = .rest ∧ (s.capKey 39).state = .gate1 ∧ (s.capKey 39).gate1At = some 0 ∧
        s.cap.state = .recording ∧ s.cap.target = some 0 ∧ s.cap.origin = some 0 ∧ MemoryCanonical s ∧ s.store.HasRoom 0) ∧
      (State.reset.capKey 39).state ≠ .gate1 ∧
      (full.driveKey 39).state = .rest ∧ (full.capKey 39).state = .gate1 ∧ (full.capKey 39).gate1At = some 0 ∧
        full.cap.state = .recording ∧ full.cap.target = some 0 ∧ full.cap.origin = some 0 ∧ MemoryCanonical full ∧
        ¬ full.store.HasRoom 0 := by
  unfold MemoryCanonical Store.HasRoom
  decide +kernel

/-- Key 39 at the end of its window at a position, with held set or clear. -/
def windowEnds (p : KeyPos) (held : Bool) (s : State) : State :=
  atNow 60000 (s.setCapKey 39 { CapKey.reset with state := .gate1, gate1At := some 0, lastPos := p, held := held })

theorem witness_WindowExpiryFollowsTheTable :
    let rec_ := capturing .recording (some 0) State.reset
    let full := captureFull State.reset
    (∀ p ∈ ([399, 400, 600, 601] : List KeyPos), ∀ held ∈ [true, false], ∀ s ∈ [State.reset, rec_],
      let t := windowEnds p held s
      (t.capKey 39).gate1At = some 0 ∧ 0 + 60000 ≤ t.now ∧ (t.driveKey 39).state = .rest ∧ (t.capKey 39).state = .gate1 ∧
        (t.capKey 39).lastPos = p ∧ (t.capKey 39).held = held ∧ (t.capKey 39).releaseAt = 400) ∧
      State.reset.cap.down = 600 ∧
      (rec_.cap.state = .recording ∧ rec_.cap.target = some 0 ∧ rec_.cap.origin = some 0 ∧ MemoryCanonical rec_ ∧
        rec_.store.HasRoom 0) ∧
      (full.cap.state = .recording ∧ full.cap.target = some 0 ∧ full.cap.origin = some 0 ∧ MemoryCanonical full ∧
        ¬ full.store.HasRoom 0) ∧
      ((windowEnds 0 true (key39 (driven .sustain) State.reset)).driveKey 39).state ≠ .rest := by
  unfold MemoryCanonical Store.HasRoom
  exact ⟨by decide +kernel, by decide +kernel⟩

/-- A STRIKE action of layer 0 on key 39, as the worked strike of section 7.8 is planned, waiting for a reason or not. -/
def strike39 (w : Option WaitReason) : Action :=
  { serial := 3, layer := .l0, event := 2029, due := 1485, lead := 544, body := .strike 39 405 1612 27176 w }

/-- That action, not processed yet. -/
def action39 : Action := strike39 none

/-- The scheduler with one action in its plan. -/
def planning (a : Action) (s : State) : State := { s with sched := { s.sched with plan := [a], nextSerial := 4 } }

/-- The scheduler with that action in its plan. -/
def planned (s : State) : State := planning action39 s

/-- The drive power ACTIVE. -/
def powered (s : State) : State := { s with drive := { s.drive with power := .active } }

/-- The instant of the first key sample. -/
def sampling : State := atNow 500 State.reset

theorem witness_KeySampleReachesEveryKey :
    (Instr.keySample (readings 399)).WellFormed = true ∧ sampling.wall.sample ≤ sampling.now ∧
      (atNow 499 State.reset).now < (atNow 499 State.reset).wall.sample ∧
      (0, 399) ∈ readings 399 ∧ (87, 399) ∈ readings 399 ∧ State.reset.clk.state ≠ .running ∧
      State.reset.cap.state ≠ .recording ∧ State.reset.run.state ≠ .running ∧ State.reset.drive.power ≠ .quietPending := by
  decide +kernel

/-- A pulse pending on key 39, which a sample touches or does not. -/
theorem witness_KeySampleReachesEveryKey_pulse :
    let s := running .running .threshold .pending sampling
    (∀ x ∈ readings 499, x.2 = 499) ∧ s.run.state = .running ∧ s.run.wait = .pending ∧ s.run.current = some 39 ∧
      (39, 500) ∈ readings 500 ∧ s.cap.repetition ≤ (500 : KeyPos).val ∧ ¬ s.cap.repetition ≤ (499 : KeyPos).val :=
  ⟨by simp [readings], by decide +kernel⟩

/-- A lone due strike waiting KEY on key 39, held down at the last sample and rising below the threshold at this one. -/
theorem witness_KeySampleReachesEveryKey_waiting :
    let s := planning (strike39 (some .key))
      (clockAt .running 1485 (powered (key39 { DriveKey.reset with lastPos := 500 } sampling)))
    let d := s.driveKey 39
    (∀ y, (s.layer y).ring = []) ∧ SerialsSound s ∧ s.sched.plan = [strike39 (some .key)] ∧
      (strike39 (some .key)).due ≤ (s.clk.position : Int) ∧ s.wall.sample ≤ s.now ∧ s.clk.state = .running ∧
      s.drive.power = .active ∧ (39, 499) ∈ readings 499 ∧ d.state = .rest ∧ d.repetitionAt ≤ d.lastPos.val ∧
      (499 : KeyPos).val < s.cap.repetition ∧ d.hot = false ∧ s.drive.sag = false ∧ s.slotsHeld < s.drive.slots ∧
      d.lastFire = none := by
  unfold SerialsSound
  refine ⟨?_, by decide +kernel⟩
  rintro (_ | _) <;> decide +kernel

/-- A run STOPPING on key 39, which the sample finds risen. -/
theorem witness_KeySampleReachesEveryKey_stopping :
    let s := running .stopping .proof .none (key39 { (driven .letgo) with owner := none } sampling)
    s.run.state = .stopping ∧ s.run.current = some 39 ∧ (s.driveKey 39).state = .letgo ∧ (39, 499) ∈ readings 499 ∧
      s.clk.state ≠ .running ∧ s.cap.state ≠ .recording := by decide +kernel

theorem witness_NotesEndInTheTake :
    let s := (capturing .recording (some 0) State.reset).setCapKey 39
      { CapKey.reset with state := .down, lastPos := 700, held := true }
    let full := (captureFull State.reset).setCapKey 39 { CapKey.reset with state := .down, lastPos := 700, held := true }
    let g := (capturing .recording (some 0) State.reset).setCapKey 39
      { CapKey.reset with state := .gate1, gate1At := some 0, lastPos := 700, held := true }
    ((s.driveKey 39).state = .rest ∧ (driven .strike).state ≠ .rest ∧ (s.capKey 39).held = true ∧ s.cap.state = .recording ∧
        s.cap.target = some 0 ∧ s.cap.origin = some 0 ∧ MemoryCanonical s ∧ s.store.HasRoom 0) ∧
      (State.reset.capKey 39).held = false ∧
      (((key39 (driven .letgo) State.reset).driveKey 39).state ≠ .rest ∧ DriveKey.reset.state = .rest) ∧
      ((399 : KeyPos).val < s.cap.release ∧ (s.capKey 39).state ≠ .up ∧ (g.capKey 39).state ≠ .up ∧
        (g.capKey 39).held = true ∧ (g.driveKey 39).state = .rest) ∧
      ((full.driveKey 39).state = .rest ∧ (full.capKey 39).held = true ∧ (full.capKey 39).state ≠ .up ∧
        full.cap.state = .recording ∧ full.cap.target = some 0 ∧ full.cap.origin = some 0 ∧ MemoryCanonical full ∧
        ¬ full.store.HasRoom 0) := by
  unfold MemoryCanonical Store.HasRoom
  decide +kernel

theorem witness_CaptureSetTakesAllFourOrNone :
    let good (r p d : Word16) : Prop :=
      50 ≤ r.toNat ∧ r.toNat ≤ 900 ∧ 60 ≤ p.toNat ∧ p.toNat ≤ 950 ∧ 70 ≤ d.toNat ∧ d.toNat ≤ 1000 ∧ r.toNat < p.toNat ∧
        p.toNat < d.toNat
    ((serving .a (.captureSet 50 60 70 0) State.reset).link .a).slots = .serving (.captureSet 50 60 70 0) ∧
      good 50 60 70 ∧ good 900 950 1000 ∧ ¬ good 49 60 70 ∧ ¬ good 60 60 70 ∧ ¬ good 900 950 1001 := by
  exact ⟨rfl, by decide +kernel⟩

theorem witness_CaptureStartOpensTheCaptureTake :
    let s := serving .a .captureStart State.reset
    let onEdge := clockAt .running 200 s
    (s.link .a).slots = .serving .captureStart ∧ s.cap.state = .idle ∧ (s.store.entry 0).state = .free ∧
      (∀ u : TakeNo, u < 0 → (s.store.entry u).state ≠ .free) ∧ s.store.pool = 0 :: (List.range 255).map (· + 1) ∧
      ¬ (s.clk.state = .running ∧ s.clk.position % 200 = 0) ∧
      (onEdge.clk.state = .running ∧ onEdge.clk.position % 200 = 0 ∧ MemoryCanonical onEdge) ∧
      (capturing .paused none State.reset).cap.state ≠ .idle ∧
      { s with store := { s.store with pool := [] } }.store.pool = [] := by
  unfold MemoryCanonical
  decide +kernel

theorem witness_CaptureStopClosesTheTake :
    let s := serving .a .captureStop (capturing .recording (some 0) State.reset)
    let w := serving .a .captureStop (capturing .paused none State.reset)
    (s.link .a).slots = .serving .captureStop ∧ s.cap.state ≠ .idle ∧ s.cap.target = some 0 ∧ MemoryCanonical s ∧
      (w.cap.state ≠ .idle ∧ w.cap.target = some 0 ∧ w.cap.origin = none ∧ MemoryCanonical w) ∧
      State.reset.cap.state = .idle := by
  unfold MemoryCanonical
  decide +kernel

theorem witness_FrameSampleOfAPedal :
    let s := capturing .recording (some 0) State.reset
    let seen : State := { s with cap := { s.cap with pedals := bankSet s.cap.pedals 2 (CapPedal.mk 10 10 10 10 10 false) } }
    s.cap.state = .recording ∧ s.cap.target = some 0 ∧ MemoryCanonical s ∧ s.store.HasRoom 0 ∧
      (∀ y, ¬ (bankGet (s.layer y).latched.pass 2 = true ∧ (bankGet (s.layer y).demands 2).isSome = true)) ∧
      (∃ y, bankGet ((layer0 { Layer.reset with state := .playing, demands := Vector.replicate 3 (some 90) } s).layer y).latched.pass
          2 = true ∧
        (bankGet ((layer0 { Layer.reset with state := .playing, demands := Vector.replicate 3 (some 90) } s).layer y).demands
          2).isSome = true) ∧
      ((captureFull State.reset).cap.state = .recording ∧ (captureFull State.reset).cap.target = some 0 ∧
        MemoryCanonical (captureFull State.reset) ∧ ¬ (captureFull State.reset).store.HasRoom 0 ∧
        (captureFull State.reset).cap.origin = some 0) ∧
      State.reset.cap.state ≠ .recording ∧
      (bankGet s.cap.pedals 2).firstFrame = true ∧
      ((bankGet seen.cap.pedals 2).firstFrame = false ∧ (10 + 10 + 10 + 24 + 2) / 4 = 10 + seen.cap.deadband ∧
        (10 + 10 + 10 + 20 + 2) / 4 < 10 + seen.cap.deadband) := by
  unfold MemoryCanonical Store.HasRoom
  refine ⟨rfl, rfl, by decide +kernel, by decide +kernel, ?_, ⟨.l0, by decide +kernel⟩, by decide +kernel, by decide +kernel,
    by decide +kernel, by decide +kernel⟩
  rintro (_ | _) <;> decide +kernel

theorem witness_TakeOpenAndErase :
    let s := serving .a .takeOpen State.reset
    let e := serving .a (.erase 0) closedTake
    ((s.link .a).slots = .serving .takeOpen ∧ (s.store.entry 0).state = .free ∧
        (∀ u : TakeNo, u < 0 → (s.store.entry u).state ≠ .free) ∧ s.store.pool = 0 :: (List.range 255).map (· + 1)) ∧
      ((e.link .a).slots = .serving (.erase 0) ∧ (0 : Byte).toNat = (0 : TakeNo).val ∧ (e.store.entry 0).state = .closed ∧
        (e.store.entry 0).bound = 0) ∧
      (31 < (32 : Byte).toNat ∧ (31 : Byte).toNat = (31 : TakeNo).val ∧ (e.store.entry 31).state = .free) ∧
      ((withTake (openTake (.link .a)) State.reset).store.entry 0).state = .opened := by decide +kernel

/-- A state whose take store is sound, with take 0 OPEN and written by LINK_A. -/
def appending (q : Request) : State := serving .a q (withTake (openTake (.link .a)) State.reset)

theorem appending_sound (q : Request) : StoreSound (appending q) ∧ MemoryCanonical (appending q) := by
  refine ⟨⟨?_, ?_, ?_, ?_⟩, rfl⟩
  · show List.Perm ((List.range 256).drop 1 ++
      allTakes.flatMap fun t => ((withTake (openTake (.link .a)) State.reset).store.entry t).blocks) (List.range 256)
    decide +kernel
  · show ((List.range 256).drop 1).Pairwise (· < ·)
    decide +kernel
  · show ∀ t : TakeNo, let e := (withTake (openTake (.link .a)) State.reset).store.entry t
      (e.state = .free → e.blocks = []) ∧ (e.state = .opened → e.length < 512 * e.blocks.length) ∧
        (e.state = .closed → 1 ≤ e.length ∧ e.length ≤ 512 * e.blocks.length)
    decide +kernel
  · intro t h
    cases h

/-- No take of such a store is bound to a layer. -/
theorem appending_unbound (t : TakeNo) : ((withTake (openTake (.link .a)) State.reset).store.entry t).bound = 0 := by
  revert t
  decide +kernel

/-- With that store, layers bound to no take agree with it. -/
theorem appending_agrees {s : State} (hs : s.store = (withTake (openTake (.link .a)) State.reset).store)
    (hy : ∀ y, ((s.layer y).source = none ↔ (s.layer y).state = .free) ∧ ∀ t, (s.layer y).source ≠ some (.take t)) :
    BindingsAgree s := by
  refine ⟨fun t => ?_, fun t h => absurd (hs ▸ appending_unbound t) h, fun y => (hy y).1⟩
  have h0 : s.layer0.source ≠ some (.take t) := (hy .l0).2 t
  have h1 : s.layer1.source ≠ some (.take t) := (hy .l1).2 t
  rw [hs, appending_unbound, if_neg h0, if_neg h1]

/-- A PEDAL record at a time. -/
def pedalAt (t : Word32) : Record := { kind := 4, target := 2, value := 255, time := t }

theorem witness_AppendStopsAtTheFirstRefusedRecord :
    let s := appending (.append 0 ([pedalAt 5, pedalAt 5] ++ [pedalAt 4]))
    let e := s.store.entry 0
    (s.link .a).slots = .serving (.append 0 ([pedalAt 5, pedalAt 5] ++ [pedalAt 4])) ∧ (0 : Byte).toNat = (0 : TakeNo).val ∧
      e.state = .opened ∧ e.writer = some (.link .a) ∧
      (∀ r ∈ [pedalAt 5, pedalAt 5], r.legal = true ∧ r.isEnd = false ∧ e.lastTime ≤ r.time.toNat) ∧
      ([pedalAt 5, pedalAt 5].Pairwise fun a b => a.time.toNat ≤ b.time.toNat) ∧
      e.length + [pedalAt 5, pedalAt 5].length + 1 ≤ 512 * (e.blocks.length + s.store.pool.length) ∧
      ((pedalAt 4).legal = true ∧ (pedalAt 4).isEnd = false ∧ (pedalAt 4).time.toNat < 5) ∧
      ((mkRecord 6 0 0 9).isEnd = true ∧ (mkRecord 7 0 0 9).legal = false) := by decide +kernel

theorem witness_AppendAndCloseNeedTheWritersOpenTake :
    let s := serving .a (.close 0 2147483647) (withTake (openTake (.link .a)) State.reset)
    let b := serving .b (.append 0 [mark]) (withTake (openTake (.link .a)) State.reset)
    ((s.link .a).slots = .serving (.close 0 2147483647) ∧ (0 : Byte).toNat = (0 : TakeNo).val ∧
        (2147483647 : Word32).toNat ≤ 2147483647 ∧ (s.store.entry 0).state = .opened ∧
        (s.store.entry 0).writer = some (.link .a) ∧ Memory.wf s.store.mem = true) ∧
      ((b.link .b).slots = .serving (.append 0 [mark]) ∧ (b.store.entry 0).writer ≠ some (.link .b)) ∧
      (31 < (32 : Byte).toNat ∧ 2147483647 < (2147483648 : Word32).toNat ∧ (31 : Byte).toNat = (31 : TakeNo).val ∧
        (s.store.entry 31).state = .free ∧ (closedTake.store.entry 0).state = .closed) := by decide +kernel

theorem witness_ReadAndInfoDescribeATake :
    let s := serving .a (.read 0 1 30) closedTake
    let i := serving .b (.info 31) closedTake
    (s.link .a).slots = .serving (.read 0 1 30) ∧ (i.link .b).slots = .serving (.info 31) ∧
      (0 : Byte).toNat = (0 : TakeNo).val ∧ (31 : Byte).toNat = (31 : TakeNo).val ∧ 31 < (32 : Byte).toNat ∧
      (s.store.entry 0).state ≠ .free ∧ (s.store.entry 31).state = .free ∧ (s.store.entry 0).length = 1 ∧
      (1 ≤ (30 : Byte).toNat ∧ (30 : Byte).toNat ≤ 30 ∧ (1 : Word32).toNat ≤ 1) ∧
      ((0 : Byte).toNat < 1 ∧ 30 < (31 : Byte).toNat ∧ 1 < (2 : Word32).toNat) := by decide +kernel

theorem witness_EveryStepKeepsTheStoreSound :
    let s := (appending (.append 0 [pedalAt 5])).withPending [.append .a 0 [pedalAt 5]]
    StoreSound s ∧ MemoryCanonical s ∧ BindingsAgree s ∧ (CaptureSound s ∧ CaptureSound (capturing .recording (some 0) s)) ∧
      ∃ t, step s = .next t ∧ t.store ≠ s.store := by
  have layers : ∀ y, ((State.reset.layer y).source = none ↔ (State.reset.layer y).state = .free) ∧
      ∀ t, (State.reset.layer y).source ≠ some (.take t) := by rintro (_ | _) <;> decide +kernel
  exact ⟨(appending_sound (.append 0 [pedalAt 5])).1, (appending_sound (.append 0 [pedalAt 5])).2, appending_agrees rfl layers,
    by unfold CaptureSound; decide +kernel, _, rfl, by decide +kernel⟩

theorem witness_LocateAndSource :
    ((serving .a (.clockLocate (-1)) State.reset).link .a).slots = .serving (.clockLocate (-1)) ∧
      State.reset.clk.state = .stopped ∧ (clockAt .paused 7 State.reset).clk.state ≠ .stopped ∧
      ((serving .a (.clockSource 1 99) State.reset).link .a).slots = .serving (.clockSource 1 99) ∧
      ((0 : Byte) = 0 ∧ (1 : Byte) = 1 ∧ 1 < (2 : Byte).toNat) := by decide +kernel

theorem witness_ClockRunEntersRunning :
    let s := serving .a .clockRun State.reset
    let cap := serving .a .clockRun (capturing .paused none State.reset)
    let back := serving .a .clockRun (capturing .paused (some 0) (clockAt .paused 200 State.reset))
    let cued := layer0 { Layer.reset with state := .cued, source := some (.stream .a), cue := some 0, origin := some 0 } s
    ((s.link .a).slots = .serving .clockRun ∧ s.run.state = .idle ∧ s.clk.state = .stopped ∧ s.clk.position ≠ 2147483647 ∧
        s.sched.plan = [] ∧ s.cap.state = .idle ∧
        ∀ y, (s.layer y).state ≠ .cued ∧ (s.layer y).state ≠ .playing ∧ (s.layer y).staged = none) ∧
      ((cap.link .a).slots = .serving .clockRun ∧ cap.clk.position % 200 = 0 ∧ cap.cap.state = .paused ∧
        cap.cap.target = some 0 ∧ cap.cap.origin = none) ∧
      (back.clk.state = .paused ∧ back.cap.state = .paused ∧ back.cap.origin.isSome = true ∧
        (∀ k, back.releasedUnseen k = false)) ∧
      ((cued.layer .l0).state = .cued ∧ (cued.layer .l0).origin = some 0 ∧ 0 ≤ cued.clk.position) ∧
      ((running .running .proof .none s).run.state ≠ .idle ∧ (clockAt .stopped 2147483647 s).clk.position = 2147483647 ∧
        (clockAt .running 3 s).clk.state = .running) := by
  refine ⟨⟨rfl, rfl, rfl, by decide, rfl, rfl, ?_⟩, by decide +kernel, ⟨rfl, rfl, rfl, by decide +kernel⟩, by decide +kernel,
    by decide +kernel⟩
  rintro (_ | _) <;> decide

theorem witness_ClockPauseHoldsTheReplay :
    ((serving .a .clockPause (clockAt .running 7 State.reset)).link .a).slots = .serving .clockPause ∧
      (serving .a .clockPause (clockAt .running 7 State.reset)).clk.state = .running ∧ State.reset.clk.state = .stopped ∧
      (clockAt .paused 7 State.reset).clk.state = .paused := by decide +kernel

theorem witness_ClockStopIsTakenByEveryBlock :
    let s := serving .a .clockStop (layer0 (streaming .playing) (capturing .recording (some 0) State.reset))
    (s.link .a).slots = .serving .clockStop ∧ (s.layer .l0).state = .playing ∧ (s.layer .l0).source = some (.stream .a) ∧
      s.cap.state ≠ .idle ∧ s.cap.target = some 0 ∧ Memory.wf s.store.mem = true ∧ State.reset.cap.state = .idle ∧
      ((layer0 (streaming .cued) s).layer .l0).state = .cued ∧ (s.layer .l1).state ≠ .cued ∧ (s.layer .l1).state ≠ .playing := by
  decide +kernel

theorem witness_ClockAdvanceMovesThePosition :
    let s := atNow 50 (clockAt .running 199 State.reset)
    let owes := { s with clk := { s.clk with owed := -1 } }
    let last := atNow 50 (clockAt .running 2147483646 State.reset)
    let awaits := atNow 50 (clockAt .running 199 (capturing .paused none State.reset))
    (s.clk.state = .running ∧ s.clk.nextAdvance ≤ s.now ∧ s.clk.position < 2147483647 ∧ (s.clk.position + 1) % 200 = 0 ∧
        s.sched.plan = [] ∧ s.cap.state = .idle) ∧
      (owes.clk.owed < 0 ∧ owes.clk.withheld = false) ∧ (last.clk.position + 1 = 2147483647 ∧ last.clk.position < 2147483647) ∧
      awaits.cap.state = .paused ∧ awaits.cap.target = some 0 ∧ awaits.cap.origin = none := by decide +kernel

/-- What the scheduler finds at an advance: a strike that has waited to the tolerance and one beyond it, and a lone release. -/
theorem witness_ClockAdvanceMovesThePosition_due :
    let waits (p : Nat) := atNow 50 (clockAt .running p (planning (strike39 (some .key)) State.reset))
    let lone := atNow 50 (clockAt .running 1484 (planning { action39 with body := .release 39 none } State.reset))
    (∀ y, (lone.layer y).state ≠ .cued ∧ (lone.layer y).staged = none ∧ (lone.layer y).ring = []) ∧
      (lone.sched.plan = [{ action39 with body := .release 39 none }] ∧ (1485 : Int) ≤ ((lone.clk.position + 1 : Nat) : Int) ∧
        lone.drive.queue = [] ∧ lone.cap.state = .idle) ∧
      SerialsSound (waits 1524) ∧ (strike39 (some .key)).wait.isSome = true ∧
      ((waits 1524).clk.position + 1 : Int) - 1485 ≤ (waits 1524).sched.late ∧
      ((waits 1525).sched.late : Int) < ((waits 1525).clk.position + 1 : Int) - 1485 := by
  unfold SerialsSound
  refine ⟨?_, by decide +kernel⟩
  rintro (_ | _) <;> decide +kernel

/-- A layer fed by a stream, over the store of `appending`. -/
def fed (ring : List Record) : State :=
  layer0 { (streaming .playing) with cue := some 0, origin := some 0, ring := ring } (appending .status)

/-- A stream's layer is bound to no take. -/
theorem fed_layers (ring : List Record) (y : LayerId) :
    (((fed ring).layer y).source = none ↔ ((fed ring).layer y).state = .free) ∧ ∀ t, ((fed ring).layer y).source ≠ some (.take t) := by
  cases y
  · exact ⟨⟨(fun h => nomatch h), (fun h => nomatch h)⟩, fun t h => nomatch h⟩
  · exact ⟨⟨fun _ => rfl, fun _ => rfl⟩, fun t h => nomatch h⟩

/-- A front record one tick beyond the horizon stays in its ring at an advance. -/
theorem witness_ClockAdvanceMovesThePosition_front :
    let s := atNow 50 (clockAt .running 198 (fed [pedalAt 4600]))
    StoreSound s ∧ BindingsAgree s ∧ s.clk.nextAdvance ≤ s.now ∧
      ∃ t, exec (.clockAdvance ⟨0, 0, 0⟩ []) s = .next t ∧ (t.layer .l0).ring = [pedalAt 4600] ∧ t.clk.position = 199 ∧
        (t.layer .l0).state = .playing ∧ (t.layer .l0).endFetched = false :=
  ⟨(appending_sound .status).1, appending_agrees rfl (fed_layers _), by decide +kernel, _, rfl, by decide +kernel⟩

theorem witness_SyncPulsesAreMeasuredAndMissed :
    let s := { State.reset with clk := { State.reset.clk with state := .running, source := .sync } }
    let late := atNow 200000 s
    (s.clk.source = .sync ∧ s.clk.state = .running ∧ s.clk.tracking ≠ .fault ∧ (0 : Int) < s.clk.syncLength) ∧
      ¬ (State.reset.clk.source = .sync ∧ State.reset.clk.state = .running ∧ State.reset.clk.tracking ≠ .fault) ∧
      (late.clk.tracking = .tracking ∧ late.clk.lastPulse + 100 * late.clk.syncLength ≤ late.now ∧
        late.clk.entered + 100 * late.clk.syncLength ≤ late.now) ∧
      ¬ ((atNow 199999 s).clk.lastPulse + 100 * (atNow 199999 s).clk.syncLength ≤ (atNow 199999 s).now) := by decide +kernel

/-- Key 39's body of the worked entry. -/
def body39 : KeyFields :=
  { t := 900, sd := 840, knots := entry39.knots, g := 17203, lfix := 6000, dtravel := 9000000, s := 3000, rm := 1000, rebound := 10 }

theorem witness_MapWriteReplacesTheEntryWhole :
    let w : MapBody := .key 39 body39 0
    let s := serving .a (.mapWrite w) State.reset
    let p : MapBody := .pedal 2 { rest := 0, full := 4095, lead := 2000, deadband := 32 } 0
    ((s.link .a).slots = .serving (.mapWrite w) ∧ (39 : Byte).toNat = (39 : Key).val ∧
        ¬ (s.run.state ≠ .idle ∧ s.run.keys.getLsbD 39 = true) ∧
        (body39.t.toNat ≤ 4095 ∧ body39.sd.toNat < body39.t.toNat ∧
          (∀ i j : Fin 9, i ≤ j → (bankGet body39.knots i).toNat ≤ (bankGet body39.knots j).toNat) ∧
          (∀ i : Fin 9, (bankGet body39.knots i).toNat ≤ 4095) ∧ 8192 ≤ body39.g.toNat ∧ body39.lfix.toNat ≤ 20000 ∧
          1000 ≤ body39.s.toNat ∧ 400 ≤ body39.rm.toNat ∧ body39.rebound.toNat ≤ 40)) ∧
      (87 < (88 : Byte).toNat ∧ (87 : Byte).toNat = (87 : Key).val ∧ 40 < (41 : Byte).toNat) ∧
      ((running .running .proof .none s).run.state ≠ .idle ∧ (running .running .proof .none s).run.keys.getLsbD 39 = true) ∧
      ((serving .a (.mapWrite p) State.reset).link .a).slots = .serving (.mapWrite p) ∧ (2 : Byte).toNat = (2 : Pedal).val ∧
      2 < (3 : Byte).toNat := by decide +kernel

theorem witness_MapReadGivesTheEntry :
    ((serving .a (.mapRead 0 87) State.reset).link .a).slots = .serving (.mapRead 0 87) ∧ (87 : Byte).toNat = (87 : Key).val ∧
      ((serving .b (.mapRead 1 2) State.reset).link .b).slots = .serving (.mapRead 1 2) ∧ (2 : Byte).toNat = (2 : Pedal).val ∧
      1 < (2 : Byte).toNat ∧ 87 < (88 : Byte).toNat ∧ 2 < (3 : Byte).toNat := by decide +kernel

theorem witness_MapClearAndAcceptEndFault :
    ((serving .a .mapClear State.reset).link .a).slots = .serving .mapClear ∧ State.reset.run.state = .idle ∧
      (running .stopping .threshold .none (serving .a .mapClear State.reset)).run.state ≠ .idle ∧
      ((serving .a .mapAccept State.reset).link .a).slots = .serving .mapAccept := by decide +kernel

theorem witness_ServicePeriodCoolsAndCounts :
    let s := atNow 10000 { State.reset with map := { State.reset.map with count := 63 } }
    (s.wall.service ≤ s.now ∧ s.map.counted = false ∧ s.map.count = 63) ∧
      (atNow 9999 s).now < (atNow 9999 s).wall.service ∧ (atNow 10000 State.reset).map.count ≠ 63 ∧
      exec .integrityCheck s = .next (integrityPeriod s) := ⟨by decide +kernel, by decide +kernel, by decide +kernel, rfl⟩

theorem witness_EveryStepKeepsTheMap :
    let s := { (serving .a .mapAccept State.reset) with
      pending := [.mapAccept .a], map := { State.reset.map with integrity := .fault } }
    ∃ t, step s = .next t ∧ s.map.integrity = .fault ∧ t.map.integrity = .good ∧ CheckWordCurrent s ∧ MapInRange s := by
  refine ⟨_, rfl, rfl, by decide +kernel, by unfold CheckWordCurrent; decide +kernel, ?_, ?_, ?_⟩
  · have h : ∀ k : Key, (bankGet State.reset.map.keys k).isSet = false := by decide +kernel
    intro k hk
    exact absurd (hk.symm.trans (h k)) (by decide)
  · have h : ∀ p : Pedal, (bankGet State.reset.map.pedals p).isSet = false := by decide +kernel
    intro p hp
    exact absurd (hp.symm.trans (h p)) (by decide)
  · intro h
    cases h

theorem witness_LayerBindGivesTheLayerItsSource :
    let s := serving .a (.layerBind 0 0 0) closedTake
    ((s.link .a).slots = .serving (.layerBind 0 0 0) ∧ (0 : Byte).toNat = LayerId.l0.code ∧ (s.layer .l0).state = .free ∧
        (0 : Byte).toNat = (0 : TakeNo).val ∧ (s.store.entry 0).state = .closed ∧ 0 < (s.layer .l0).low) ∧
      ((serving .a (.layerBind 1 1 0) s).link .a).slots = .serving (.layerBind 1 1 0) ∧ (1 : Byte).toNat = LayerId.l1.code ∧
      1 < (2 : Byte).toNat ∧ 31 < (32 : Byte).toNat ∧ (31 : Byte).toNat = (31 : TakeNo).val ∧
      (s.store.entry 31).state = .free ∧ ((withTake (openTake .capture) s).store.entry 0).state = .opened ∧
      ((layer0 (streaming .ended) s).layer .l0).state ≠ .free := by decide +kernel

theorem witness_LayerFreeReleasesTheSource :
    let s := serving .a (.layerFree 0) (layer0 (streaming .playing) (key39 (driven .sustain) State.reset))
    (s.link .a).slots = .serving (.layerFree 0) ∧ (0 : Byte).toNat = LayerId.l0.code ∧ (s.layer .l0).state ≠ .free ∧
      s.clk.state ≠ .running ∧ s.drive.queue = [] ∧ (State.reset.layer .l0).state = .free ∧
      (((serving .a (.layerFree 2) s).link .a).slots = .serving (.layerFree 2) ∧ 1 < (2 : Byte).toNat) ∧
      (∀ k : Key, ((s.driveKey k).owner.isSome ↔ (s.driveKey k).state.holdsKey = true)) := by decide +kernel

/-- Settings bytes at the ends of their ranges. -/
def rawEnds : RawSettings :=
  { winLow := 87, winHigh := 87, transpose := -12, scale := 32, velOffset := -128, timeOffset := -32768, flags := 31
    priority := 7 }

theorem witness_LayerMarksSettingsAndReport :
    let s := serving .a (.layerMarks 1 255 0) State.reset
    (s.link .a).slots = .serving (.layerMarks 1 255 0) ∧ (1 : Byte).toNat = LayerId.l1.code ∧ 1 < (2 : Byte).toNat ∧
      (s.layer .l1).source = none ∧
      ((serving .a (.layerSet 0 rawEnds) State.reset).link .a).slots = .serving (.layerSet 0 rawEnds) ∧
      (rawEnds.flags.toNat < 32 ∧ rawEnds.winLow.toNat ≤ rawEnds.winHigh.toNat ∧ rawEnds.winHigh.toNat ≤ 87 ∧
        -12 ≤ rawEnds.transpose.toInt ∧ rawEnds.transpose.toInt ≤ 12 ∧ rawEnds.scale.toNat ≤ 32 ∧
        rawEnds.priority.toNat ≤ 7) ∧
      ¬ ((32 : Byte).toNat < 32) ∧ ((serving .a (.layerInfo 0) State.reset).link .a).slots = .serving (.layerInfo 0) ∧
      State.reset.clk.state ≠ .running ∧ (clockAt .running 0 State.reset).clk.state = .running := by decide +kernel

theorem witness_LayerFeedStopsAtTheFirstRefusedRecord :
    let rs := [pedalAt 5, pedalAt 5] ++ [pedalAt 4]
    let s := serving .a (.layerFeed 0 rs) (layer0 (streaming .bound) State.reset)
    let crossing := layer0 { (streaming .bound) with ring := List.replicate 191 (pedalAt 0) } s
    ((s.link .a).slots = .serving (.layerFeed 0 rs) ∧ (0 : Byte).toNat = LayerId.l0.code ∧ (s.layer .l0).state ≠ .free ∧
        (s.layer .l0).state ≠ .ended ∧ (s.layer .l0).source = some (.stream .a) ∧ (s.layer .l0).endFed = false ∧
        (∀ g ∈ [pedalAt 5, pedalAt 5], g.legal = true ∧ (s.layer .l0).fedTime ≤ g.time.toNat) ∧
        ([pedalAt 5, pedalAt 5].Pairwise fun a b => a.time.toNat ≤ b.time.toNat ∧ a.isEnd = false) ∧
        (s.layer .l0).ring.length + 2 ≤ 256 ∧ (pedalAt 4).legal = true ∧ (pedalAt 4).time.toNat < 5) ∧
      ((crossing.layer .l0).ring.length ≤ (crossing.layer .l0).high ∧
        (crossing.layer .l0).high < (crossing.layer .l0).ring.length + 2 ∧ (crossing.layer .l0).highArmed = true) ∧
      ((layer0 { (streaming .bound) with source := some (.stream Link.a.other) } s).layer .l0).source =
        some (.stream Link.a.other) ∧
      (((serving .a (.layerFeed 2 [mark]) s).link .a).slots = .serving (.layerFeed 2 [mark]) ∧ 1 < (2 : Byte).toNat) ∧
      (State.reset.layer .l0).state = .free ∧ s.clk.state ≠ .running := by decide +kernel

theorem witness_LayerCuePlacesTheLayer :
    let q : Request := .layerCue 0 0 0 0 2147483600
    let s := serving .a q (layer0 (streaming .ended) State.reset)
    let t := serving .a (.layerCue 0 0 0 1 0)
      (layer0 { Layer.reset with state := .bound, source := some (.take 0) } closedTake)
    ((s.link .a).slots = .serving q ∧ (0 : Byte).toNat = LayerId.l0.code ∧ (s.layer .l0).state = .ended ∧
        (s.layer .l0).source = some (.stream .a) ∧ (2147483600 : Word32).toNat ≤ 2147483647 ∧
        200 * ((2147483600 + 199) / 200) ≤ 2147483600 ∧ ¬ 200 * ((2147483601 + 199) / 200) ≤ 2147483600) ∧
      ((t.link .a).slots = .serving (.layerCue 0 0 0 1 0) ∧ (t.layer .l0).state = .bound ∧
        (t.layer .l0).source = some (.take 0) ∧ 0 < (t.layer .l0).low ∧ 0 < (t.store.entry 0).length ∧
        0 ≤ (t.store.record 0 0).time.toNat ∧ (t.store.record 0 0).kind = 6) ∧
      (¬ ((2 : Byte).toNat ≤ 1) ∧ (State.reset.layer .l0).state ≠ .bound ∧ (State.reset.layer .l0).state ≠ .ended) := by
  decide +kernel

theorem witness_PlanSetAndDropsRead :
    ((serving .a (.planSet 0 0) State.reset).link .a).slots = .serving (.planSet 0 0) ∧
      ((serving .b (.planSet 201 2001) State.reset).link .b).slots = .serving (.planSet 201 2001) ∧
      ((serving .b .dropsRead State.reset).link .b).slots = .serving .dropsRead := ⟨rfl, rfl, rfl⟩

theorem witness_AllOffSilencesTheInstrument :
    let s := serving .a .allOff (planned (clockAt .paused 0
      (layer0 { (streaming .playing) with endFetched := true } (key39 (driven .sustain) State.reset))))
    (s.link .a).slots = .serving .allOff ∧ s.clk.state ≠ .running ∧ (s.driveKey 39).state = .sustain ∧
      ((s.layer .l0).state = .playing ∧ (s.layer .l0).endFetched = true ∧ ∃ a ∈ s.sched.plan, a.layer = .l0) ∧
      ¬ ((s.layer .l1).state = .playing) ∧
      (serving .b .allOff (clockAt .running 0 State.reset)).clk.state = .running :=
  ⟨rfl, by decide +kernel, by decide +kernel, ⟨rfl, rfl, action39, by decide +kernel, rfl⟩, by decide +kernel, rfl⟩

theorem witness_StrikeArithmeticStaysInRange :
    (entry39.isSet = true ∧ entry39.Sound ∧ (0 : Nat) < 128 ∧ 127 < 128) ∧
      (1 < hammerVelocity 3000 15000 ∧ hammerVelocity 3000 15000 < 1023 ∧ 1 < hammerVelocity 3000 1 ∧
        hammerVelocity 3000 60000000 < 1023) ∧
      ((strikeValues entry39 .good 350).lead < 4000 ∧ 0 < State.reset.drive.vnom ∧ 0 < State.reset.drive.sagPercent ∧
        State.reset.drive.applied 1612 < 4095) ∧
      (PedalEntry.mk 1 300 2300 0 2).Sound ∧ (PedalEntry.mk 1 0 4095 2000 32).Sound := by
  unfold KeyEntry.Sound PedalEntry.Sound
  decide +kernel

/-- An offered strike's own fields. -/
def offered39 (s : State) : State := planned { s with map := { s.map with keys := bankSet s.map.keys 39 entry39 } }

theorem witness_OfferedStrikeFollowsTheTable :
    let s := offered39 (powered State.reset)
    let touched := key39 { DriveKey.reset with lastPos := 500 } s
    let yield_ := layer0 { Layer.reset with latched := { Settings.reset with yieldKeys := true } } touched
    action39.body = .strike 39 405 1612 27176 none ∧ (s.driveKey 39).state = .rest ∧
      ((yield_.layer .l0).latched.yieldKeys = true ∧ (yield_.driveKey 39).state = .rest ∧
        (yield_.driveKey 39).repetitionAt ≤ (yield_.driveKey 39).lastPos.val) ∧
      (State.reset.layer .l0).latched.yieldKeys = false ∧ State.reset.drive.power = .quiet ∧
      { s with drive := { s.drive with power := .waking } }.drive.power = .waking ∧ s.drive.power = .active ∧
      ((key39 (driven .blocked) s).driveKey 39).state = .blocked ∧
      ((key39 { DriveKey.reset with hot := true } s).driveKey 39).hot = true ∧
      ((touched.driveKey 39).hot = false ∧ (touched.driveKey 39).repetitionAt ≤ (touched.driveKey 39).lastPos.val) ∧
      (¬ (s.driveKey 39).repetitionAt ≤ (s.driveKey 39).lastPos.val ∧ (s.driveKey 39).lastFire = none ∧ s.drive.sag = false ∧
        s.slotsHeld < s.drive.slots) ∧
      ((s.clk.position : Int) + 1000 - 0 < 1000 ↔ False) ∧
      { s with drive := { s.drive with sag := true } }.drive.sag = true ∧
      { s with drive := { s.drive with slots := 0 } }.drive.slots ≤ s.slotsHeld := by decide +kernel

/-- The scheduler's own clauses: an action at its first processing at the tolerance and beyond it, releases of a key owned in
STRIKE, in SUSTAIN and not owned, an overdue waiting strike, and a queued strike with a slot free and with none. -/
theorem witness_OfferedStrikeFollowsTheTable_scheduler :
    let s (p : Nat) := clockAt .running p (offered39 (powered State.reset))
    let waits (p : Nat) := clockAt .running p (planning (strike39 (some .sag)) State.reset)
    let held (st : DriveState) := key39 (driven st) (s 0)
    let q := { (planning (strike39 (some .slot)) (s 0)) with drive := { (s 0).drive with queue := [3] } }
    ((s 1525).sched.late : Int) = ((s 1525).clk.position : Int) - action39.due ∧
      ((s 1526).sched.late : Int) < ((s 1526).clk.position : Int) - action39.due ∧
      (((held .strike).driveKey 39).state = .strike ∧ ((held .strike).driveKey 39).owner = some .l0 ∧
        ((held .sustain).driveKey 39).state = .sustain ∧ ((s 0).driveKey 39).state = .rest ∧ (s 0).drive.queue = [] ∧
        (s 0).drive.power = .active ∧ State.reset.drive.power ≠ .active) ∧
      (SerialsSound (waits 1526) ∧ (waits 1526).sched.drops.length ≤ 16 ∧ ((waits 1526).sched.late : Int) < 1526 - 1485) ∧
      (arbiterPick (s 0) = none ∧ arbiterPick q = some (strike39 (some .slot)) ∧
        (strike39 (some .slot)).strikeKey? = some 39 ∧ q.slotsHeld < q.drive.slots ∧
        { q with drive := { q.drive with slots := 0 } }.drive.slots ≤ q.slotsHeld) := by
  unfold SerialsSound
  decide +kernel

/-- The worked pedal of section 8.10: rest 300, full 2300, deadband 4, Vmeas 456, and the two layers' demands. -/
def pedal810 (a b : Option Nat) (r : PedalDrive) : State :=
  let s := powered State.reset
  { s with
    map := { s.map with pedals := bankSet s.map.pedals 2 (PedalEntry.mk 1 300 2300 200 4) }
    drive := { s.drive with vmeas := 456, pedals := bankSet s.drive.pedals 2 r }
    layer0 := { s.layer0 with state := .playing, demands := bankSet s.layer0.demands 2 a }
    layer1 := { s.layer1 with state := .playing, demands := bankSet s.layer1.demands 2 b } }

/-- The four changes that section works through: a first demand, a merge within the deadband, a change the merge does not show,
and a demand gone. -/
theorem test_pedal_actuator_section_8_10 :
    let r (s : State) := bankGet s.drive.pedals 2
    r (setDemand .l0 2 (some 180) (pedal810 none none (PedalDrive.mk none none 0))) = PedalDrive.mk (some 180) (some 180) 1802 ∧
      r (setDemand .l1 2 (some 182) (pedal810 (some 180) none (PedalDrive.mk (some 180) (some 180) 1802))) =
        PedalDrive.mk (some 182) (some 180) 1802 ∧
      r (setDemand .l0 2 (some 100) (pedal810 (some 180) (some 182) (PedalDrive.mk (some 182) (some 180) 1802))) =
        PedalDrive.mk (some 182) (some 180) 1802 ∧
      (r (setDemand .l1 2 none (pedal810 (some 100) (some 182) (PedalDrive.mk (some 182) (some 180) 1802)))).applied =
        some 100 := by decide +kernel

/-- The PEDAL clause: a value that changes its layer's demand at the deadband, one within it, one that equals the demand, a pedal
not passed, and a layer that stays in its state. -/
theorem witness_OfferedStrikeFollowsTheTable_pedal :
    let a (v : Nat) : Action := { action39 with body := .pedal 2 v }
    let s := pedal810 (some 180) none (PedalDrive.mk (some 180) (some 180) 1802)
    let shut := layer0 { s.layer0 with latched := { s.layer0.latched with pass := Vector.replicate 3 false } } s
    (∀ v ∈ [180, 183, 184], ((carryOut (a v) s).layer .l0).state = (s.layer .l0).state) ∧
      bankGet (s.layer .l0).latched.pass 2 = true ∧ ¬ bankGet (shut.layer .l0).latched.pass 2 = true ∧
      ((carryOut (a 183) shut).layer .l0).state = (shut.layer .l0).state ∧
      bankGet (s.layer .l0).demands 2 = some 180 ∧ s.drive.power = .active ∧
      (carryOut (a 184) s).mergedDemand 2 = some (180 + 4) ∧ (carryOut (a 183) s).mergedDemand 2 = some 183 ∧
      (bankGet s.map.pedals 2).state = 1 ∧ (bankGet s.map.pedals 2).deadband.toNat = 4 ∧
      State.reset.drive.power = .quiet := by decide +kernel

/-- A record of key 39 by kind and value at a time. -/
def keyRecord (kind value : Word16) (target : Byte) (time : Word32) : Record :=
  { kind := kind.setWidth 8, target := target, value := value, time := time }

/-- Layer 0 CUED at cue 0 and origin 0 with a SET key 39 and a SET pedal 2. -/
def taking (s : State) : State :=
  layer0 { (streaming .playing) with cue := some 0, origin := some 0 }
    { s with map := { s.map with
        keys := bankSet s.map.keys 39 entry39, pedals := bankSet s.map.pedals 2 (PedalEntry.mk 1 300 2300 200 2) } }

theorem witness_TakenRecordsBecomeActions :
    let s := taking State.reset
    let r := keyRecord 1 405 39 2029
    let mem := { s with sched := { s.sched with memory := bankSet s.sched.memory 39 (some (KeyMemory.mk .l1 false 1000 0)) } }
    let owned := key39 (driven .strike) s
    let clash : Action := { action39 with layer := .l1, event := 2029 + 999 }
    let free : Action := { action39 with layer := .l1, event := 2029 + 1000 }
    (∃ m, bankGet mem.sched.memory 39 = some m ∧ LayerId.l1 = m.layer ∧ 1000 = m.event) ∧
      (r.kind = 1 ∧ (keyRecord 2 0 39 0).kind = 2 ∧ (keyRecord 3 0 39 0).kind = 3 ∧ (keyRecord 5 0 0 0).kind = 5) ∧
      ((keyRecord 4 180 2 500).kind = 4 ∧ (keyRecord 4 180 2 500).target.toNat = (2 : Pedal).val ∧
        bankGet (s.layer .l0).latched.pass 2 = true ∧ (bankGet s.map.pedals 2).state = 1 ∧
        (bankGet s.map.pedals 1).state ≠ 1 ∧
        bankGet { Settings.reset with pass := Vector.replicate 3 false }.pass 2 = false) ∧
      ((0 : Int) ≤ 0 + (r.time.toNat - 0) + (s.layer .l0).latched.timeOffset ∧ ¬ ((0 : Int) ≤ 0 + (0 - 0) + -1)) ∧
      (¬ (r.target.toNat < (s.layer .l0).latched.winLow ∨ (s.layer .l0).latched.winHigh < r.target.toNat) ∧
        (s.layer .l0).latched.winHigh < (88 : Byte).toNat ∧ (s.layer .l0).latched.mute = false) ∧
      (((87 : Nat) : Int) + 1 > 87 ∧ ((39 : Key).val : Int) = (r.target.toNat : Int) + (s.layer .l0).latched.transpose) ∧
      ((bankGet s.map.keys 39).state = 1 ∧ (bankGet s.map.keys 38).state ≠ 1) ∧
      ((∀ a ∈ s.sched.plan, a.layer ≠ .l1) ∧ bankGet s.sched.memory 39 = none ∧ (s.driveKey 39).state = .rest) ∧
      ((owned.driveKey 39).state = .strike ∧ (owned.driveKey 39).owner = some .l0) ∧
      (clash.layer = LayerId.l0.other ∧ max clash.event 2029 - min clash.event 2029 < entry39.rm.toNat) ∧
      ¬ (max free.event 2029 - min free.event 2029 < entry39.rm.toNat) ∧
      ((s.layer .l1).latched.priority = (s.layer .l0).latched.priority ∧ LayerId.l0 = .l0) ∧
      (s.layer .l0).latched.priority < { Settings.reset with priority := 7 }.priority :=
  ⟨⟨KeyMemory.mk .l1 false 1000 0, by decide +kernel⟩, by decide +kernel⟩

/-- The END of a layer, and the takings: a layer that holds nothing and one that holds key 39, a lone ready front record, two
ready at one time, and none ready. -/
theorem witness_TakenRecordsBecomeActions_takings :
    let end_ := mkRecord 6 0 0 100
    let s := clockAt .running 0 (taking (appending .status))
    let ends := layer0 { (s.layer .l0) with ring := [end_] } s
    let one := layer0 { (s.layer .l0) with ring := [pedalAt 4400] } s
    let none_ := layer0 { (s.layer .l0) with ring := [pedalAt 4401] } s
    let two := { one with layer1 := one.layer0 }
    (end_.kind = 6 ∧ (ends.layer .l0).state = .playing ∧ ends.keysHeld .l0 = [] ∧ (∀ a ∈ ends.sched.plan, a.layer ≠ .l0) ∧
        (ends.layer .l0).ring = end_ :: [] ∧ (key39 (driven .sustain) ends).keysHeld .l0 = [39]) ∧
      (nextTaking ends = some (.l0, end_) ∧ nextTaking one = some (.l0, pedalAt 4400) ∧ nextTaking none_ = none ∧
        nextTaking two = some (.l0, pedalAt 4400)) ∧
      (one.layer .l0).latched.priority = (two.layer .l1).latched.priority ∧ StoreSound one ∧ BindingsAgree one := by
  exact ⟨by decide +kernel, by decide +kernel, by decide +kernel, (appending_sound .status).1,
    appending_agrees rfl (fed_layers _)⟩

/-- Nothing to schedule with the queue empty and the clock not RUNNING. -/
theorem nothing_of (s : State) (hq : s.drive.queue = []) (hc : s.clk.state ≠ .running) : NothingToSchedule s := ⟨hq, .inl hc⟩

theorem witness_StrikesEndInSustain :
    let s (st : DriveState) := atNow 37176 (key39 { (driven st) with fire := some (strikeFire 37176) } State.reset)
    let sus (t : Nat) := atNow 500 (key39 { (driven .sustain) with reboundEnd := some t } State.reset)
    NothingToSchedule (s .strike) ∧
      ((s .strike).driveKey 39).state = .strike ∧ ((s .strike).driveKey 39).fire = some (strikeFire 37176) ∧
      (strikeFire 37176).kind = .strike .l0 500 405 1612 27176 27176 ∧ (strikeFire 37176).grace ≤ (s .strike).now ∧
      (s .strike).now < (strikeFire 37177).grace ∧
      (((s .letgo).driveKey 39).state = .letgo ∧ ((s .letgo).driveKey 39).fire.isSome = true) ∧
      (((s .blocked).driveKey 39).state = .blocked ∧ ((s .blocked).driveKey 39).fire.isSome = true) ∧
      ((key39 (driven .letgo) State.reset).driveKey 39).fire = none ∧
      ((driven .strike).reboundGap.getD 0 = 10 ∧ { (driven .strike) with reboundGap := some 0 }.reboundGap.getD 0 = 0) ∧
      (((sus 500).driveKey 39).state = .sustain ∧ ((sus 500).driveKey 39).reboundEnd = some 500 ∧ 500 ≤ (sus 500).now) ∧
      (((sus 501).driveKey 39).reboundEnd = some 501 ∧ (sus 501).now < 501) :=
  ⟨nothing_of _ rfl (by decide), by decide +kernel⟩

theorem witness_BlockedKeysAreEnteredAndCleared :
    let s (t : Nat) := atNow 1000 (key39 { (driven .letgo) with owner := none, letGoAt := some t } State.reset)
    let c := serving .a (.keysClear (BitVec.twoPow 88 39)) (key39 { DriveKey.reset with state := .blocked, lastPos := 499 } State.reset)
    let cut := running .stopping .threshold .none
    let other (u : State) := { (cut u) with run := { (cut u).run with current := some 40 } }
    (((s 1000).driveKey 39).state = .letgo ∧ ((s 1000).driveKey 39).letGoAt = some 1000 ∧ 1000 ≤ (s 1000).now ∧
        NothingToSchedule (s 1000) ∧ (s 1000).run.state ≠ .stopping) ∧
      ((cut (s 1000)).run.state = .stopping ∧ (cut (s 1000)).run.current = some 39 ∧ NothingToSchedule (cut (s 1000)) ∧
        ((cut (s 1000)).driveKey 39).letGoAt = some 1000 ∧ NothingToSchedule (other (s 1000)) ∧
        (other (s 1000)).run.state = .stopping ∧ (other (s 1000)).run.current ≠ some 39 ∧
        ((other (s 1000)).driveKey 39).state = .letgo ∧ ((other (s 1000)).driveKey 39).letGoAt = some 1000) ∧
      (((s 1001).driveKey 39).letGoAt = some 1001 ∧ (s 1001).now < 1001) ∧ (State.reset.driveKey 39).state ≠ .letgo ∧
      ((c.link .a).slots = .serving (.keysClear (BitVec.twoPow 88 39)) ∧ NothingToSchedule c ∧
        (c.driveKey 39).state = .blocked ∧ (c.driveKey 39).lastPos.val < (c.driveKey 39).repetitionAt ∧
        ¬ (500 : KeyPos).val < (c.driveKey 39).repetitionAt) :=
  ⟨⟨by decide +kernel, by decide +kernel, by decide +kernel, nothing_of _ rfl (by decide), by decide +kernel⟩,
    ⟨rfl, rfl, nothing_of _ rfl (by decide), by decide +kernel, nothing_of _ rfl (by decide), by decide +kernel⟩,
    by decide +kernel, by decide +kernel, rfl, nothing_of _ rfl (by decide), by decide +kernel, by decide +kernel,
    by decide +kernel⟩

theorem witness_SupplyAndPowerStates :
    let w := atNow 1000 { State.reset with drive := { State.reset.drive with power := .waking, wakeAt := some 1000 } }
    let enter := serving .a .quietEnter (powered State.reset)
    let pending_ := { State.reset with drive := { State.reset.drive with power := .quietPending } }
    (NothingToSchedule w ∧ w.drive.power = .waking ∧ w.drive.wakeAt = some 1000 ∧ 1000 ≤ w.now ∧ w.wall.supply ≤ w.now) ∧
      ((atNow 999 w).now < 1000 ∧ (atNow 999 w).now < w.wall.supply) ∧
      (NothingToSchedule enter ∧ (enter.link .a).slots = .serving .quietEnter ∧ enter.drive.power = .active ∧
        enter.clk.state ≠ .running ∧ enter.run.state = .idle ∧ (∀ k, (enter.driveKey k).state = .rest) ∧
        ¬ ∀ k, ((key39 (driven .sustain) enter).driveKey k).state = .rest) ∧
      (State.reset.drive.power = .quiet ∧ pending_.drive.power = .quietPending ∧ NothingToSchedule pending_ ∧
        NothingToSchedule (clockAt .running 0 State.reset)) ∧
      ((clockAt .running 0 State.reset).clk.state = .running ∧
        (running .stopping .proof .none State.reset).run.state ≠ .idle) ∧
      ((serving .b .quietLeave pending_).link .b).slots = .serving .quietLeave :=
  ⟨⟨nothing_of _ rfl (by decide), rfl, rfl, by decide, by decide⟩, by decide +kernel,
    ⟨nothing_of _ rfl (by decide), rfl, rfl, by decide, rfl, by decide +kernel, by decide +kernel⟩,
    ⟨rfl, rfl, nothing_of _ rfl (by decide), rfl, .inr ⟨rfl, by rintro (_ | _) <;> rfl⟩⟩, by decide +kernel, rfl⟩

/-- The clauses on demands: a demand that changes and one that does not, a pedal with a demand and one with none, and a pedal
already driven at the entry to ACTIVE. -/
theorem witness_SupplyAndPowerStates_demands :
    let s := pedal810 (some 180) (some 182) (PedalDrive.mk (some 182) (some 180) 1802)
    let leave := serving .b .quietLeave { s with drive := { s.drive with power := .quietPending } }
    s.mergedDemand 2 = some 182 ∧ s.mergedDemand 0 = none ∧ bankGet (s.layer .l0).demands 2 ≠ some 100 ∧
      bankGet (s.layer .l0).demands 2 = some 180 ∧
      (NothingToSchedule leave ∧ (leave.link .b).slots = .serving .quietLeave ∧ leave.drive.power = .quietPending ∧
        (bankGet leave.drive.pedals 2).applied = some 180) :=
  ⟨by decide +kernel, by decide +kernel, by decide +kernel, by decide +kernel,
    nothing_of _ rfl (by decide), rfl, rfl, by decide +kernel⟩

theorem witness_DriveSetAndInfo :
    ((serving .a (.driveSet 3 99 59) State.reset).link .a).slots = .serving (.driveSet 3 99 59) ∧
      NothingToSchedule (serving .a (.driveSet 3 99 59) State.reset) ∧
      ((serving .a (.driveInfo 87 1) State.reset).link .a).slots = .serving (.driveInfo 87 1) ∧
      ((87 : Byte).toNat ≤ 87 ∧ 1 ≤ (1 : Byte).toNat ∧ (87 : Byte).toNat + (1 : Byte).toNat ≤ 88) ∧
      ((56 : Byte).toNat ≤ 87 ∧ (32 : Byte).toNat ≤ 32 ∧ (56 : Byte).toNat + (32 : Byte).toNat ≤ 88) ∧
      (87 < (88 : Byte).toNat ∧ (0 : Byte).toNat < 1 ∧ 32 < (33 : Byte).toNat ∧ 88 < (87 : Byte).toNat + (2 : Byte).toNat) :=
  ⟨rfl, nothing_of _ rfl (by decide), rfl, by decide, by decide, by decide⟩

theorem witness_CalRunStartsAndStops :
    let q : Request := .calRun 0 (BitVec.twoPow 88 39) 1 400 4
    let p : Request := .calRun 1 (BitVec.twoPow 88 39) 0 1000 8
    let s := serving .a q (powered State.reset)
    let good (kind stop repeats : Byte) (velocity : Word16) : Prop :=
      kind.toNat ≤ 1 ∧ stop.toNat ≤ 1 ∧ 40 ≤ velocity.toNat ∧ velocity.toNat ≤ 1000 ∧ 1 ≤ repeats.toNat ∧ repeats.toNat ≤ 8
    let r := serving .a .calStop (running .running .threshold .inFlight State.reset)
    let cut := key39 { (driven .probe) with fire := some (pulseFire 120000) } r
    NothingToSchedule cut ∧ (cut.driveKey 39).state = .probe ∧
      ((s.link .a).slots = .serving q ∧ s.run.state = .idle ∧ s.clk.state = .stopped ∧ s.drive.power = .active ∧
        (BitVec.twoPow 88 39).getLsbD (39 : Key).val = true ∧
        (∀ k : Key, 39 < k → (BitVec.twoPow 88 39).getLsbD k.val = false) ∧ (s.driveKey 39).state ≠ .blocked ∧
        ((key39 (driven .blocked) s).driveKey 39).state = .blocked) ∧
      (good 0 1 4 400 ∧ good 1 0 8 1000 ∧ good 1 1 1 40 ∧ ¬ good 0 0 4 39 ∧ ¬ good 0 0 9 400 ∧ ¬ good 2 0 4 400) ∧
      (((serving .b p s).link .b).slots = .serving p ∧
        ∀ k : Key, (BitVec.twoPow 88 39).getLsbD k.val = true →
          (bankGet s.map.keys k).state ≠ 1 ∧ (s.driveKey k).state ≠ .blocked) ∧
      (State.reset.drive.power ≠ .active ∧ (clockAt .running 0 s).clk.state ≠ .stopped ∧ r.run.state ≠ .idle) ∧
      ((r.link .a).slots = .serving .calStop ∧ r.run.state = .running ∧ r.run.current = some 39 ∧
        (r.driveKey 39).state ≠ .probe) ∧
      (running .stopping .proof .none State.reset).run.state = .stopping :=
  ⟨nothing_of _ rfl (by decide), by decide +kernel, by decide +kernel, by decide +kernel, by decide +kernel⟩

theorem witness_CalibrationPulses :
    let s := atNow 150000 (running .running .threshold (.rest 150000) State.reset)
    let fired (t : Nat) : State := { s with run := { s.run with lastFire := some t } }
    let p : State := { (powered State.reset) with drive := { Drive.reset with power := .active, pulse := some ⟨39, 900⟩ } }
    (s.run.state = .running ∧ s.run.wait = .rest 150000 ∧ s.run.current = some 39 ∧ (s.driveKey 39).state = .rest ∧
        (s.driveKey 39).lastPos.val < (s.driveKey 39).repetitionAt ∧ s.drive.pulse = none ∧ ∀ j, (s.driveKey j).state ≠ .probe) ∧
      ((fired 0).run.lastFire = some 0 ∧ 0 + 150000 ≤ (fired 0).now ∧ ¬ (1 + 150000 ≤ (fired 1).now)) ∧
      State.reset.run.state ≠ .running ∧ State.reset.drive.pulse = none ∧
      (p.drive.pulse = some ⟨39, 900⟩ ∧ (p.driveKey 39).state = .rest ∧ (p.driveKey 39).hot = false ∧ p.drive.sag = false ∧
        p.slotsHeld < p.drive.slots ∧ (p.capKey 39).held = false) ∧
      (((key39 { DriveKey.reset with hot := true } p).driveKey 39).hot = true) ∧
      ((atNow 149999 s).now < 150000 ∧ 150000 ≤ s.now ∧
        ¬ ((key39 { DriveKey.reset with lastPos := 500 } s).driveKey 39).lastPos.val < DriveKey.reset.repetitionAt) := by decide +kernel

/-- A pulse in flight on key 39 in a run at a level and phase. -/
def pulsing (kind : RunKind) (phase : SearchPhase) (level : Nat) (m c : Option Nat) (probes : Nat) (e : KeyEntry) : State :=
  let s := running .running kind .inFlight (atNow 120000 (key39 { (driven .probe) with owner := none, fire := some (pulseFire 120000) }
    State.reset))
  { s with run := { s.run with
      phase := phase, level := level, lastMiss := m, coarse := c, probes := probes, copy := some { entry := e, integrity := .good } } }

theorem witness_PulseAnswersMoveTheRun :
    let s := pulsing .threshold .first 772 none none 1 entry39
    let low := pulsing .threshold .down 3 none (some 35) 2 KeyEntry.zero
    let up := pulsing .threshold .up 4063 (some 4031) none 63 KeyEntry.zero
    let top := pulsing .threshold .up 4064 (some 4032) none 64 KeyEntry.zero
    let fine := pulsing .threshold .fine 904 (some 900) (some 932) 9 entry39
    let proof := pulsing .proof .first 1598 none none 4 entry39
    NothingToSchedule s ∧ NothingToSchedule proof ∧
      ((s.driveKey 39).state = .probe ∧ (s.driveKey 39).fire = some (pulseFire 120000) ∧
        (pulseFire 120000).kind = .pulse ∧ (pulseFire 120000).grace ≤ s.now) ∧
      (s.run.state = .running ∧ s.run.wait = .inFlight ∧ s.run.current = some 39 ∧ s.run.kind = .threshold ∧
        s.run.copy = some { entry := entry39, integrity := .good } ∧ 4 ≤ s.run.level ∧ s.run.phase = .first) ∧
      (low.run.level < 4 ∧ low.run.phase = .down ∧ low.run.coarse = some 35) ∧
      (up.run.level + 32 ≤ 4095 ∧ up.run.phase = .up ∧ up.run.lastMiss = some 4031 ∧ up.run.probes < 64) ∧
      (4095 < top.run.level + 32 ∧ top.run.phase = .up ∧ ¬ top.run.probes < 64) ∧
      (fine.run.phase = .fine ∧ fine.run.coarse = some 932) ∧
      (proof.run.kind = .proof ∧ proof.run.repeats ≤ proof.run.probes ∧
        ∀ j : Key, j < 39 → proof.run.keys.getLsbD j.val = false) ∧
      (State.reset.run.state ≠ .running) :=
  ⟨nothing_of _ rfl (by decide), nothing_of _ rfl (by decide), by decide +kernel⟩

theorem witness_EveryStepKeepsTheRanges :
    let s := (serving .a (.clockLocate (-3)) (clockAt .stopped 2147483647 State.reset)).withPending [.clockLocate .a (-3)]
    ∃ t, step s = .next t ∧ ClockInRange s ∧ t.clk.position < s.clk.position := by
  refine ⟨_, rfl, ⟨?_, ?_⟩, ?_⟩ <;> decide +kernel

theorem witness_EveryStepKeepsThePlanAndTheDrive :
    let s := (serving .a (.keysClear (BitVec.twoPow 88 39)) (key39 { DriveKey.reset with state := .blocked } State.reset)).withPending
      [.keysClear .a (BitVec.twoPow 88 39)]
    ∃ t, step s = .next t ∧ PlanSound s ∧ SerialsSound s ∧ DriveKeysSound s ∧ SlotsBounded s ∧ (s.driveKey 39).state = .blocked ∧
      (t.driveKey 39).state ≠ .blocked := by
  unfold PlanSound SerialsSound DriveKeysSound SlotsBounded
  exact ⟨_, rfl, by decide +kernel⟩

end Sys2Proof.Tests
end

section
/-! SUPPORT. The take store's operations: what each leaves of an entry, the pool and record memory, and what a record written
or a take closed is (R22, R26, R30). -/

namespace Sys2Proof.Machine

/-! ### Entries -/

@[simp] theorem entry_setEntry_same (st : Store) (t : TakeNo) (e : TakeEntry) : (st.setEntry t e).entry t = e := by
  simp [Store.entry, Store.setEntry]

theorem entry_setEntry_other (st : Store) {t u : TakeNo} (e : TakeEntry) (h : u ≠ t) :
    (st.setEntry t e).entry u = st.entry u := by
  simp [Store.entry, Store.setEntry, bankGet_bankSet_other _ _ h]

@[simp] theorem setEntry_pool (st : Store) (t : TakeNo) (e : TakeEntry) : (st.setEntry t e).pool = st.pool := rfl
@[simp] theorem setEntry_mem (st : Store) (t : TakeNo) (e : TakeEntry) : (st.setEntry t e).mem = st.mem := rfl

@[simp] theorem entry_putRecord_same (st : Store) (t : TakeNo) (e : TakeEntry) (r : Record) :
    (st.putRecord t e r).entry t = { e with length := e.length + 1, lastTime := r.time.toNat } := by
  simp [Store.entry, Store.putRecord]

theorem entry_putRecord_other (st : Store) {t u : TakeNo} (e : TakeEntry) (r : Record) (h : u ≠ t) :
    (st.putRecord t e r).entry u = st.entry u := by
  simp [Store.entry, Store.putRecord, bankGet_bankSet_other _ _ h]

@[simp] theorem putRecord_pool (st : Store) (t : TakeNo) (e : TakeEntry) (r : Record) :
    (st.putRecord t e r).pool = st.pool := rfl

theorem putRecord_mem_wf {st : Store} (t : TakeNo) (e : TakeEntry) (r : Record) (w : Memory.wf st.mem = true) :
    Memory.wf (st.putRecord t e r).mem = true := memWriteBytes_wf _ _ w

/-- The record put at the end of a take reads back (R22). -/
theorem record_putRecord {st : Store} (t : TakeNo) (e : TakeEntry) (r : Record) (w : Memory.wf st.mem = true) :
    (st.putRecord t e r).record t e.length = r := by
  have h : ((st.putRecord t e r).entry t).recordAddr e.length = e.recordAddr e.length := by
    rw [entry_putRecord_same]; rfl
  rw [Store.record, h]
  exact memRecord_memWriteBytes_same _ r w

/-- A record put changes no byte outside its own eight. -/
theorem putRecord_sameOutside {st : Store} (t : TakeNo) (e : TakeEntry) (r : Record) (w : Memory.wf st.mem = true) :
    SameOutside st.mem (st.putRecord t e r).mem (e.recordAddr e.length) := by
  intro c hc
  have hl : r.bytes.length = 8 := rfl
  change memRead (memWriteBytes st.mem (e.recordAddr e.length) r.bytes) c = _
  rw [memRead_memWriteBytes _ _ _ w, dif_neg (by omega)]

/-! ### Appending (R26) -/

/-- The two ways a record is appended: into the last block, or with a block from the front of the pool. -/
theorem appendRecord_eq_some {st st' : Store} {t : TakeNo} {r : Record} (h : st.appendRecord t r = some st') :
    ((st.entry t).length + 1 < Config.blockRecords * (st.entry t).blocks.length ∧ st' = st.putRecord t (st.entry t) r) ∨
      (¬ (st.entry t).length + 1 < Config.blockRecords * (st.entry t).blocks.length ∧ ∃ b pool, st.pool = b :: pool ∧
        st' = Store.putRecord { st with pool := pool } t { (st.entry t) with blocks := (st.entry t).blocks ++ [b] } r) := by
  unfold Store.appendRecord at h
  dsimp only at h
  split at h
  · next hroom => exact .inl ⟨hroom, (Option.some.inj h).symm⟩
  · next hroom =>
    split at h
    · cases h
    · next b pool hp => exact .inr ⟨hroom, b, pool, hp, (Option.some.inj h).symm⟩

/-- A take with room takes its record. -/
theorem appendRecord_of_room {st : Store} {t : TakeNo} (r : Record) (h : st.HasRoom t) :
    ∃ st', st.appendRecord t r = some st' := by
  unfold Store.appendRecord
  dsimp only
  split
  · exact ⟨_, rfl⟩
  · next hroom =>
    obtain ⟨b, pool, hp⟩ := List.exists_cons_of_ne_nil (h.resolve_left hroom)
    exact ⟨_, by rw [hp]⟩

/-- A take without room refuses its record. -/
theorem appendRecord_of_no_room {st : Store} {t : TakeNo} (r : Record) (h : ¬ st.HasRoom t) : st.appendRecord t r = none := by
  obtain ⟨hlen, hp⟩ := not_or.mp h
  simp [Store.appendRecord, hlen, not_not.mp hp]

theorem appendRecord_mem_wf {st st' : Store} {t : TakeNo} {r : Record} (h : st.appendRecord t r = some st')
    (w : Memory.wf st.mem = true) : Memory.wf st'.mem = true := by
  obtain ⟨-, rfl⟩ | ⟨-, b, pool, -, rfl⟩ := appendRecord_eq_some h
  · exact putRecord_mem_wf _ _ _ w
  · exact memWriteBytes_wf _ _ w

theorem appended_of_appendRecord {st st' : Store} {t : TakeNo} {r : Record} (h : st.appendRecord t r = some st')
    (w : Memory.wf st.mem = true) : st.Appended t r st' := by
  obtain ⟨hroom, rfl⟩ | ⟨hroom, b, pool, hp, rfl⟩ := appendRecord_eq_some h
  · refine ⟨by simp, .inl ⟨hroom, by simp⟩, fun u hu => entry_putRecord_other _ _ _ hu, record_putRecord _ _ _ w, ?_⟩
    rw [entry_putRecord_same]
    exact putRecord_sameOutside t (st.entry t) r w
  · refine ⟨by simp, .inr ⟨hroom, b, by simp [hp]⟩, fun u hu => entry_putRecord_other _ _ _ hu,
      record_putRecord (st := { st with pool := pool }) t { (st.entry t) with blocks := (st.entry t).blocks ++ [b] } r w, ?_⟩
    rw [entry_putRecord_same]
    exact putRecord_sameOutside (st := { st with pool := pool }) t
      { (st.entry t) with blocks := (st.entry t).blocks ++ [b] } r w

/-- An appended record leaves every entry's state, writer, bound count and origin. -/
structure TakeEntry.Carried (e e' : TakeEntry) : Prop where
  state  : e'.state = e.state
  writer : e'.writer = e.writer
  bound  : e'.bound = e.bound
  origin : e'.origin = e.origin

theorem appendRecord_carried {st st' : Store} {t : TakeNo} {r : Record} (h : st.appendRecord t r = some st') (u : TakeNo) :
    (st.entry u).Carried (st'.entry u) := by
  by_cases hu : u = t
  · subst hu
    obtain ⟨-, rfl⟩ | ⟨-, b, pool, -, rfl⟩ := appendRecord_eq_some h <;> rw [entry_putRecord_same] <;> exact ⟨rfl, rfl, rfl, rfl⟩
  · have hother : st'.entry u = st.entry u := by
      obtain ⟨-, rfl⟩ | ⟨-, b, pool, -, rfl⟩ := appendRecord_eq_some h <;> exact entry_putRecord_other _ _ _ hu
    rw [hother]
    exact ⟨rfl, rfl, rfl, rfl⟩

theorem appendRecord_entry_other {st st' : Store} {t u : TakeNo} {r : Record} (h : st.appendRecord t r = some st')
    (hu : u ≠ t) : st'.entry u = st.entry u := by
  obtain ⟨-, rfl⟩ | ⟨-, b, pool, -, rfl⟩ := appendRecord_eq_some h <;> exact entry_putRecord_other _ _ _ hu

/-! ### Closing (R30) -/

/-- The END record that closes a take. -/
def endRecord (e : TakeEntry) (time : Nat) : Record := mkRecord kindEnd 0 0 (max e.lastTime time)

theorem entry_closeTake_same (st : Store) (t : TakeNo) (time : Nat) :
    (st.closeTake t time).entry t =
      { (st.entry t) with
        state := .closed, writer := none, length := (st.entry t).length + 1
        lastTime := (endRecord (st.entry t) time).time.toNat } := by
  simp [Store.closeTake, endRecord]

theorem entry_closeTake_other (st : Store) {t u : TakeNo} (time : Nat) (h : u ≠ t) :
    (st.closeTake t time).entry u = st.entry u := by
  exact (entry_setEntry_other _ _ h).trans (entry_putRecord_other _ _ _ h)

@[simp] theorem closeTake_pool (st : Store) (t : TakeNo) (time : Nat) : (st.closeTake t time).pool = st.pool := rfl

theorem closeTake_mem (st : Store) (t : TakeNo) (time : Nat) :
    (st.closeTake t time).mem = (st.putRecord t (st.entry t) (endRecord (st.entry t) time)).mem := rfl

theorem closeTake_mem_wf {st : Store} (t : TakeNo) (time : Nat) (w : Memory.wf st.mem = true) :
    Memory.wf (st.closeTake t time).mem = true :=
  putRecord_mem_wf t (st.entry t) (endRecord (st.entry t) time) w

theorem closedAt_closeTake {st : Store} (t : TakeNo) (time : Nat) (w : Memory.wf st.mem = true) :
    st.ClosedAt t time (st.closeTake t time) := by
  refine ⟨entry_closeTake_same st t time, rfl, fun u hu => entry_closeTake_other st time hu, ?_,
    putRecord_sameOutside t (st.entry t) _ w⟩
  have haddr : ((st.closeTake t time).entry t).recordAddr (st.entry t).length = (st.entry t).recordAddr (st.entry t).length := by
    rw [entry_closeTake_same]; rfl
  rw [Store.record, haddr, closeTake_mem]
  exact memRecord_memWriteBytes_same _ _ w

end Sys2Proof.Machine
end

section
/-! SUPPORT. The soundness of the take store in parts (R23, R26, R30, R33), and that each operation of the store keeps it. -/

namespace Sys2Proof.Machine

/-! ### The parts of soundness -/

/-- What `StoreSound` asks of one directory entry. -/
structure TakeEntry.Sound (e : TakeEntry) : Prop where
  free   : e.state = .free → e.blocks = []
  opened : e.state = .opened → e.length < Config.blockRecords * e.blocks.length
  closed : e.state = .closed → 1 ≤ e.length ∧ e.length ≤ Config.blockRecords * e.blocks.length

/-- The blocks of a directory, in the order of the entries. -/
def Store.takeBlocks (st : Store) : List Nat := allTakes.flatMap fun t => (st.entry t).blocks

/-- What `StoreSound` asks of the take store alone. -/
structure Store.Sound (st : Store) : Prop where
  blocks  : (st.pool ++ st.takeBlocks).Perm (List.range 256)
  sorted  : st.pool.Pairwise (· < ·)
  entries : ∀ t, (st.entry t).Sound

/-- What `StoreSound` asks of the capture unit's target. -/
def Store.TargetOpen (st : Store) (target : Option TakeNo) : Prop :=
  ∀ t, target = some t → (st.entry t).state = .opened ∧ (st.entry t).writer = some .capture

theorem storeSound_iff {s : State} : StoreSound s ↔ s.store.Sound ∧ s.store.TargetOpen s.cap.target := by
  constructor
  · rintro ⟨hb, hp, he, ht⟩
    exact ⟨⟨hb, hp, fun t => ⟨(he t).1, (he t).2.1, (he t).2.2⟩⟩, ht⟩
  · rintro ⟨⟨hb, hp, he⟩, ht⟩
    exact ⟨hb, hp, fun t => ⟨(he t).free, (he t).opened, (he t).closed⟩, ht⟩

/-- The part of a bound-layer count that one layer's source makes up. -/
def boundBy (source : Option Source) (t : TakeNo) : Nat := if source = some (.take t) then 1 else 0

/-- What `BindingsAgree` asks of the take store and the two sources. -/
structure Store.Counts (st : Store) (a b : Option Source) : Prop where
  count  : ∀ t, (st.entry t).bound = boundBy a t + boundBy b t
  closed : ∀ t, (st.entry t).bound ≠ 0 → (st.entry t).state = .closed

theorem bindingsAgree_iff {s : State} :
    BindingsAgree s ↔ s.store.Counts s.layer0.source s.layer1.source ∧
      ∀ y, (s.layer y).source = none ↔ (s.layer y).state = .free :=
  ⟨fun ⟨hc, hb, hs⟩ => ⟨⟨hc, hb⟩, hs⟩, fun ⟨⟨hc, hb⟩, hs⟩ => ⟨hc, hb, hs⟩⟩

/-! ### Blocks and the pool -/

/-- Two block lists that differ at one entry alone, each with the other's blocks of that entry before it. -/
theorem flatMap_perm_of_eq_off {α β : Type} {l : List α} {f g : α → List β} {t : α} (hn : l.Nodup) (ht : t ∈ l)
    (h : ∀ u, u ≠ t → f u = g u) : (f t ++ l.flatMap g).Perm (g t ++ l.flatMap f) := by
  induction l with
  | nil => cases ht
  | cons x l ih =>
    obtain ⟨hx, hl⟩ := List.nodup_cons.mp hn
    by_cases hxt : x = t
    · subst hxt
      have hrest : l.flatMap f = l.flatMap g := by
        rw [List.flatMap_congr fun u hu => h u fun e => hx (e ▸ hu)]
      simp only [List.flatMap_cons, hrest, ← List.append_assoc]
      exact List.perm_append_comm.append_right _
    · have hm : t ∈ l := (List.mem_cons.mp ht).resolve_left fun e => hxt e.symm
      simp only [List.flatMap_cons, h x hxt]
      calc (f t ++ (g x ++ l.flatMap g)).Perm (g x ++ (f t ++ l.flatMap g)) := by
            simp only [← List.append_assoc]; exact List.perm_append_comm.append_right _
        _ |>.Perm (g x ++ (g t ++ l.flatMap f)) := (ih hl hm).append_left _
        _ |>.Perm (g t ++ (g x ++ l.flatMap f)) := by
            simp only [← List.append_assoc]; exact List.perm_append_comm.append_right _

/-- The directory's blocks before and after a change of one entry. -/
theorem takeBlocks_perm {st st' : Store} (t : TakeNo) (h : ∀ u, u ≠ t → st'.entry u = st.entry u) :
    ((st.entry t).blocks ++ st'.takeBlocks).Perm ((st'.entry t).blocks ++ st.takeBlocks) :=
  flatMap_perm_of_eq_off (f := fun t => (st.entry t).blocks) (g := fun t => (st'.entry t).blocks)
    (List.nodup_finRange 32) (List.mem_finRange t) fun u hu => by rw [h u hu]

/-- A change of one entry that keeps its blocks keeps the directory's blocks. -/
theorem takeBlocks_perm_of_same {st st' : Store} (t : TakeNo) (h : ∀ u, u ≠ t → st'.entry u = st.entry u)
    (hb : (st'.entry t).blocks = (st.entry t).blocks) : st'.takeBlocks.Perm st.takeBlocks := by
  have := takeBlocks_perm t h
  rw [hb] at this
  exact (List.perm_append_left_iff _).mp this

theorem mem_poolInsert {b x : Nat} {l : List Nat} : x ∈ poolInsert b l ↔ x = b ∨ x ∈ l := by
  induction l with
  | nil => simp [poolInsert]
  | cons y l ih =>
    unfold poolInsert
    split
    · simp
    · split
      · next h => subst h; simp
      · simp only [List.mem_cons, ih]; tauto

theorem poolInsert_perm {b : Nat} {l : List Nat} (h : b ∉ l) : (poolInsert b l).Perm (b :: l) := by
  induction l with
  | nil => exact .refl _
  | cons y l ih =>
    obtain ⟨hy, hl⟩ : b ≠ y ∧ b ∉ l := by simpa only [List.mem_cons, not_or] using h
    unfold poolInsert
    rw [if_neg hy]
    split
    · exact .refl _
    · exact ((ih hl).cons y).trans (List.Perm.swap b y l)

theorem poolInsert_sorted {b : Nat} {l : List Nat} (h : l.Pairwise (· < ·)) : (poolInsert b l).Pairwise (· < ·) := by
  induction l with
  | nil => simp [poolInsert]
  | cons y l ih =>
    obtain ⟨hy, hl⟩ := List.pairwise_cons.mp h
    unfold poolInsert
    split
    · next hb => exact List.pairwise_cons.mpr ⟨by simpa using ⟨hb, fun x hx => hb.trans (hy x hx)⟩, h⟩
    · split
      · exact h
      · next h1 h2 =>
        refine List.pairwise_cons.mpr ⟨fun x hx => ?_, ih hl⟩
        obtain rfl | hx := mem_poolInsert.mp hx
        · omega
        · exact hy x hx

theorem poolInsertAll_sorted (bs : List Nat) {l : List Nat} (h : l.Pairwise (· < ·)) :
    (bs.foldl (fun pool b => poolInsert b pool) l).Pairwise (· < ·) := by
  induction bs generalizing l with
  | nil => exact h
  | cons b bs ih => exact ih (poolInsert_sorted h)

theorem poolInsertAll_perm {bs l : List Nat} (h : (bs ++ l).Nodup) :
    (bs.foldl (fun pool b => poolInsert b pool) l).Perm (bs ++ l) := by
  induction bs generalizing l with
  | nil => exact .refl _
  | cons b bs ih =>
    obtain ⟨hb, hn⟩ := List.nodup_cons.mp h
    have hbl : b ∉ l := fun hm => hb (List.mem_append_right bs hm)
    have hperm : (bs ++ poolInsert b l).Perm (b :: (bs ++ l)) :=
      ((poolInsert_perm hbl).append_left bs).trans List.perm_middle
    exact (ih (hperm.nodup_iff.mpr h)).trans hperm

/-! ### The operations keep the store sound -/

/-- A changed entry with its blocks kept keeps the store sound where the entry itself is. -/
theorem Store.Sound.changed {st st' : Store} (h : st.Sound) (t : TakeNo) (hp : st'.pool = st.pool)
    (ho : ∀ u, u ≠ t → st'.entry u = st.entry u) (hb : (st'.entry t).blocks = (st.entry t).blocks)
    (he : (st'.entry t).Sound) : st'.Sound where
  blocks := by
    rw [hp]
    exact ((takeBlocks_perm_of_same t ho hb).append_left _).trans h.blocks
  sorted := hp ▸ h.sorted
  entries u := by
    by_cases hu : u = t
    · exact hu ▸ he
    · rw [ho u hu]; exact h.entries u

theorem Store.Sound.append {st st' : Store} {t : TakeNo} {r : Record} (h : st.Sound)
    (ht : (st.entry t).state = .opened) (ha : st.appendRecord t r = some st') : st'.Sound := by
  obtain ⟨hroom, rfl⟩ | ⟨hroom, b, pool, hp, rfl⟩ := appendRecord_eq_some ha
  · refine h.changed t rfl (fun u hu => entry_putRecord_other _ _ _ hu) (by simp) ?_
    rw [entry_putRecord_same]
    exact ⟨by simp [ht], fun _ => hroom, by simp [ht]⟩
  · have ho : ∀ u, u ≠ t →
        (Store.putRecord { st with pool := pool } t { (st.entry t) with blocks := (st.entry t).blocks ++ [b] } r).entry u =
          st.entry u := fun u hu => entry_putRecord_other _ _ _ hu
    refine ⟨?_, ?_, fun u => ?_⟩
    · have hperm := takeBlocks_perm t ho
      rw [entry_putRecord_same] at hperm
      simp only [List.append_assoc] at hperm
      have hsound := h.blocks
      rw [hp] at hsound
      exact (((List.perm_append_left_iff _).mp hperm).append_left pool).trans (List.perm_middle.trans hsound)
    · have := h.sorted
      rw [hp] at this
      exact (List.pairwise_cons.mp this).2
    · by_cases hu : u = t
      · subst hu
        rw [entry_putRecord_same]
        have hlen := (h.entries u).opened ht
        refine ⟨by simp [ht], fun _ => ?_, by simp [ht]⟩
        simp only [List.length_append, List.length_singleton, Config.blockRecords] at *
        omega
      · rw [ho u hu]; exact h.entries u

theorem Store.Sound.close {st : Store} {t : TakeNo} (h : st.Sound) (ht : (st.entry t).state = .opened) (time : Nat) :
    (st.closeTake t time).Sound := by
  refine h.changed t rfl (fun u hu => entry_closeTake_other _ _ hu) (by simp [entry_closeTake_same]) ?_
  have := (h.entries t).opened ht
  rw [entry_closeTake_same]
  exact ⟨by simp, by simp, fun _ => ⟨by simp, this⟩⟩

/-- An entry changed in its bound count or origin alone. -/
theorem Store.Sound.setEntry {st : Store} (h : st.Sound) (t : TakeNo) (e : TakeEntry)
    (hs : e.state = (st.entry t).state) (hl : e.length = (st.entry t).length) (hb : e.blocks = (st.entry t).blocks) :
    (st.setEntry t e).Sound := by
  refine h.changed t rfl (fun u hu => entry_setEntry_other _ _ hu) (by simp [hb]) ?_
  rw [entry_setEntry_same]
  obtain ⟨hf, ho, hc⟩ := h.entries t
  exact ⟨by rwa [hs, hb], by rwa [hs, hb, hl], by rwa [hs, hb, hl]⟩

/-- The lowest FREE entry is FREE. -/
theorem freeEntry_eq_some {st : Store} {t : TakeNo} (h : st.freeEntry = some t) : (st.entry t).state = .free := by
  simpa using List.find?_some h

/-- What an opened take is: the lowest FREE entry with the front block of the pool (R24, R25). -/
theorem openTake_eq_some {st st' : Store} {w : Writer} {t : TakeNo} (h : st.openTake w = some (t, st')) :
    st.freeEntry = some t ∧ ∃ b pool, st.pool = b :: pool ∧
      st' = { st with
        dir := bankSet st.dir t
          { state := .opened, writer := some w, length := 0, lastTime := 0, blocks := [b], bound := 0, origin := none }
        pool := pool } := by
  unfold Store.openTake at h
  split at h
  · next t' b pool hf hp =>
    simp only [Option.some.injEq, Prod.mk.injEq] at h
    obtain ⟨rfl, rfl⟩ := h
    exact ⟨hf, b, pool, hp, rfl⟩
  · cases h

/-- The entry a take is opened in, and the others. -/
theorem openTake_entry {st st' : Store} {w : Writer} {t : TakeNo} (h : st.openTake w = some (t, st')) :
    (∃ b, st'.entry t =
        { state := .opened, writer := some w, length := 0, lastTime := 0, blocks := [b], bound := 0, origin := none }) ∧
      ∀ u, u ≠ t → st'.entry u = st.entry u := by
  obtain ⟨-, b, pool, -, rfl⟩ := openTake_eq_some h
  exact ⟨⟨b, bankGet_bankSet_same ..⟩, fun u hu => bankGet_bankSet_other _ _ hu⟩

theorem Store.Sound.open {st st' : Store} {w : Writer} {t : TakeNo} (h : st.Sound) (ho : st.openTake w = some (t, st')) :
    st'.Sound := by
  obtain ⟨hfree, b, pool, hp, hst⟩ := openTake_eq_some ho
  obtain ⟨-, hother⟩ := openTake_entry ho
  have hentry : st'.entry t =
      { state := .opened, writer := some w, length := 0, lastTime := 0, blocks := [b], bound := 0, origin := none } := by
    subst hst; exact bankGet_bankSet_same ..
  have hpool : st'.pool = pool := by subst hst; rfl
  refine ⟨?_, ?_, fun u => ?_⟩
  · have hperm := takeBlocks_perm t hother
    rw [hentry, (h.entries t).free (freeEntry_eq_some hfree)] at hperm
    have hsound := h.blocks
    rw [hp] at hsound
    rw [hpool]
    exact (hperm.append_left pool).trans (List.perm_middle.trans hsound)
  · have := h.sorted
    rw [hp] at this
    exact hpool ▸ (List.pairwise_cons.mp this).2
  · by_cases hu : u = t
    · subst hu
      rw [hentry]
      exact ⟨by simp, fun _ => by simp, by simp⟩
    · rw [hother u hu]; exact h.entries u

@[simp] theorem entry_eraseTake_same (st : Store) (t : TakeNo) : (st.eraseTake t).entry t = TakeEntry.free := by
  simp [Store.entry, Store.eraseTake]

theorem entry_eraseTake_other (st : Store) {t u : TakeNo} (h : u ≠ t) : (st.eraseTake t).entry u = st.entry u := by
  simp [Store.entry, Store.eraseTake, bankGet_bankSet_other _ _ h]

theorem Store.Sound.erase {st : Store} (h : st.Sound) (t : TakeNo) : (st.eraseTake t).Sound := by
  have hperm := takeBlocks_perm (st := st) (st' := st.eraseTake t) t fun u hu => entry_eraseTake_other st hu
  rw [entry_eraseTake_same] at hperm
  have hnodup : ((st.entry t).blocks ++ st.pool).Nodup := by
    have hall : (st.pool ++ ((st.entry t).blocks ++ (st.eraseTake t).takeBlocks)).Nodup :=
      ((hperm.append_left st.pool).trans h.blocks).nodup_iff.mpr List.nodup_range
    rw [← List.append_assoc] at hall
    exact List.perm_append_comm.nodup_iff.mp (List.nodup_append.mp hall).1
  have hpool : (st.eraseTake t).pool.Perm ((st.entry t).blocks ++ st.pool) := poolInsertAll_perm hnodup
  refine ⟨?_, poolInsertAll_sorted _ h.sorted, fun u => ?_⟩
  · calc ((st.eraseTake t).pool ++ (st.eraseTake t).takeBlocks).Perm
          (((st.entry t).blocks ++ st.pool) ++ (st.eraseTake t).takeBlocks) := hpool.append_right _
      _ |>.Perm ((st.pool ++ (st.entry t).blocks) ++ (st.eraseTake t).takeBlocks) := List.perm_append_comm.append_right _
      _ |>.Perm (st.pool ++ ((st.entry t).blocks ++ (st.eraseTake t).takeBlocks)) := by rw [List.append_assoc]
      _ |>.Perm (st.pool ++ st.takeBlocks) := hperm.append_left _
      _ |>.Perm (List.range 256) := h.blocks
  · by_cases hu : u = t
    · subst hu
      rw [entry_eraseTake_same]
      exact ⟨fun _ => rfl, by simp [TakeEntry.free], by simp [TakeEntry.free]⟩
    · rw [entry_eraseTake_other st hu]; exact h.entries u

@[simp] theorem entry_unbindAll (st : Store) (t : TakeNo) : st.unbindAll.entry t = { (st.entry t) with bound := 0 } := by
  simp [Store.entry, Store.unbindAll]

@[simp] theorem unbindAll_pool (st : Store) : st.unbindAll.pool = st.pool := by simp only [Store.unbindAll]
@[simp] theorem unbindAll_mem (st : Store) : st.unbindAll.mem = st.mem := by simp only [Store.unbindAll]

theorem Store.Sound.unbindAll {st : Store} (h : st.Sound) : st.unbindAll.Sound := by
  have hb : st.unbindAll.takeBlocks = st.takeBlocks := by simp only [Store.takeBlocks, entry_unbindAll]
  refine ⟨?_, ?_, fun t => ?_⟩
  · rw [hb, unbindAll_pool]; exact h.blocks
  · rw [unbindAll_pool]; exact h.sorted
  · obtain ⟨hf, ho, hc⟩ := h.entries t
    rw [entry_unbindAll]
    exact ⟨hf, ho, hc⟩

end Sys2Proof.Machine
end

section
/-! SUPPORT. `Preserves s t`: every invariant of the take store, the capture unit and the configuration values that `s` meets
is met by `t`. The relation is reflexive and transitive, so an operation preserves what its parts do. -/

namespace Sys2Proof.Machine

/-! ### The configuration values, block by block -/

/-- The scheduler's part of `ControlsInRange` (R122, R124). -/
def Scheduler.InRange (c : Scheduler) : Prop :=
  c.late ≤ 200 ∧ 200 ≤ c.rise ∧ c.rise ≤ 2000 ∧ c.drops.length ≤ Config.dropPlaces

/-- The drive unit's part of `ControlsInRange` (R147). -/
def Drive.InRange (d : Drive) : Prop :=
  4 ≤ d.slots ∧ d.slots ≤ 16 ∧ 100 ≤ d.vnom ∧ d.vnom ≤ 1000 ∧ 60 ≤ d.sagPercent ∧ d.sagPercent ≤ 95

/-- The clock's part of `ControlsInRange` (R47, R48). -/
def Clock.InRange (c : Clock) : Prop := 100 ≤ c.syncLength ∧ c.syncLength ≤ 8000 ∧ -8 ≤ c.owed ∧ c.owed ≤ 8

/-- The configuration values of the blocks, with the layers taken together. -/
structure Controls (s : State) : Prop where
  cap    : s.cap.InRange
  layers : ∀ y, (s.layer y).InRange
  sched  : s.sched.InRange
  drive  : s.drive.InRange
  clk    : s.clk.InRange

theorem controlsInRange_iff {s : State} : ControlsInRange s ↔ Controls s := by
  constructor
  · rintro ⟨hc, h0, h1, s1, s2, s3, s4, d1, d2, d3, d4, d5, d6, c1, c2, c3, c4⟩
    exact ⟨hc, fun y => by cases y <;> assumption, ⟨s1, s2, s3, s4⟩, ⟨d1, d2, d3, d4, d5, d6⟩, ⟨c1, c2, c3, c4⟩⟩
  · rintro ⟨hc, hl, ⟨s1, s2, s3, s4⟩, ⟨d1, d2, d3, d4, d5, d6⟩, ⟨c1, c2, c3, c4⟩⟩
    exact ⟨hc, hl .l0, hl .l1, s1, s2, s3, s4, d1, d2, d3, d4, d5, d6, c1, c2, c3, c4⟩

/-! ### The relation -/

/-- Every invariant of the store, the capture unit and the configuration values passes from `s` to `t`. -/
structure Preserves (s t : State) : Prop where
  memory   : MemoryCanonical s → MemoryCanonical t
  store    : StoreSound s → StoreSound t
  bindings : StoreSound s → BindingsAgree s → BindingsAgree t
  capture  : CaptureSound s → CaptureSound t
  controls : ControlsInRange s → ControlsInRange t

theorem Preserves.refl (s : State) : Preserves s s := ⟨id, id, fun _ h => h, id, id⟩

theorem Preserves.trans {s t u : State} (h : Preserves s t) (g : Preserves t u) : Preserves s u :=
  ⟨g.memory ∘ h.memory, g.store ∘ h.store, fun hs hb => g.bindings (h.store hs) (h.bindings hs hb), g.capture ∘ h.capture,
    g.controls ∘ h.controls⟩

theorem Preserves.after {s t u : State} (g : Preserves t u) (h : Preserves s t) : Preserves s u := h.trans g

theorem Preserves.foldl {α : Type} {f : State → α → State} (h : ∀ s x, Preserves s (f s x)) (xs : List α) (s : State) :
    Preserves s (xs.foldl f s) := by
  induction xs generalizing s with
  | nil => exact .refl s
  | cons x xs ih => exact (h s x).trans (ih _)

/-! ### Updates that touch none of the values the invariants speak of -/

/-- The wall timer, the links, the reset values, the capture unit's and the drive unit's records, the map, the plan, the run
controller, and of the clock all but the sync length and the owed correction. -/
theorem Preserves.inert {s : State} (pending : List Instr) (wall : WallTimer) (resetLow : Bool) (cause : ResetCause)
    (linkA linkB : LinkRec) (keys : Bank CapKey 88) (pedals : Bank CapPedal 3) (cs : ClockState) (position : Nat)
    (source : ClockSource) (track : Tracking) (lastPulse entered nextAdvance : Nat) (withheld : Bool) (map : CalMap)
    (plan : List Action) (memory : Bank (Option KeyMemory) 88) (nextSerial : Nat) (power : Power) (wakeAt : Option Nat)
    (sag : Bool) (vmeas : Nat) (driveKeys : Bank DriveKey 88) (queue : List Nat) (pulse : Option PendingPulse)
    (drivePedals : Bank PedalDrive 3) (run : RunController) :
    Preserves s { s with
      pending := pending, wall := wall, resetLow := resetLow, cause := cause, linkA := linkA, linkB := linkB
      cap := { s.cap with keys := keys, pedals := pedals }
      clk := { s.clk with
        state := cs, position := position, source := source, tracking := track, lastPulse := lastPulse
        entered := entered, nextAdvance := nextAdvance, withheld := withheld }
      map := map
      sched := { s.sched with plan := plan, memory := memory, nextSerial := nextSerial }
      drive := { s.drive with
        power := power, wakeAt := wakeAt, sag := sag, vmeas := vmeas, keys := driveKeys, queue := queue, pulse := pulse
        pedals := drivePedals }
      run := run } :=
  ⟨id, id, fun _ h => h, id, id⟩

theorem Preserves.setLink (s : State) (l : Link) (r : LinkRec) : Preserves s (s.setLink l r) := by
  cases l <;> exact .inert ..

theorem Preserves.raise (l : Link) (n : Notice) (s : State) : Preserves s (raise l n s) := .setLink ..

theorem Preserves.raiseBoth (n : Notice) (s : State) : Preserves s (raiseBoth n s) := .inert ..

theorem Preserves.setRun (r : RunController) (s : State) : Preserves s (setRun r s) := .inert ..

theorem Preserves.setDriveKey (s : State) (k : Key) (d : DriveKey) : Preserves s (s.setDriveKey k d) := .inert ..

theorem Preserves.setCapKey (s : State) (k : Key) (c : CapKey) : Preserves s (s.setCapKey k c) := .inert ..

/-! ### Updates of one block -/

/-- A layer replaced by one with its source, FREE exactly where it was, and in range where it was. -/
theorem Preserves.setLayer {s : State} (y : LayerId) {l : Layer} (hsource : l.source = (s.layer y).source)
    (hfree : l.state = .free ↔ (s.layer y).state = .free) (hrange : (s.layer y).InRange → l.InRange) :
    Preserves s (s.setLayer y l) := by
  have hsources : ∀ z, ((s.setLayer y l).layer z).source = (s.layer z).source ∧
      (((s.setLayer y l).layer z).state = .free ↔ (s.layer z).state = .free) := by
    intro z
    by_cases h : z = y
    · subst h; simp [hsource, hfree]
    · simp [layer_setLayer_other _ _ h]
  refine ⟨fun h => ?_, fun h => ?_, fun _ h => ?_, fun h => ?_, fun h => ?_⟩
  · simpa [MemoryCanonical] using h
  · simpa [storeSound_iff] using h
  · rw [bindingsAgree_iff] at h ⊢
    have h0 := (hsources .l0).1
    have h1 := (hsources .l1).1
    simp only [layer_l0, layer_l1] at h0 h1
    rw [setLayer_store, h0, h1]
    refine ⟨h.1, fun z => ?_⟩
    rw [(hsources z).1, (hsources z).2]
    exact h.2 z
  · simpa [CaptureSound] using h
  · rw [controlsInRange_iff] at h ⊢
    refine ⟨by simpa using h.cap, fun z => ?_, by simpa using h.sched, by simpa using h.drive, by simpa using h.clk⟩
    by_cases hz : z = y
    · subst hz; simpa using hrange (h.layers z)
    · rw [layer_setLayer_other _ _ hz]; exact h.layers z

/-- The configuration of the capture unit is the same in two of its states. -/
def Capture.SameConfig (c d : Capture) : Prop :=
  d.release = c.release ∧ d.repetition = c.repetition ∧ d.down = c.down ∧ d.deadband = c.deadband

theorem Capture.SameConfig.inRange {c d : Capture} (h : c.SameConfig d) (hc : c.InRange) : d.InRange := by
  obtain ⟨h1, h2, h3, h4⟩ := h
  unfold Capture.InRange
  rw [h1, h2, h3, h4]
  exact hc

/-- The store and the capture unit replaced together: what is asked of them. -/
theorem Preserves.storeAndCapture {s : State} {st : Store} {c : Capture}
    (hmem : Memory.wf s.store.mem = true → Memory.wf st.mem = true)
    (hstore : s.store.Sound → s.store.TargetOpen s.cap.target → st.Sound ∧ st.TargetOpen c.target)
    (hcounts : StoreSound s → s.store.Counts s.layer0.source s.layer1.source → st.Counts s.layer0.source s.layer1.source)
    (hcap : CaptureSound s → CaptureSound { s with store := st, cap := c }) (hconfig : s.cap.SameConfig c) :
    Preserves s { s with store := st, cap := c } where
  memory := hmem
  store h := storeSound_iff.mpr (hstore (storeSound_iff.mp h).1 (storeSound_iff.mp h).2)
  bindings h hb := bindingsAgree_iff.mpr ⟨hcounts h (bindingsAgree_iff.mp hb).1, (bindingsAgree_iff.mp hb).2⟩
  capture := hcap
  controls h := by
    obtain ⟨hc, hl, hs, hd, hk⟩ := controlsInRange_iff.mp h
    exact controlsInRange_iff.mpr ⟨hconfig.inRange hc, hl, hs, hd, hk⟩

/-- The capture unit replaced alone. -/
theorem Preserves.capture' {s : State} {c : Capture} (htarget : c.target = s.cap.target ∨ c.target = none)
    (hcap : CaptureSound s → CaptureSound { s with cap := c }) (hconfig : s.cap.SameConfig c) :
    Preserves s { s with cap := c } :=
  .storeAndCapture (st := s.store) id
    (fun h ht => ⟨h, fun t e => by
      obtain hk | hk := htarget
      · exact ht t (hk ▸ e)
      · rw [hk] at e; cases e⟩)
    (fun _ h => h) hcap hconfig

/-- The store replaced alone. -/
theorem Preserves.store' {s : State} {st : Store} (hmem : Memory.wf s.store.mem = true → Memory.wf st.mem = true)
    (hstore : s.store.Sound → s.store.TargetOpen s.cap.target → st.Sound ∧ st.TargetOpen s.cap.target)
    (hcounts : StoreSound s → s.store.Counts s.layer0.source s.layer1.source → st.Counts s.layer0.source s.layer1.source) :
    Preserves s { s with store := st } :=
  .storeAndCapture (c := s.cap) hmem hstore hcounts id ⟨rfl, rfl, rfl, rfl⟩

/-- The scheduler, the drive unit's configuration and the clock's replaced within their ranges. -/
theorem Preserves.config {s : State} {sched : Scheduler} {drive : Drive} {clk : Clock}
    (hs : s.sched.InRange → sched.InRange) (hd : s.drive.InRange → drive.InRange) (hk : s.clk.InRange → clk.InRange) :
    Preserves s { s with sched := sched, drive := drive, clk := clk } where
  memory := id
  store := id
  bindings _ := id
  capture := id
  controls h := by
    obtain ⟨hc, hl, h1, h2, h3⟩ := controlsInRange_iff.mp h
    exact controlsInRange_iff.mpr ⟨hc, hl, hs h1, hd h2, hk h3⟩

theorem Preserves.clock {s : State} {clk : Clock} (hk : s.clk.InRange → clk.InRange) : Preserves s { s with clk := clk } :=
  .config (sched := s.sched) (drive := s.drive) id id hk

theorem pushDrop_length (e : DropEntry) {l : List DropEntry} : (pushDrop e l).length ≤ Config.dropPlaces := by
  simp only [pushDrop, List.length_drop, List.length_append, List.length_singleton, Config.dropPlaces]
  omega

/-! ### The capture take written and closed -/

/-- A record appended to the capture take. -/
theorem Preserves.append {s : State} {t : TakeNo} {r : Record} {st : Store} (ht : s.cap.target = some t)
    (h : s.store.appendRecord t r = some st) : Preserves s { s with store := st } := by
  refine .store' (appendRecord_mem_wf h) (fun hs ho => ⟨hs.append (ho t ht).1 h, fun u hu => ?_⟩) (fun _ hc => ⟨fun u => ?_, fun u hu => ?_⟩)
  · have hc := appendRecord_carried h u
    rw [hc.state, hc.writer]
    exact ho u hu
  · rw [(appendRecord_carried h u).bound]; exact hc.count u
  · have hcar := appendRecord_carried h u
    rw [hcar.bound] at hu
    rw [hcar.state]; exact hc.closed u hu

/-- An entry whose origin alone is set. -/
theorem setOrigin_carried (st : Store) (t u : TakeNo) (o : Nat) :
    ((st.setOrigin t o).entry u).state = (st.entry u).state ∧ ((st.setOrigin t o).entry u).writer = (st.entry u).writer ∧
      ((st.setOrigin t o).entry u).bound = (st.entry u).bound := by
  by_cases h : u = t
  · subst h; simp [Store.setOrigin]
  · simp [Store.setOrigin, entry_setEntry_other _ _ h]

theorem Store.Sound.setOrigin {st : Store} (h : st.Sound) (t : TakeNo) (o : Nat) : (st.setOrigin t o).Sound :=
  h.setEntry t _ rfl rfl rfl

theorem Store.Counts.carried {st st' : Store} {a b : Option Source} (h : st.Counts a b)
    (he : ∀ u, (st'.entry u).bound = (st.entry u).bound ∧
      ((st.entry u).state = .closed → (st'.entry u).state = .closed)) : st'.Counts a b where
  count u := by rw [(he u).1]; exact h.count u
  closed u hu := (he u).2 (h.closed u ((he u).1 ▸ hu))

/-- The store with the capture take's origin set where none was fixed. -/
def Store.withOrigin (st : Store) (t : TakeNo) (origin : Option Nat) (position : Nat) : Store :=
  match origin with
  | some _ => st
  | none => st.setOrigin t position

theorem withOrigin_carried (st : Store) (t u : TakeNo) (o : Option Nat) (p : Nat) :
    ((st.withOrigin t o p).entry u).state = (st.entry u).state ∧ ((st.withOrigin t o p).entry u).writer = (st.entry u).writer ∧
      ((st.withOrigin t o p).entry u).bound = (st.entry u).bound := by
  cases o with
  | some o => exact ⟨rfl, rfl, rfl⟩
  | none => exact setOrigin_carried st t u p

theorem Store.Sound.withOrigin {st : Store} (h : st.Sound) (t : TakeNo) (o : Option Nat) (p : Nat) :
    (st.withOrigin t o p).Sound := by
  cases o with
  | some o => exact h
  | none => exact h.setOrigin t p

theorem withOrigin_mem (st : Store) (t : TakeNo) (o : Option Nat) (p : Nat) : (st.withOrigin t o p).mem = st.mem := by
  cases o <;> rfl

/-- The capture take closed, as one update of the store and the capture unit (R18). -/
theorem closeCapture_eq {s : State} {t : TakeNo} (time : Nat) (h : s.cap.target = some t) :
    closeCapture time s =
      { s with
        store := (s.store.withOrigin t s.cap.origin s.clk.position).closeTake t time
        cap := { s.cap with state := .idle, target := none, origin := none } } := by
  cases ho : s.cap.origin <;> simp only [closeCapture, Store.withOrigin, h, ho]

theorem closeCapture_of_no_target {s : State} (time : Nat) (h : s.cap.target = none) :
    closeCapture time s = { s with cap := { s.cap with state := .idle, target := none, origin := none } } := by
  unfold closeCapture
  rw [h]

theorem captureSound_of_idle {s : State} (hs : s.cap.state = .idle) (ht : s.cap.target = none) (ho : s.cap.origin = none) :
    CaptureSound s := ⟨by simp [hs, ht], by simp [hs], fun _ => ho⟩

theorem captureSound_of_paused {s : State} (hs : s.cap.state = .paused) (ht : s.cap.target ≠ none) : CaptureSound s :=
  ⟨by simp [hs, ht], by simp [hs], by simp [hs]⟩

theorem Preserves.closeCapture (time : Nat) (s : State) : Preserves s (closeCapture time s) := by
  cases ht : s.cap.target with
  | none =>
    rw [closeCapture_of_no_target time ht]
    exact .capture' (.inr rfl) (fun _ => captureSound_of_idle rfl rfl rfl) ⟨rfl, rfl, rfl, rfl⟩
  | some t =>
    rw [closeCapture_eq time ht]
    have hcar := fun u => withOrigin_carried s.store t u s.cap.origin s.clk.position
    refine .storeAndCapture (fun w => closeTake_mem_wf _ _ (by rwa [withOrigin_mem]))
      (fun h ho => ⟨(h.withOrigin t _ _).close ((hcar t).1.trans (ho t ht).1) time, fun u hu => nomatch hu⟩)
      (fun _ h => h.carried fun u => ?_) (fun _ => captureSound_of_idle rfl rfl rfl) ⟨rfl, rfl, rfl, rfl⟩
    by_cases hu : u = t
    · subst hu
      rw [entry_closeTake_same]
      exact ⟨(hcar u).2.2, fun _ => rfl⟩
    · rw [entry_closeTake_other _ _ hu, (hcar u).1, (hcar u).2.2]
      exact ⟨rfl, id⟩

end Sys2Proof.Machine
end

section
/-! SUPPORT. The slot arbiter's choice (R132): the first queued strike of least rank. -/

namespace Sys2Proof.Machine

theorem body_of_strikeKey {a : Action} {k : Key} (h : a.strikeKey? = some k) : ∃ v d f w, a.body = .strike k v d f w := by
  unfold Action.strikeKey? at h
  split at h
  · next v d f w hb => cases h; exact ⟨v, d, f, w, hb⟩
  · cases h

/-- What the arbiter orders strikes by: due tick, priority falling, key (R132). -/
def arbiterRank (s : State) (a : Action) : Int ×ₗ (Natᵒᵈ ×ₗ Nat) :=
  toLex (a.due, toLex (OrderDual.toDual (s.layer a.layer).latched.priority, (a.strikeKey?.map Fin.val).getD 0))

theorem arbiterRank_lt {s : State} {a b : Action} {k j : Key} (ha : a.strikeKey? = some k) (hb : b.strikeKey? = some j) :
    arbiterRank s a < arbiterRank s b ↔ a.due < b.due ∨ a.due = b.due ∧
      ((s.layer b.layer).latched.priority < (s.layer a.layer).latched.priority ∨
        (s.layer b.layer).latched.priority = (s.layer a.layer).latched.priority ∧ k < j) := by
  simp only [arbiterRank, Prod.Lex.toLex_lt_toLex, ha, hb, Option.map_some, Option.getD_some, OrderDual.toDual_lt_toDual,
    OrderDual.toDual_inj, Fin.lt_def]
  rw [eq_comm (a := (s.layer a.layer).latched.priority)]

theorem arbiterBefore_iff {s : State} {a b : Action} {k j : Key} (ha : a.strikeKey? = some k) (hb : b.strikeKey? = some j) :
    arbiterBefore s a b = true ↔ arbiterRank s a < arbiterRank s b := by
  rw [arbiterRank_lt ha hb]
  simp [arbiterBefore, ha, hb]

/-- The strikes of the plan that stand in the wait queue. -/
def State.queuedStrikes (s : State) : List Action :=
  s.sched.plan.filter fun a => a.serial ∈ s.drive.queue ∧ a.strikeKey?.isSome

theorem mem_queuedStrikes {s : State} {a : Action} :
    a ∈ s.queuedStrikes ↔ a ∈ s.sched.plan ∧ a.serial ∈ s.drive.queue ∧ a.strikeKey?.isSome = true := by
  simp [State.queuedStrikes]

/-- The arbiter's pick is the first queued strike of least rank. -/
theorem arbiterPick_eq (s : State) : arbiterPick s = s.queuedStrikes.argmin (arbiterRank s) := by
  have hfold : ∀ (l : List Action) (o : Option Action), (∀ a ∈ l, a.strikeKey?.isSome = true) →
      (∀ b ∈ o, b.strikeKey?.isSome = true) →
      l.foldl (fun best a => match best with
        | none => some a
        | some b => if arbiterBefore s a b then some a else some b) o =
      l.foldl (List.argAux fun b c => arbiterRank s b < arbiterRank s c) o := by
    intro l
    induction l with
    | nil => exact fun _ _ _ => rfl
    | cons a l ih =>
      intro o hl ho
      have ha := hl a List.mem_cons_self
      have hl' := fun b hb => hl b (List.mem_cons_of_mem _ hb)
      cases o with
      | none => exact ih (some a) hl' (by simpa using ha)
      | some b =>
        have hb := ho b rfl
        obtain ⟨k, hk⟩ := Option.isSome_iff_exists.mp ha
        obtain ⟨j, hj⟩ := Option.isSome_iff_exists.mp hb
        have hstep : (if arbiterBefore s a b = true then some a else some b) =
            List.argAux (fun b c => arbiterRank s b < arbiterRank s c) (some b) a := by
          simp only [List.argAux, arbiterBefore_iff hk hj]
        rw [List.foldl_cons, List.foldl_cons]
        dsimp only
        rw [hstep]
        refine ih _ hl' fun c hc => ?_
        simp only [List.argAux] at hc
        split at hc <;> cases hc
        · exact ha
        · exact hb
  exact hfold s.queuedStrikes none (fun a ha => (mem_queuedStrikes.mp ha).2.2) (by simp)

/-- Places in a list and in the sublist of the items that satisfy a test come in the same order. -/
theorem idxOf_le_of_filter {α : Type} [DecidableEq α] {p : α → Bool} {l : List α} {x y : α} (hx : p x = true) (hy : p y = true)
    (h : (l.filter p).idxOf x ≤ (l.filter p).idxOf y) : l.idxOf x ≤ l.idxOf y := by
  induction l with
  | nil => simp
  | cons z l ih =>
    by_cases hzx : z = x
    · subst hzx; simp
    by_cases hzy : z = y
    · subst hzy
      rw [List.filter_cons_of_pos hy, List.idxOf_cons_self, List.idxOf_cons_ne _ hzx] at h
      omega
    rw [List.idxOf_cons_ne _ hzx, List.idxOf_cons_ne _ hzy]
    by_cases hz : p z = true
    · rw [List.filter_cons_of_pos hz, List.idxOf_cons_ne _ hzx, List.idxOf_cons_ne _ hzy] at h
      have := ih (by omega)
      omega
    · rw [List.filter_cons_of_neg hz] at h
      have := ih h
      omega

theorem arbiterPick_eq_none {s : State} (h : arbiterPick s = none) :
    ∀ a ∈ s.sched.plan, ¬ (a.serial ∈ s.drive.queue ∧ a.strikeKey?.isSome = true) := by
  rw [arbiterPick_eq, List.argmin_eq_none] at h
  intro a ha hq
  have hmem := mem_queuedStrikes.mpr ⟨ha, hq⟩
  rw [h] at hmem
  cases hmem

theorem arbiterPick_mem {s : State} {a : Action} (h : arbiterPick s = some a) :
    a ∈ s.sched.plan ∧ a.serial ∈ s.drive.queue ∧ a.strikeKey?.isSome = true := by
  rw [arbiterPick_eq] at h
  exact mem_queuedStrikes.mp (List.argmin_mem h)

theorem arbiterPick_first {s : State} {a b : Action} {k j : Key} (h : arbiterPick s = some a) (hk : a.strikeKey? = some k)
    (hb : b ∈ s.sched.plan) (hq : b.serial ∈ s.drive.queue) (hj : b.strikeKey? = some j) :
    a.due < b.due ∨ a.due = b.due ∧
      ((s.layer b.layer).latched.priority < (s.layer a.layer).latched.priority ∨
        (s.layer b.layer).latched.priority = (s.layer a.layer).latched.priority ∧
          (k < j ∨ k = j ∧ s.sched.plan.idxOf a ≤ s.sched.plan.idxOf b)) := by
  obtain ⟨ha, hqa, hsa⟩ := arbiterPick_mem h
  have hbq : b ∈ s.queuedStrikes := mem_queuedStrikes.mpr ⟨hb, hq, by simp [hj]⟩
  rw [arbiterPick_eq] at h
  have hle := List.le_of_mem_argmin hbq h
  obtain hlt | heq := lt_or_eq_of_le hle
  · have hlt := (arbiterRank_lt hk hj).mp hlt
    simp only [Fin.lt_def, Fin.ext_iff] at hlt ⊢
    omega
  · have hidx := List.index_of_argmin h hbq heq.ge
    have hplan := idxOf_le_of_filter (by simp [hqa, hsa]) (by simp [hq, hj]) hidx
    have hnot := mt (arbiterRank_lt hk hj).mpr heq.not_lt
    have hnot' := mt (arbiterRank_lt hj hk).mpr heq.not_gt
    simp only [Fin.lt_def, Fin.ext_iff] at hnot hnot' ⊢
    omega

end Sys2Proof.Machine
end

section
/-! SUPPORT. The single acts of which the scheduler, the arbiter and the drive unit's answers consist, and, for each operation of
theirs, that it is a chain of such acts. A property that every act keeps is then kept by every operation. -/

namespace Sys2Proof.Machine

open Relation (ReflTransGen)

/-- What a layer's record keeps in every act: all but its demands, its chase values, and PLAYING turning to ENDED. -/
structure Layer.Onward (l m : Layer) : Prop where
  state      : m.state = l.state ∨ l.state = .playing ∧ m.state = .ended
  source     : m.source = l.source
  ring       : m.ring = l.ring
  low        : m.low = l.low
  high       : m.high = l.high
  cursor     : m.cursor = l.cursor
  cue        : m.cue = l.cue
  origin     : m.origin = l.origin
  endFetched : m.endFetched = l.endFetched
  staged     : m.staged = l.staged
  latched    : m.latched = l.latched

/-- One act: a record of the capture take or its closing, a key's or a pedal's record, a layer's demands or its end, a notice, an
entry of the drop list, an action leaving the plan or told to wait. -/
inductive Act : State → State → Prop where
  | append {s : State} {t : TakeNo} {r : Record} {st : Store} (hrec : s.cap.state = .recording) (ht : s.cap.target = some t)
      (h : s.store.appendRecord t r = some st) : Act s { s with store := st }
  | close {s : State} (time : Nat) (hrec : s.cap.state = .recording) : Act s (closeCapture time s)
  | capKey {s : State} (k : Key) (c : CapKey) (hp : c.lastPos = (s.capKey k).lastPos)
      (hr : c.releaseAt = (s.capKey k).releaseAt) : Act s (s.setCapKey k c)
  | driveKey {s : State} (k : Key) (d : DriveKey) (hp : d.lastPos = (s.driveKey k).lastPos)
      (hr : d.repetitionAt = (s.driveKey k).repetitionAt)
      (hrest : d.state = .rest → (s.driveKey k).state = .rest ∧ d.lastFire = (s.driveKey k).lastFire) :
      Act s (s.setDriveKey k d)
  | pedals {s : State} (b : Bank PedalDrive 3) : Act s { s with drive := { s.drive with pedals := b } }
  | layer {s : State} (y : LayerId) (l : Layer) (h : (s.layer y).Onward l) : Act s (s.setLayer y l)
  | notice {s : State} (n : Notice) : Act s (raiseBoth n s)
  | drop {s : State} (e : DropEntry) : Act s { s with sched := { s.sched with drops := pushDrop e s.sched.drops } }
  | remove {s : State} (n : Nat) : Act s (removeAction n s)
  | wait {s : State} {k : Key} (w : WaitReason) (a : Action) (hmem : a ∈ s.sched.plan) (hk : a.strikeKey? = some k)
      (htold : w = .slot ∨ offerTest k s = some (.wait w)) : Act s (waitStrike w a s)

/-- A chain of acts. -/
abbrev Acts : State → State → Prop := ReflTransGen Act

/-- One act of a taking: an act, a key's memory, an action inserted, a layer's END fetched, a record leaving its ring. -/
inductive Taking : State → State → Prop where
  | act {s t : State} (h : Act s t) : Taking s t
  | memory {s : State} (k : Key) (m : Option KeyMemory) : Taking s (setMemory k m s)
  | insert {s : State} (y : LayerId) (event : Nat) (due : Int) (lead : Nat) (body : ActionBody)
      (hbody : ∀ k v d f w, body ≠ .strike k v d f (some w)) : Taking s (insertAction y event due lead body s)
  | fetched {s : State} (y : LayerId) : Taking s (s.setLayer y { (s.layer y) with endFetched := true })
  | pop {s : State} (y : LayerId) : Taking s (popRing y s)

/-- A chain of takings' acts. -/
abbrev Takings : State → State → Prop := ReflTransGen Taking

theorem Acts.takings {s t : State} (h : Acts s t) : Takings s t := ReflTransGen.mono (fun _ _ g => .act g) _ _ h

theorem Acts.after {s t u : State} (g : Acts t u) (h : Act s t) : Acts s u := ReflTransGen.head h g

theorem Takings.after {s t u : State} (g : Takings t u) (h : Taking s t) : Takings s u := ReflTransGen.head h g

theorem Acts.foldl {α : Type} {f : State → α → State} (h : ∀ s x, Acts s (f s x)) (xs : List α) (s : State) :
    Acts s (xs.foldl f s) := by
  induction xs generalizing s with
  | nil => exact .refl
  | cons x xs ih => exact (h s x).trans (ih _)

theorem Takings.foldl {α : Type} {f : State → α → State} (h : ∀ s x, Takings s (f s x)) (xs : List α) (s : State) :
    Takings s (xs.foldl f s) := by
  induction xs generalizing s with
  | nil => exact .refl
  | cons x xs ih => exact (h s x).trans (ih _)

/-! ### The capture unit -/

theorem captureWrite_acts (kind target value time : Nat) (s : State) : Acts s (captureWrite kind target value time s) := by
  unfold captureWrite
  split
  · next t hrec ht =>
    split
    · next st h => exact .single (.append hrec ht h)
    · exact .tail (.single (.close time hrec)) (.notice _)
  · exact .refl

theorem captureRelease_acts (k : Key) (s : State) : Acts s (captureRelease k s) := by
  unfold captureRelease
  split
  · exact (captureWrite_acts ..).after (.capKey k _ rfl rfl)
  · exact .refl

theorem ownKey_acts (k : Key) (s : State) : Acts s (ownKey k s) := by
  unfold ownKey
  dsimp only
  split
  · exact (captureWrite_acts ..).after (.capKey k _ rfl rfl)
  · exact .single (.capKey k _ rfl rfl)

theorem disownKey_acts (k : Key) (s : State) : Acts s (disownKey k s) := .single (.capKey k _ rfl rfl)

/-! ### The drive unit -/

/-- A key's drive record replaced by one that keeps its last sample and does not return to REST. -/
theorem putDriveKey_acts {k : Key} {d : DriveKey} {s : State} (hp : d.lastPos = (s.driveKey k).lastPos)
    (hr : d.repetitionAt = (s.driveKey k).repetitionAt) (hrest : d.state ≠ .rest) : Acts s (putDriveKey k d s) := by
  have hset : Act s (s.setDriveKey k d) := .driveKey k d hp hr fun e => absurd e hrest
  unfold putDriveKey
  dsimp only
  split
  · exact (ownKey_acts ..).after hset
  · split
    · exact (disownKey_acts ..).after hset
    · exact .single hset

theorem enterLetGo_acts (k : Key) (s : State) : Acts s (enterLetGo k s) := putDriveKey_acts rfl rfl (by simp [DriveKey.lettingGo])

theorem beginSustain_acts (k : Key) (s : State) : Acts s (beginSustain k s) :=
  .single (.driveKey k _ rfl rfl fun h => ⟨h, rfl⟩)

theorem detect_acts (k : Key) (s : State) : Acts s (detect k s) := by
  unfold detect
  dsimp only
  have hput := putDriveKey_acts (k := k) (s := s)
    (d := { (s.driveKey k) with
      state := .sustain, fire := none, sustain := none
      reboundEnd := some (s.now + Config.tickMicros * (s.driveKey k).reboundGap.getD 0) }) rfl rfl (by simp)
  split
  · exact hput.trans (beginSustain_acts ..)
  · exact hput

theorem fireStrike_acts (k : Key) (y : LayerId) (e v d f : Nat) (s : State) : Acts s (fireStrike k y e v d f s) :=
  putDriveKey_acts rfl rfl (by simp [DriveKey.withHeat])

theorem depressKey_acts (k : Key) (y : LayerId) (d : Nat) (s : State) : Acts s (depressKey k y d s) :=
  ReflTransGen.trans (putDriveKey_acts (d := { (s.driveKey k) with
    state := .sustain, owner := some y, sustainDemand := some d, reboundGap := some 0, sustain := none, reboundEnd := none })
    rfl rfl (by simp)) (beginSustain_acts k _)

theorem drivePedal_acts (p : Pedal) (s : State) : Acts s (drivePedal p s) := by
  unfold drivePedal
  dsimp only
  split
  · split
    · exact .single (.pedals _)
    · exact .single (.pedals _)
    · split <;> exact .single (.pedals _)
  · exact .single (.pedals _)

theorem setDemand_acts (y : LayerId) (p : Pedal) (v : Option Nat) (s : State) : Acts s (setDemand y p v s) := by
  unfold setDemand
  split
  · exact .refl
  · exact (drivePedal_acts ..).after (.layer y _ ⟨.inl rfl, rfl, rfl, rfl, rfl, rfl, rfl, rfl, rfl, rfl, rfl⟩)

theorem dropDemands_acts (y : LayerId) (s : State) : Acts s (dropDemands y s) :=
  .foldl (fun s p => setDemand_acts y p none s) _ s

theorem endIfDone_acts (y : LayerId) (s : State) : Acts s (endIfDone y s) := by
  unfold endIfDone
  dsimp only
  split
  · next h =>
    have hdrop := (dropDemands_acts y (s.setLayer y { (s.layer y) with state := .ended })).after
      (.layer y _ ⟨.inr ⟨h.1, rfl⟩, rfl, rfl, rfl, rfl, rfl, rfl, rfl, rfl, rfl, rfl⟩)
    exact hdrop.tail (.notice _)
  · exact .refl

/-! ### Actions answered and carried out -/

theorem addDrop_acts (e : DropEntry) (s : State) : Acts s (addDrop e s) := Acts.after (.single (.notice _)) (.drop e)

theorem leavePlan_acts (a : Action) (s : State) : Acts s (leavePlan a s) :=
  (endIfDone_acts ..).after (.remove _)

theorem dropStrike_acts (r : DropReason) (a : Action) (s : State) : Acts s (dropStrike r a s) := by
  unfold dropStrike
  split
  · exact (addDrop_acts ..).trans (leavePlan_acts ..)
  · exact .refl

theorem takeStrike_acts (a : Action) (s : State) : Acts s (takeStrike a s) := by
  unfold takeStrike
  split
  · exact (fireStrike_acts ..).trans (leavePlan_acts ..)
  · exact .refl

/-- An answer carried out that is none to wait, SLOT, or what the offer test says. -/
theorem applyAnswer_acts {ans : OfferAnswer} {a : Action} {k : Key} {s : State} (hmem : a ∈ s.sched.plan)
    (hk : a.strikeKey? = some k) (htold : ∀ w, ans = .wait w → w = .slot ∨ offerTest k s = some (.wait w)) :
    Acts s (applyAnswer ans a s) := by
  cases ans with
  | taken => exact takeStrike_acts ..
  | wait w => exact .single (.wait w a hmem hk (htold w rfl))
  | refused r => exact dropStrike_acts ..

theorem offerStrike_acts {a : Action} {k : Key} {s : State} (hmem : a ∈ s.sched.plan) (hk : a.strikeKey? = some k) :
    Acts s (offerStrike a k s) := by
  unfold offerStrike
  split
  · exact dropStrike_acts ..
  · refine applyAnswer_acts hmem hk fun w hw => ?_
    unfold offerAnswer at hw
    split at hw
    · next ans htest => rw [htest, hw]; exact .inr rfl
    · split at hw
      · cases hw
      · cases hw; exact .inl rfl

theorem arbiterLoop_acts (fuel : Nat) (s : State) : Acts s (arbiterLoop fuel s) := by
  induction fuel generalizing s with
  | zero => exact .refl
  | succ n ih =>
    unfold arbiterLoop
    split
    · split
      · exact .refl
      · next a hpick =>
        split
        · exact .refl
        · next k hk =>
          refine (applyAnswer_acts (arbiterPick_mem hpick).1 hk fun w hw => ?_).trans (ih _)
          cases htest : offerTest k s with
          | none => rw [htest] at hw; cases hw
          | some ans => rw [htest] at hw; exact .inr (congrArg some hw)
    · exact .refl

theorem arbiter_acts (s : State) : Acts s (arbiter s) := arbiterLoop_acts _ s

theorem handRelease_acts (k : Key) (y : LayerId) (s : State) : Acts s (handRelease k y s) := by
  obtain ⟨-, h⟩ | ⟨-, -, h⟩ := handRelease_cases k y s <;> rw [h]
  split
  · exact (enterLetGo_acts ..).trans (arbiter_acts _)
  · exact enterLetGo_acts ..

theorem handDepress_acts (k : Key) (y : LayerId) (d : Nat) (s : State) : Acts s (handDepress k y d s) := by
  unfold handDepress
  split
  · exact depressKey_acts ..
  · exact .refl

theorem carryOut_acts {a : Action} {s : State} (hmem : a ∈ s.sched.plan) : Acts s (carryOut a s) := by
  cases h : a.body with
  | strike k v d f w =>
    obtain ⟨-, -, hc⟩ | ⟨-, hc⟩ := carryOut_strike (s := s) h <;> rw [hc]
    · exact dropStrike_acts ..
    · exact offerStrike_acts hmem (by rw [Action.strikeKey?, h])
  | depress k d => rw [carryOut_depress h]; exact (handDepress_acts ..).trans (leavePlan_acts ..)
  | release k auto => rw [carryOut_release h]; exact (handRelease_acts ..).trans (leavePlan_acts ..)
  | pedal p v =>
    rw [carryOut_pedal h]
    refine ReflTransGen.trans ?_ (leavePlan_acts ..)
    split
    · exact setDemand_acts ..
    · exact .refl

/-! ### Processing, reports and the lateness judged -/

theorem processLoop_acts (fuel : Nat) (again todo : List Nat) (s : State) : Acts s (processLoop fuel again todo s) := by
  induction fuel generalizing again todo s with
  | zero => rw [processLoop_fuel_zero]
  | succ fuel ih =>
    cases todo with
    | nil => exact .refl
    | cons n todo =>
      unfold processLoop
      split
      · exact ih ..
      · next a ha =>
        have hact := carryOut_acts (List.mem_of_find?_eq_some ha)
        split
        · dsimp only
          split <;> exact hact.trans (ih ..)
        · exact ih ..

theorem processDue_acts (named : Key → Bool) (s : State) : Acts s (processDue named s) := by
  unfold processDue
  split
  · exact processLoop_acts ..
  · exact .refl

theorem respond_acts (s t : State) : Acts t (respond s t) := by
  unfold respond
  dsimp only
  split
  · exact (arbiter_acts t).trans (processDue_acts ..)
  · exact arbiter_acts t

theorem judgeLateness_acts (s : State) : Acts s (judgeLateness s) := by
  refine .foldl (fun s n => ?_) _ s
  split
  · split
    · split
      · exact dropStrike_acts ..
      · exact .refl
    · exact .refl
  · exact .refl

theorem letGoKeys_acts (f : DriveKey → Bool) (s : State) : Acts s (letGoKeys f s) := by
  refine .foldl (fun s k => ?_) _ s
  split
  · exact enterLetGo_acts ..
  · exact .refl

theorem letGoReported_acts (f : DriveKey → Bool) (s : State) : Acts s (letGoReported f s) :=
  (letGoKeys_acts f s).trans (respond_acts ..)

/-! ### Takings -/

theorem insertRelease_takings (y : LayerId) (k : Key) (e : Nat) (auto : Option AutoFlag) (s : State) :
    Takings s (insertRelease y k e auto s) := by
  have hinsert : Taking s (insertAction y e e 0 (.release k auto) s) := .insert _ _ _ _ _ (by simp)
  unfold insertRelease
  dsimp only
  split
  · split
    · exact Takings.after (.single (.memory ..)) hinsert
    · exact .single hinsert
  · exact .single hinsert

theorem mergeOut_takings (k : Key) (s : State) (a : Action) : Takings s (mergeOut k s a) := by
  unfold mergeOut
  dsimp only
  refine ReflTransGen.trans ?_ (dropStrike_acts ..).takings
  split
  · split
    · exact .single (.memory ..)
    · exact .refl
  · exact .refl

theorem autoRelease_takings (k : Key) (due : Int) (s : State) : Takings s (autoRelease k due s) := by
  unfold autoRelease
  split
  · exact insertRelease_takings ..
  · exact .refl

theorem insertStrike_takings (y : LayerId) (k : Key) (e v rm : Nat) (sv : StrikeValues) (s : State) :
    Takings s (insertStrike y k e v rm sv s) := by
  unfold insertStrike
  dsimp only
  split
  · have hmerge := Takings.foldl (fun s a => mergeOut_takings k s a) (s.sched.plan.filter (conflicts y k e rm)) s
    exact (hmerge.trans (autoRelease_takings ..)).trans
      (Takings.after (.single (.memory ..)) (.insert _ _ _ _ _ (by simp)))
  · exact (addDrop_acts ..).takings

theorem handKeyRecord_takings (y : LayerId) (r : Record) (k : Key) (s : State) : Takings s (handKeyRecord y r k s) := by
  unfold handKeyRecord
  dsimp only
  split
  · exact (addDrop_acts ..).takings
  · split
    · split
      · exact insertStrike_takings ..
      · exact (addDrop_acts ..).takings
    · split
      · split
        · exact Takings.after (.single (.memory ..)) (.insert _ _ _ _ _ (by simp))
        · exact (addDrop_acts ..).takings
      · exact insertRelease_takings ..

theorem handPedalRecord_takings (y : LayerId) (r : Record) (p : Pedal) (s : State) :
    Takings s (handPedalRecord y r p s) := by
  unfold handPedalRecord
  dsimp only
  split
  · exact (addDrop_acts ..).takings
  · split
    · exact .single (.insert _ _ _ _ _ (by simp))
    · exact (addDrop_acts ..).takings

theorem handEnd_takings (y : LayerId) (r : Record) (s : State) : Takings s (handEnd y r s) :=
  (Takings.foldl (fun s k => insertRelease_takings y k _ _ s) _ _).after (.fetched y)

theorem handWindow_takings (y : LayerId) (r : Record) (s : State) : Takings s (handWindow y r s) := by
  unfold handWindow
  dsimp only
  split
  · exact .refl
  · split
    · exact .refl
    · split
      · exact handKeyRecord_takings ..
      · exact (addDrop_acts ..).takings

theorem handRecord_takings (y : LayerId) (r : Record) (s : State) : Takings s (handRecord y r s) := by
  unfold handRecord
  split
  · exact handEnd_takings ..
  · split
    · split
      · split
        · exact handPedalRecord_takings ..
        · exact .refl
      · exact .refl
    · split
      · exact handWindow_takings ..
      · exact .refl

theorem processInserted_acts (s t : State) : Acts t (processInserted s t) := by
  unfold processInserted
  split
  · exact processDue_acts ..
  · exact .refl

theorem takeRecord_takings (y : LayerId) (r : Record) (s : State) : Takings s (takeRecord y r s) :=
  Takings.after ((handRecord_takings ..).trans ((processInserted_acts ..).takings.trans (endIfDone_acts ..).takings)) (.pop y)

theorem takeLoop_takings (fuel : Nat) (s : State) : Takings s (takeLoop fuel s) := by
  induction fuel generalizing s with
  | zero => exact .refl
  | succ n ih =>
    unfold takeLoop
    split
    · exact .refl
    · exact (takeRecord_takings ..).trans (ih _)

theorem takeAll_takings (s : State) : Takings s (takeAll s) := takeLoop_takings _ s

end Sys2Proof.Machine
end

section
/-! SUPPORT. Every operation of the part preserves the invariants of the take store, the capture unit and the configuration values:
the acts and the takings first, then the blocks' own operations in the model's order. -/

namespace Sys2Proof.Machine

open Relation (ReflTransGen)

/-! ### Acts and takings -/

theorem Layer.Onward.free_iff {l m : Layer} (h : l.Onward m) : m.state = .free ↔ l.state = .free := by
  obtain hs | ⟨hl, hm⟩ := h.state
  · rw [hs]
  · simp [hl, hm]

theorem Layer.Onward.inRange {l m : Layer} (h : l.Onward m) (hl : l.InRange) : m.InRange := by
  unfold Layer.InRange
  rw [h.low, h.high, h.ring, h.latched, h.staged]
  exact hl

theorem Act.preserves {s t : State} (h : Act s t) : Preserves s t := by
  cases h with
  | append hrec ht h => exact .append ht h
  | close time hrec => exact .closeCapture ..
  | capKey k c hp hr => exact .inert ..
  | driveKey k d hp hr hrest => exact .inert ..
  | pedals b => exact .inert ..
  | layer y l h => exact .setLayer y h.source h.free_iff h.inRange
  | notice n => exact .inert ..
  | drop e =>
    exact .config (drive := s.drive) (clk := s.clk) (fun ⟨h1, h2, h3, _⟩ => ⟨h1, h2, h3, pushDrop_length e⟩) id id
  | remove n => exact .inert ..
  | wait w a hmem hk htold => exact .inert ..

theorem Acts.preserves {s t : State} (h : Acts s t) : Preserves s t := by
  induction h with
  | refl => exact .refl s
  | tail _ h ih => exact ih.trans h.preserves

theorem records_length (st : Store) (t : TakeNo) (i n : Nat) : (st.records t i n).length = n := by
  induction n generalizing i with
  | zero => rfl
  | succ n ih => simp [Store.records, ih]

theorem refill_preserves (y : LayerId) (s : State) : Preserves s (refill y s) := by
  unfold refill
  dsimp only
  split
  · split
    · refine .setLayer y rfl .rfl fun ⟨h1, h2, h3, h4, h5, h6, h7⟩ => ⟨h1, h2, h3, h4, h5, ?_, h7⟩
      simp only [List.length_append, records_length, Config.ringPlaces] at *
      omega
    · exact .refl s
  · exact .refl s

theorem popRing_preserves (y : LayerId) (s : State) : Preserves s (popRing y s) := by
  have hpop : ∀ l : Layer, l.source = (s.layer y).source → l.state = (s.layer y).state → l.low = (s.layer y).low →
      l.high = (s.layer y).high → l.ring = (s.layer y).ring.tail → l.latched = (s.layer y).latched →
      l.staged = (s.layer y).staged → Preserves s (s.setLayer y l) := by
    intro l hsource hstate hlow hhigh hring hlatched hstaged
    refine .setLayer y hsource (by rw [hstate]) fun h => ?_
    obtain ⟨h1, h2, h3, h4, h5, h6, h7⟩ := h
    unfold Layer.InRange
    rw [hlow, hhigh, hring, hlatched, hstaged]
    refine ⟨h1, h2, h3, h4, h5, ?_, h7⟩
    rw [List.length_tail]
    omega
  unfold popRing
  dsimp only
  split
  · split
    · exact (Preserves.raise ..).after (hpop _ rfl rfl rfl rfl rfl rfl rfl)
    · exact hpop _ rfl rfl rfl rfl rfl rfl rfl
  · exact (refill_preserves ..).after (hpop _ rfl rfl rfl rfl rfl rfl rfl)

theorem Taking.preserves {s t : State} (h : Taking s t) : Preserves s t := by
  cases h with
  | act h => exact h.preserves
  | memory k m => exact .inert ..
  | insert y event due lead body hbody => exact .inert ..
  | fetched y => exact .setLayer y rfl .rfl id
  | pop y => exact popRing_preserves y s

theorem Takings.preserves {s t : State} (h : Takings s t) : Preserves s t := by
  induction h with
  | refl => exact .refl s
  | tail _ h ih => exact ih.trans h.preserves

theorem takeAll_preserves (s : State) : Preserves s (takeAll s) := (takeAll_takings s).preserves
theorem processDue_preserves (named : Key → Bool) (s : State) : Preserves s (processDue named s) :=
  (processDue_acts named s).preserves
theorem respond_preserves (s t : State) : Preserves t (respond s t) := (respond_acts s t).preserves
theorem captureWrite_preserves (kind target value time : Nat) (s : State) :
    Preserves s (captureWrite kind target value time s) := (captureWrite_acts ..).preserves
theorem captureRelease_preserves (k : Key) (s : State) : Preserves s (captureRelease k s) := (captureRelease_acts ..).preserves
theorem setDemand_preserves (y : LayerId) (p : Pedal) (v : Option Nat) (s : State) : Preserves s (setDemand y p v s) :=
  (setDemand_acts ..).preserves
theorem dropDemands_preserves (y : LayerId) (s : State) : Preserves s (dropDemands y s) := (dropDemands_acts ..).preserves
theorem endIfDone_preserves (y : LayerId) (s : State) : Preserves s (endIfDone y s) := (endIfDone_acts ..).preserves

/-! ### The capture unit -/

theorem stopCapture_preserves (s : State) : Preserves s (stopCapture s) := .closeCapture ..

theorem captureGate1_preserves (k : Key) (s : State) : Preserves s (captureGate1 k s) := by
  unfold captureGate1
  dsimp only
  split <;> exact .inert ..

theorem captureGate2_preserves (k : Key) (s : State) : Preserves s (captureGate2 k s) := by
  unfold captureGate2
  dsimp only
  split
  · exact (Preserves.setCapKey ..).trans (captureWrite_preserves ..)
  · exact .refl s

theorem captureWindowEnd_preserves (k : Key) (s : State) : Preserves s (captureWindowEnd k s) := by
  unfold captureWindowEnd
  dsimp only
  split
  · exact .setCapKey ..
  · split
    · split
      · split
        · exact .setCapKey ..
        · exact (Preserves.setCapKey ..).trans (captureWrite_preserves ..)
      · split
        · exact .setCapKey ..
        · split
          · exact (Preserves.setCapKey ..).trans (captureRelease_preserves ..)
          · exact .setCapKey ..
    · exact .setCapKey ..

theorem captureSample_preserves (k : Key) (p : KeyPos) (s : State) : Preserves s (captureSample k p s) := by
  unfold captureSample
  dsimp only
  split
  · exact .setCapKey ..
  · split
    · exact .setCapKey ..
    · split
      · exact (Preserves.setCapKey ..).trans (captureRelease_preserves ..)
      · exact .setCapKey ..
    · split
      · exact (Preserves.setCapKey ..).trans ((Preserves.setCapKey ..).trans (captureRelease_preserves ..))
      · exact (Preserves.setCapKey ..).trans (.setCapKey ..)

theorem framePedal_preserves (r : PedalReadings) (time : Nat) (s : State) (p : Pedal) :
    Preserves s (framePedal r time s p) := by
  unfold framePedal
  dsimp only
  split
  · split
    · exact .inert ..
    · split
      · exact (Preserves.inert ..).trans (captureWrite_preserves ..)
      · exact .inert ..
  · exact .refl s

theorem frameSample_preserves (r : PedalReadings) (b : Nat) (s : State) : Preserves s (frameSample r b s) :=
  .foldl (fun s p => framePedal_preserves r _ s p) _ s

theorem fixOrigin_preserves (b : Nat) (s : State) : Preserves s (fixOrigin b s) := by
  unfold fixOrigin
  split
  · exact .refl s
  · next t ht =>
    have hcar := fun u => setOrigin_carried s.store t u b
    refine .storeAndCapture id (fun h ho => ⟨h.setOrigin t b, fun u hu => ?_⟩)
      (fun _ h => h.carried fun u => ⟨(hcar u).2.2, fun e => (hcar u).1.trans e⟩)
      (fun _ => ⟨?_, fun _ => rfl, fun e => nomatch e⟩) ⟨rfl, rfl, rfl, rfl⟩
    · rw [(hcar u).1, (hcar u).2.1]
      exact ho u hu
    · simp [Capture.markFirst, ht]

theorem captureFrame_preserves (r : PedalReadings) (b : Nat) (s : State) : Preserves s (captureFrame r b s) := by
  unfold captureFrame
  dsimp only
  split
  · exact (fixOrigin_preserves b s).trans (frameSample_preserves ..)
  · exact frameSample_preserves ..

theorem captureReenter_preserves (s : State) : Preserves s (captureReenter s) := by
  unfold captureReenter
  dsimp only
  split
  · next hp =>
    obtain ⟨hstate, horigin⟩ := hp
    have henter : Preserves s { s with cap := { s.cap.markFirst with state := .recording } } :=
      .capture' (.inl rfl) (fun h => ⟨by simpa [Capture.markFirst, hstate] using h.1,
        fun _ => Option.isSome_iff_ne_none.mpr horigin, fun e => nomatch e⟩) ⟨rfl, rfl, rfl, rfl⟩
    refine henter.trans (.foldl (fun s k => ?_) _ _)
    split
    · exact captureRelease_preserves k s
    · exact .refl s
  · exact .refl s

theorem capturePause_preserves (s : State) : Preserves s (capturePause s) := by
  unfold capturePause
  split
  · next hrec =>
    exact .capture' (.inl rfl) (fun h => captureSound_of_paused rfl (by simp [h.1, hrec])) ⟨rfl, rfl, rfl, rfl⟩
  · exact .refl s

theorem Store.Counts.open {st st' : Store} {w : Writer} {t : TakeNo} {a b : Option Source} (h : st.Counts a b)
    (ho : st.openTake w = some (t, st')) : st'.Counts a b := by
  obtain ⟨⟨b, hentry⟩, hother⟩ := openTake_entry ho
  have hzero : (st.entry t).bound = 0 := by
    by_contra hne
    have hfree := freeEntry_eq_some (openTake_eq_some ho).1
    have := h.closed t hne
    rw [hfree] at this
    cases this
  refine ⟨fun u => ?_, fun u hu => ?_⟩ <;> by_cases hut : u = t
  · subst hut; rw [hentry, ← h.count u, hzero]
  · rw [hother u hut]; exact h.count u
  · subst hut; rw [hentry] at hu; exact absurd rfl hu
  · rw [hother u hut] at hu ⊢; exact h.closed u hu

theorem openTake_mem {st st' : Store} {w : Writer} {t : TakeNo} (h : st.openTake w = some (t, st')) : st'.mem = st.mem := by
  obtain ⟨-, b, pool, -, rfl⟩ := openTake_eq_some h; rfl

/-- An open take stays the capture unit's where another entry is opened. -/
theorem Store.TargetOpen.open {st st' : Store} {w : Writer} {t : TakeNo} {target : Option TakeNo}
    (h : st.TargetOpen target) (ho : st.openTake w = some (t, st')) : st'.TargetOpen target := by
  intro u hu
  have hne : u ≠ t := by
    rintro rfl
    have := (h u hu).1
    rw [freeEntry_eq_some (openTake_eq_some ho).1] at this
    cases this
  rw [(openTake_entry ho).2 u hne]
  exact h u hu

theorem answerCaptureStart_preserves (r : PedalReadings) (s : State) : Preserves s (answerCaptureStart r s).state := by
  unfold answerCaptureStart
  split
  · exact .refl s
  · split
    · exact .refl s
    · next t st ho =>
      dsimp only
      obtain ⟨⟨b, hentry⟩, -⟩ := openTake_entry ho
      have hstart : Preserves s { s with
          store := st
          cap := { s.cap with
            state := .paused, target := some t, origin := none
            keys := bankMap (fun _ c => { c with held := false }) s.cap.keys } } := by
        refine .storeAndCapture (fun w => by rwa [openTake_mem ho]) (fun h _ => ⟨h.open ho, fun u hu => ?_⟩)
          (fun _ h => h.open ho) (fun _ => captureSound_of_paused rfl (by simp)) ⟨rfl, rfl, rfl, rfl⟩
        obtain rfl : t = u := Option.some.inj hu
        rw [hentry]
        exact ⟨rfl, rfl⟩
      split
      · exact hstart.trans (captureFrame_preserves ..)
      · exact hstart

theorem answerCaptureStop_preserves (s : State) : Preserves s (answerCaptureStop s).state := by
  unfold answerCaptureStop
  split
  · exact .refl s
  · exact stopCapture_preserves s
  · exact stopCapture_preserves s

theorem clampNat_bounds {lo hi : Nat} (h : lo ≤ hi) (x : Nat) : lo ≤ clampNat lo hi x ∧ clampNat lo hi x ≤ hi := by
  unfold clampNat
  split
  · omega
  · split <;> omega

theorem clampInt_bounds {lo hi : Int} (h : lo ≤ hi) (x : Int) : lo ≤ clampInt lo hi x ∧ clampInt lo hi x ≤ hi := by
  unfold clampInt
  split
  · omega
  · split <;> omega

theorem answerCaptureSet_preserves (r p d : Word16) (db : Byte) (s : State) : Preserves s (answerCaptureSet r p d db s).state := by
  unfold answerCaptureSet
  dsimp only
  split
  · next hgood =>
    simp only [thresholdsGood, Bool.and_eq_true, decide_eq_true_eq] at hgood
    obtain ⟨⟨⟨⟨⟨⟨⟨h1, h2⟩, h3⟩, h4⟩, h5⟩, h6⟩, h7⟩, h8⟩ := hgood
    obtain ⟨hlo, hhi⟩ := clampNat_bounds (lo := 1) (hi := 32) (by decide) db.toNat
    refine ⟨id, id, fun _ => id, id, fun h => ?_⟩
    obtain ⟨-, hl, hs, hdr, hk⟩ := controlsInRange_iff.mp h
    exact controlsInRange_iff.mpr ⟨⟨h1, h2, h3, h4, h5, h6, h7, h8, hlo, hhi⟩, hl, hs, hdr, hk⟩
  · exact .refl s

theorem softResetCapture_preserves (s : State) : Preserves s (softResetCapture s) := by
  unfold softResetCapture
  dsimp only
  have hstop : Preserves s (if s.cap.state = .idle then s else stopCapture s) := by
    split
    · exact .refl s
    · exact stopCapture_preserves s
  exact hstop.trans (.capture' (.inr rfl) (fun _ => captureSound_of_idle rfl rfl rfl) ⟨rfl, rfl, rfl, rfl⟩)

/-! ### The take store's requests -/

theorem answerTakeOpen_preserves (l : Link) (s : State) : Preserves s (answerTakeOpen l s).state := by
  unfold answerTakeOpen
  split
  · exact .refl s
  · next t st ho =>
    exact .store' (fun w => by rwa [openTake_mem ho]) (fun h hopen => ⟨h.open ho, hopen.open ho⟩) fun _ h => h.open ho

/-- A link's own OPEN take, which is no capture take. -/
theorem writable_ok {st : Store} {take : Byte} {l : Link} {t : TakeNo} (h : st.writable take l = .ok t) :
    takeOf take = some t ∧ (st.entry t).state = .opened ∧ (st.entry t).writer = some (.link l) := by
  unfold Store.writable at h
  split at h
  · cases h
  · next u hu =>
    split at h
    · cases h
    · cases h
    · next hstate =>
      split at h
      · next hw => cases h; exact ⟨hu, hstate, hw⟩
      · cases h

/-- What a link's records leave of the entries: states, writers, counts and origins, and every other entry whole. -/
structure AppendedMany (st st' : Store) (t : TakeNo) : Prop where
  carried : ∀ u, (st.entry u).Carried (st'.entry u)
  other   : ∀ u, u ≠ t → st'.entry u = st.entry u
  memory  : Memory.wf st.mem = true → Memory.wf st'.mem = true
  sound   : st.Sound → (st.entry t).state = .opened → st'.Sound

theorem appendAll_many (t : TakeNo) (rs : List Record) (n : Nat) (st : Store) :
    AppendedMany st (Store.appendAll t rs n st).2 t := by
  have hrefl : ∀ st : Store, AppendedMany st st t := fun st =>
    ⟨fun _ => ⟨rfl, rfl, rfl, rfl⟩, fun _ _ => rfl, id, fun h _ => h⟩
  induction rs generalizing n st with
  | nil => exact hrefl st
  | cons r rs ih =>
    unfold Store.appendAll
    split
    · exact hrefl st
    · split
      · exact hrefl st
      · split
        · exact hrefl st
        · next st' ha =>
          have hmany := ih (n + 1) st'
          have hcar := appendRecord_carried ha
          refine ⟨fun u => ?_, fun u hu => ?_, fun w => hmany.memory (appendRecord_mem_wf ha w), fun h ho => ?_⟩
          · have h1 := hcar u
            have h2 := hmany.carried u
            exact ⟨h2.state.trans h1.state, h2.writer.trans h1.writer, h2.bound.trans h1.bound, h2.origin.trans h1.origin⟩
          · rw [hmany.other u hu, appendRecord_entry_other ha hu]
          · exact hmany.sound (h.append ho ha) ((hcar t).state.trans ho)

theorem answerAppend_preserves (l : Link) (take : Byte) (rs : List Record) (s : State) :
    Preserves s (answerAppend l take rs s).state := by
  unfold answerAppend
  split
  · exact .refl s
  · next t hw =>
    obtain ⟨-, hopen, -⟩ := writable_ok hw
    have hmany := appendAll_many t rs 0 s.store
    refine .store' hmany.memory (fun h ho => ⟨hmany.sound h hopen, fun u hu => ?_⟩) (fun _ h => h.carried fun u => ?_)
    · rw [(hmany.carried u).state, (hmany.carried u).writer]; exact ho u hu
    · exact ⟨(hmany.carried u).bound, fun e => (hmany.carried u).state.trans e⟩

theorem answerClose_preserves (l : Link) (take : Byte) (e : Word32) (s : State) : Preserves s (answerClose l take e s).state := by
  unfold answerClose
  split
  · exact .refl s
  · split
    · exact .refl s
    · next t hw =>
      obtain ⟨-, hopen, hwriter⟩ := writable_ok hw
      refine .store' (closeTake_mem_wf t _) (fun h ho => ⟨h.close hopen _, fun u hu => ?_⟩) (fun _ h => h.carried fun u => ?_)
      · have hne : u ≠ t := by
          rintro rfl
          have := (ho u hu).2
          rw [hwriter] at this
          cases this
        rw [entry_closeTake_other _ _ hne]
        exact ho u hu
      · by_cases hu : u = t
        · subst hu; rw [entry_closeTake_same]; exact ⟨rfl, fun _ => rfl⟩
        · rw [entry_closeTake_other _ _ hu]; exact ⟨rfl, id⟩

theorem answerRead_state (take : Byte) (start : Word32) (count : Byte) (s : State) :
    (answerRead take start count s).state = s := by
  unfold answerRead
  dsimp only
  repeat' split
  all_goals rfl

theorem answerInfo_state (take : Byte) (s : State) : (answerInfo take s).state = s := by
  unfold answerInfo
  split <;> rfl

theorem answerErase_preserves (take : Byte) (s : State) : Preserves s (answerErase take s).state := by
  unfold answerErase
  split
  · exact .refl s
  · next t ht =>
    dsimp only
    split
    · exact .refl s
    · exact .refl s
    · next hclosed =>
      split
      · exact .refl s
      · next hbound =>
        have hzero : (s.store.entry t).bound = 0 := not_not.mp hbound
        refine .store' id (fun h ho => ⟨h.erase t, fun u hu => ?_⟩) (fun _ h => ⟨fun u => ?_, fun u hu => ?_⟩)
        · have hne : u ≠ t := by
            rintro rfl
            have := (ho u hu).1
            rw [hclosed] at this
            cases this
          rw [entry_eraseTake_other _ hne]
          exact ho u hu
        · by_cases hut : u = t
          · subst hut
            rw [entry_eraseTake_same, ← h.count u, hzero]
            rfl
          · rw [entry_eraseTake_other _ hut]; exact h.count u
        · by_cases hut : u = t
          · subst hut
            rw [entry_eraseTake_same] at hu
            exact absurd rfl hu
          · rw [entry_eraseTake_other _ hut] at hu ⊢; exact h.closed u hu

end Sys2Proof.Machine
end

section
/-! SUPPORT. The layers', the drive unit's, the clock's, the run controller's and the links' operations preserve the invariants, and
so does every command. -/

namespace Sys2Proof.Machine

/-! ### The layers -/

/-- A layer's own fields replaced, its marks, settings and source kept, with a ring in its bound. -/
theorem Preserves.layerState {s : State} (y : LayerId) {l : Layer} (hsource : l.source = (s.layer y).source)
    (hfree : l.state = .free ↔ (s.layer y).state = .free) (hlow : l.low = (s.layer y).low) (hhigh : l.high = (s.layer y).high)
    (hlatched : l.latched = (s.layer y).latched) (hstaged : l.staged = (s.layer y).staged)
    (hring : (s.layer y).ring.length ≤ Config.ringPlaces → l.ring.length ≤ Config.ringPlaces) :
    Preserves s (s.setLayer y l) := by
  refine .setLayer y hsource hfree fun ⟨h1, h2, h3, h4, h5, h6, h7⟩ => ?_
  unfold Layer.InRange
  rw [hlow, hhigh, hlatched, hstaged]
  exact ⟨h1, h2, h3, h4, h5, hring h6, h7⟩

theorem joinRing_preserves {y : LayerId} {s : State} (link : Link) (r : Record)
    (hroom : (s.layer y).ring.length < Config.ringPlaces) : Preserves s (joinRing y link r s) := by
  have hring : (s.layer y).ring.length ≤ Config.ringPlaces → ((s.layer y).ring ++ [r]).length ≤ Config.ringPlaces := by
    simp only [List.length_append, List.length_singleton]
    omega
  unfold joinRing
  dsimp only
  split
  · exact (Preserves.raise ..).after (.layerState y rfl .rfl rfl rfl rfl rfl hring)
  · exact .layerState y rfl .rfl rfl rfl rfl rfl hring

theorem feedAll_preserves (y : LayerId) (link : Link) (rs : List Record) (n : Nat) (s : State) :
    Preserves s (feedAll y link rs n s).2 := by
  induction rs generalizing n s with
  | nil => exact .refl s
  | cons r rs ih =>
    unfold feedAll
    dsimp only
    split
    · exact .refl s
    · split
      · exact .refl s
      · split
        · exact .refl s
        · split
          · exact .refl s
          · next hroom => exact (ih _ _).after (joinRing_preserves link r (by omega))

theorem latch_preserves (y : LayerId) (s : State) : Preserves s (latch y s) := by
  unfold latch
  split
  · exact .refl s
  · next st hst =>
    have hset : Preserves s (s.setLayer y { (s.layer y) with latched := st, staged := none }) :=
      .setLayer y rfl .rfl fun ⟨h1, h2, h3, h4, h5, h6, _, h8⟩ => ⟨h1, h2, h3, h4, h5, h6, h8 st hst, fun _ e => nomatch e⟩
    refine (Preserves.foldl (fun s p => ?_) _ _).after hset
    split
    · exact .refl s
    · exact setDemand_preserves ..

theorem enterPlaying_preserves (y : LayerId) (s : State) : Preserves s (enterPlaying y s) := by
  unfold enterPlaying
  dsimp only
  split
  · next hcued _ =>
    split
    · have hset : Preserves s (s.setLayer y { (s.layer y) with state := .playing, chase := Vector.replicate 3 none }) :=
        .layerState y rfl (by simp [hcued]) rfl rfl rfl rfl id
      refine ((Preserves.foldl (fun s p => ?_) _ _).trans (endIfDone_preserves ..)).after hset
      split
      · split
        · exact setDemand_preserves ..
        · exact .refl s
      · exact .refl s
    · exact .refl s
  · exact .refl s

theorem stopLayer_preserves (y : LayerId) (s : State) : Preserves s (stopLayer y s) := by
  unfold stopLayer
  dsimp only
  split
  · next hstate =>
    have hfree : (s.layer y).state ≠ .free := by rintro e; simp [e] at hstate
    split
    · exact (dropDemands_preserves ..).after (.layerState y rfl (by simp [hfree]) rfl rfl rfl rfl (by simp))
    · exact (dropDemands_preserves ..).after (.layerState y rfl (by simp [hfree]) rfl rfl rfl rfl id)
  · exact .refl s

theorem cueTake_preserves {y : LayerId} {s : State} (t : TakeNo) (c o : Nat) (h : (s.layer y).state ≠ .free) :
    Preserves s (cueTake y t c o s) :=
  (refill_preserves ..).after (.layerState y rfl (by simp [h]) rfl rfl rfl rfl (by simp))

theorem cueStream_preserves {y : LayerId} {s : State} (o : Nat) (h : (s.layer y).state ≠ .free) :
    Preserves s (cueStream y o s) := by
  unfold cueStream
  dsimp only
  split
  · exact .layerState y rfl (by simp [h]) rfl rfl rfl rfl (by simp)
  · exact .layerState y rfl (by simp [h]) rfl rfl rfl rfl id

/-! ### Binding and freeing a layer (R33) -/

/-- A bound-layer count changed leaves all else of the directory. -/
theorem entry_setBound (st : Store) (t u : TakeNo) (f : Nat → Nat) :
    (st.setBound t f).entry u = if u = t then { (st.entry t) with bound := f (st.entry t).bound } else st.entry u := by
  by_cases h : u = t
  · subst h; simp [Store.setBound]
  · simp [Store.setBound, entry_setEntry_other _ _ h, h]

theorem Store.Sound.setBound {st : Store} (h : st.Sound) (t : TakeNo) (f : Nat → Nat) : (st.setBound t f).Sound :=
  h.setEntry t _ rfl rfl rfl

theorem setBound_target {st : Store} {target : Option TakeNo} (h : st.TargetOpen target) (t : TakeNo) (f : Nat → Nat) :
    (st.setBound t f).TargetOpen target := by
  intro u hu
  rw [entry_setBound]
  split
  · next e => subst e; exact h u hu
  · exact h u hu

/-- A layer given a source and its count, or taken both: the store and one layer replaced together. -/
theorem Preserves.rebind {s : State} (y : LayerId) {st : Store} {l : Layer} (hmem : st.mem = s.store.mem)
    (hstore : s.store.Sound → s.store.TargetOpen s.cap.target → st.Sound ∧ st.TargetOpen s.cap.target)
    (hcount : ((s.layer y).source = none ↔ (s.layer y).state = .free) → ∀ t n,
      (s.store.entry t).bound = boundBy (s.layer y).source t + n → (st.entry t).bound = boundBy l.source t + n)
    (hclosed : (∀ t, (s.store.entry t).bound ≠ 0 → (s.store.entry t).state = .closed) →
      ∀ t, (st.entry t).bound ≠ 0 → (st.entry t).state = .closed)
    (hfree : l.source = none ↔ l.state = .free) (hrange : (s.layer y).InRange → l.InRange) :
    Preserves s ({ s with store := st }.setLayer y l) := by
  refine ⟨fun h => ?_, fun h => ?_, fun _ h => ?_, fun h => ?_, fun h => ?_⟩
  · rw [MemoryCanonical, setLayer_store, hmem]; exact h
  · rw [storeSound_iff] at h ⊢
    simpa using hstore h.1 h.2
  · rw [bindingsAgree_iff] at h ⊢
    obtain ⟨⟨hc, hb⟩, hs⟩ := h
    rw [setLayer_store]
    refine ⟨⟨fun t => ?_, hclosed hb⟩, fun z => ?_⟩
    · cases y with
      | l0 => exact hcount (hs _) t _ (hc t)
      | l1 => rw [Nat.add_comm]; exact hcount (hs _) t _ ((hc t).trans (Nat.add_comm ..))
    · by_cases hz : z = y
      · subst hz; simpa using hfree
      · rw [layer_setLayer_other _ _ hz]; exact hs z
  · simpa [CaptureSound] using h
  · rw [controlsInRange_iff] at h ⊢
    refine ⟨by simpa using h.cap, fun z => ?_, by simpa using h.sched, by simpa using h.drive, by simpa using h.clk⟩
    by_cases hz : z = y
    · subst hz; simpa using hrange (h.layers z)
    · rw [layer_setLayer_other _ _ hz]; exact h.layers z

theorem rangeOfSettings {l m : Layer} (hlow : m.low = l.low) (hhigh : m.high = l.high) (hlatched : m.latched = l.latched)
    (hstaged : m.staged = l.staged) (hring : m.ring = []) (h : l.InRange) : m.InRange := by
  obtain ⟨h1, h2, h3, h4, h5, -, h7⟩ := h
  unfold Layer.InRange
  rw [hlow, hhigh, hlatched, hstaged, hring]
  exact ⟨h1, h2, h3, h4, h5, by simp, h7⟩

/-- A layer freed, with the count of the take it was bound to (R33, R88). -/
theorem freed_preserves {s : State} {y : LayerId} {l : Layer} (hsource : l.source = none) (hstate : l.state = .free)
    (hrange : (s.layer y).InRange → l.InRange) :
    Preserves s (State.setLayer
      (match (s.layer y).source with
        | some (.take t) => { s with store := s.store.setBound t (· - 1) }
        | _ => s) y l) := by
  split
  · next t ht =>
    refine .rebind (s := s) y rfl (fun h ho => ⟨h.setBound t _, setBound_target ho t _⟩) (fun _ u n hu => ?_) (fun h u hu => ?_)
      (by simp [hsource, hstate]) hrange
    · rw [entry_setBound, hsource]
      rw [ht] at hu
      split
      · next e => subst e; simp only [boundBy, if_pos] at hu ⊢; simp [hu]
      · next e =>
        have hne : some (Source.take t) ≠ some (.take u) := by simpa using Ne.symm e
        simpa [boundBy, hne] using hu
    · rw [entry_setBound] at hu ⊢
      split at hu
      · next e => subst e; rw [if_pos rfl]; exact h u (by intro e; simp [e] at hu)
      · next e => rw [if_neg e]; exact h u hu
  · next hnone =>
    refine .rebind (s := s) (st := s.store) y rfl (fun h ho => ⟨h, ho⟩) (fun _ u n hu => ?_) id (by simp [hsource, hstate]) hrange
    have hne : (s.layer y).source ≠ some (.take u) := fun e => hnone u e
    simpa [boundBy, hne, hsource] using hu

theorem releaseLayer_preserves (y : LayerId) (s : State) : Preserves s (releaseLayer y s) := by
  unfold releaseLayer
  dsimp only
  exact (freed_preserves (l := { ((dropDemands y s).layer y) with
      state := .free, source := none, ring := [], cursor := 0, fedTime := 0, endFed := false, cue := none
      origin := none, chase := Vector.replicate 3 none, endFetched := false, highArmed := true, lowArmed := true })
    rfl rfl (rangeOfSettings rfl rfl rfl rfl rfl)).after (dropDemands_preserves y s)

theorem answerLayerBind_preserves (link : Link) (layer source take : Byte) (s : State) :
    Preserves s (answerLayerBind link layer source take s).state := by
  unfold answerLayerBind
  split
  · exact .refl s
  · next y hy =>
    dsimp only
    split
    · exact .refl s
    · split
      · exact .refl s
      · split
        · exact .refl s
        · next hfree =>
          have hfree : (s.layer y).state = .free := not_not.mp hfree
          split
          · exact .rebind (s := s) (st := s.store) y rfl (fun h ho => ⟨h, ho⟩)
              (fun hnone u n hu => by simpa [boundBy, hnone.mpr hfree] using hu) id (by simp)
              (rangeOfSettings rfl rfl rfl rfl rfl)
          · split
            · exact .refl s
            · next t ht =>
              split
              · exact .refl s
              · exact .refl s
              · next hclosed =>
                refine (refill_preserves ..).after (.rebind (s := s) y rfl
                  (fun h ho => ⟨h.setBound t _, setBound_target ho t _⟩) (fun hnone u n hu => ?_) (fun h u hu => ?_) (by simp)
                  (rangeOfSettings rfl rfl rfl rfl rfl))
                · rw [entry_setBound]
                  rw [hnone.mpr hfree] at hu
                  split
                  · next e => subst e; simp only [boundBy, reduceCtorEq, if_false, if_pos] at hu ⊢; omega
                  · next e =>
                    have hne : some (Source.take t) ≠ some (.take u) := by simpa using Ne.symm e
                    simpa [boundBy, hne] using hu
                · rw [entry_setBound] at hu ⊢
                  split at hu
                  · next e => rw [if_pos e]; exact hclosed
                  · next e => rw [if_neg e]; exact h u hu

/-! ### The layers' requests -/

theorem answerLayerMarks_preserves (layer low high : Byte) (s : State) :
    Preserves s (answerLayerMarks layer low high s).state := by
  unfold answerLayerMarks
  split
  · exact .refl s
  · next y hy =>
    dsimp only
    obtain ⟨hlo, hlo'⟩ := clampNat_bounds (lo := 16) (hi := 240) (by decide) low.toNat
    obtain ⟨hhi, hhi'⟩ := clampNat_bounds (lo := 17) (hi := 255) (by decide) high.toNat
    refine (refill_preserves ..).after (.setLayer y rfl .rfl fun ⟨_, _, _, _, _, h6, h7⟩ => ⟨hlo, hlo', ?_, ?_, ?_, h6, h7⟩)
    all_goals dsimp only; split <;> omega

theorem answerLayerFeed_preserves (link : Link) (layer : Byte) (rs : List Record) (s : State) :
    Preserves s (answerLayerFeed link layer rs s).state := by
  unfold answerLayerFeed
  split
  · exact .refl s
  · split
    · exact .refl s
    · exact .refl s
    · split
      · exact feedAll_preserves ..
      · exact .refl s
    · exact .refl s

/-- The settings a LAYER SET gives stand in their ranges (R76, R176). -/
theorem settingsOf_inRange {r : RawSettings} {st : Settings} (h : settingsOf r = some st) : st.InRange := by
  unfold settingsOf at h
  dsimp only at h
  split at h
  · next hgood =>
    obtain ⟨-, -, h2, h3, h4, h5, h6, h7⟩ := hgood
    cases h
    have hv := r.velOffset.toInt_lt
    have hv' := r.velOffset.le_toInt
    have ht := r.timeOffset.toInt_lt
    have ht' := r.timeOffset.le_toInt
    exact ⟨h3, h2, h4, h5, h6, by simpa using hv', by simp at hv ⊢; omega, by simpa using ht', by simp at ht ⊢; omega, h7⟩
  · cases h

theorem answerLayerSet_preserves (layer : Byte) (raw : RawSettings) (s : State) :
    Preserves s (answerLayerSet layer raw s).state := by
  unfold answerLayerSet
  split
  · next y st hy hst =>
    have hset : Preserves s (s.setLayer y { (s.layer y) with staged := some st }) :=
      .setLayer y rfl .rfl fun ⟨h1, h2, h3, h4, h5, h6, h7, _⟩ => ⟨h1, h2, h3, h4, h5, h6, h7, fun st' e => by
        obtain rfl := Option.some.inj e
        exact settingsOf_inRange hst⟩
    dsimp only
    split
    · exact hset
    · exact hset.trans (latch_preserves ..)
  · exact .refl s

theorem answerLayerCue_preserves (layer cueKind : Byte) (cueValue : Word32) (entryKind : Byte) (entryTick : Word32) (s : State) :
    Preserves s (answerLayerCue layer cueKind cueValue entryKind entryTick s).state := by
  unfold answerLayerCue
  split
  · next y cue hy hcue =>
    dsimp only
    split
    · exact .refl s
    · split
      · exact .refl s
      · split
        · exact .refl s
        · next hstate =>
          have hfree : (s.layer y).state ≠ .free := by rintro e; simp [e] at hstate
          split
          · exact .refl s
          · split
            · exact .refl s
            · split
              · split
                · exact .refl s
                · exact (cueTake_preserves _ _ _ hfree).trans (enterPlaying_preserves ..)
              · exact (cueStream_preserves _ hfree).trans (enterPlaying_preserves ..)
  · exact .refl s

theorem answerLayerInfo_state (layer : Byte) (s : State) : (answerLayerInfo layer s).state = s := by
  unfold answerLayerInfo
  split <;> rfl

/-! ### The drive unit -/

theorem putDriveKey_preserves (k : Key) (d : DriveKey) (s : State) : Preserves s (putDriveKey k d s) := by
  unfold putDriveKey
  dsimp only
  split
  · exact (ownKey_acts ..).preserves.after (.setDriveKey ..)
  · split
    · exact (disownKey_acts ..).preserves.after (.setDriveKey ..)
    · exact .setDriveKey ..

theorem enterRest_preserves (k : Key) (s : State) : Preserves s (enterRest k s) := putDriveKey_preserves ..

theorem driveAllPedals_preserves (s : State) : Preserves s (driveAllPedals s) :=
  .foldl (fun s p => (drivePedal_acts p s).preserves) _ s

theorem judgeSag_preserves (s : State) : Preserves s (judgeSag s) := by
  unfold judgeSag
  dsimp only
  split
  · split
    · exact (Preserves.raiseBoth ..).after (.inert ..)
    · exact .inert ..
  · exact .refl s

theorem enterQuiet_preserves (s : State) : Preserves s (enterQuiet s) := .inert ..

theorem quietIfAtRest_preserves (s : State) : Preserves s (quietIfAtRest s) := by
  unfold quietIfAtRest
  split
  · exact enterQuiet_preserves s
  · exact .refl s

theorem enterActive_preserves (s : State) : Preserves s (enterActive s) :=
  ((judgeSag_preserves _).trans (driveAllPedals_preserves _)).after (.inert ..)

theorem settleRest_preserves (k : Key) (s : State) : Preserves s (settleRest k s) := by
  have h := (enterRest_preserves k s).trans (quietIfAtRest_preserves _)
  unfold settleRest
  dsimp only
  split <;> exact h.trans (processDue_preserves ..)

theorem goQuiet_preserves (s : State) : Preserves s (goQuiet s) :=
  ((letGoReported_acts ..).preserves.trans (quietIfAtRest_preserves _)).after (.inert ..)

theorem answerKeysClear_preserves (keys : BitVec 88) (s : State) : Preserves s (answerKeysClear keys s).state :=
  (Preserves.foldl (fun s k => settleRest_preserves k s) _ s).trans (takeAll_preserves _)

theorem answerQuietEnter_preserves (s : State) : Preserves s (answerQuietEnter s).state := by
  unfold answerQuietEnter
  split
  · exact .refl s
  · dsimp only
    split
    · exact goQuiet_preserves s
    · exact goQuiet_preserves s
    · exact .refl s
    · exact .refl s

theorem answerQuietLeave_preserves (s : State) : Preserves s (answerQuietLeave s).state := by
  unfold answerQuietLeave
  dsimp only
  split
  · exact ((processDue_preserves ..).trans (takeAll_preserves _)).after (.inert ..)
  · exact (enterActive_preserves s).trans ((processDue_preserves ..).trans (takeAll_preserves _))
  · exact .refl s
  · exact .refl s

theorem answerDriveSet_preserves (slots : Byte) (vnom : Word16) (sagPercent : Byte) (s : State) :
    Preserves s (answerDriveSet slots vnom sagPercent s).state := by
  obtain ⟨h1, h2⟩ := clampNat_bounds (lo := 4) (hi := 16) (by decide) slots.toNat
  obtain ⟨h3, h4⟩ := clampNat_bounds (lo := 100) (hi := 1000) (by decide) vnom.toNat
  obtain ⟨h5, h6⟩ := clampNat_bounds (lo := 60) (hi := 95) (by decide) sagPercent.toNat
  have hset : Preserves s (judgeSag { s with drive := { s.drive with
      slots := clampNat 4 16 slots.toNat, vnom := clampNat 100 1000 vnom.toNat
      sagPercent := clampNat 60 95 sagPercent.toNat } }) :=
    (judgeSag_preserves _).after (.config (sched := s.sched) (clk := s.clk) id (fun _ => ⟨h1, h2, h3, h4, h5, h6⟩) id)
  unfold answerDriveSet
  refine hset.trans (Preserves.trans ?_ (takeAll_preserves _))
  split
  · exact respond_preserves ..
  · exact (arbiter_acts _).preserves.trans (processDue_preserves ..)

theorem answerDriveInfo_state (first count : Byte) (s : State) : (answerDriveInfo first count s).state = s := by
  unfold answerDriveInfo
  dsimp only
  split <;> rfl

theorem answerLayerFree_preserves (layer : Byte) (s : State) : Preserves s (answerLayerFree layer s).state := by
  unfold answerLayerFree
  split
  · exact .refl s
  · split
    · exact .refl s
    · next y _ _ =>
      have hplan : Preserves s (freePlan y s) := .inert ..
      exact ((hplan.trans (letGoReported_acts ..).preserves).trans (releaseLayer_preserves ..)).trans (takeAll_preserves _)

/-! ### The scheduler's requests -/

theorem answerPlanSet_preserves (late rise : Word16) (s : State) : Preserves s (answerPlanSet late rise s).state := by
  obtain ⟨-, h1⟩ := clampNat_bounds (lo := 0) (hi := 200) (by decide) late.toNat
  obtain ⟨h2, h3⟩ := clampNat_bounds (lo := 200) (hi := 2000) (by decide) rise.toNat
  exact .config (drive := s.drive) (clk := s.clk) (fun ⟨_, _, _, h4⟩ => ⟨h1, h2, h3, h4⟩) id id

theorem clearPlan_preserves (s : State) : Preserves s (clearPlan s) := .inert ..

theorem answerAllOff_preserves (s : State) : Preserves s (answerAllOff s).state := by
  have hzero : ∀ (y : LayerId) (s : State), Preserves s
      (allPedals.foldl (fun s p => if (bankGet (s.layer y).demands p).isSome then setDemand y p (some 0) s else s) s) := by
    refine fun y s => .foldl (fun s p => ?_) _ s
    split
    · exact setDemand_preserves ..
    · exact .refl s
  have hoff := (clearPlan_preserves s).trans (letGoReported_acts (fun _ => true) _).preserves
  have hends : ∀ (b : Bool) (y : LayerId) (s : State), Preserves s (if b then endIfDone y s else s) := by
    intro b y s
    split
    · exact endIfDone_preserves y s
    · exact .refl s
  exact (((hoff.trans (hzero .l0 _)).trans (hzero .l1 _)).trans (hends _ .l0 _)).trans (hends _ .l1 _)

theorem thenTake_preserves {a : Answer} {s : State} (h : Preserves s a.state) : Preserves s a.thenTake.state := by
  unfold Answer.thenTake
  split
  · exact h
  · exact h.trans (takeAll_preserves _)

end Sys2Proof.Machine
end

section
/-! SUPPORT. The run controller's, the events' and the links' operations keep the clock and preserve the invariants; the clock's own
keep its range; so every command preserves them, and the position falls by three commands alone (R40, R45, R51, R174). -/

namespace Sys2Proof.Machine

/-- The invariants are preserved and the clock stands as it did. -/
structure Steady (s t : State) : Prop where
  preserves : Preserves s t
  clk       : t.clk = s.clk

theorem Steady.refl (s : State) : Steady s s := ⟨.refl s, rfl⟩

theorem Steady.trans {s t u : State} (h : Steady s t) (g : Steady t u) : Steady s u :=
  ⟨h.preserves.trans g.preserves, g.clk.trans h.clk⟩

theorem Steady.after {s t u : State} (g : Steady t u) (h : Steady s t) : Steady s u := h.trans g

theorem Steady.foldl {α : Type} {f : State → α → State} (h : ∀ s x, Steady s (f s x)) (xs : List α) (s : State) :
    Steady s (xs.foldl f s) := by
  induction xs generalizing s with
  | nil => exact .refl s
  | cons x xs ih => exact (h s x).trans (ih _)

/-- The wall timer, the links, the key records, the map, the drive unit's running values and the run controller. -/
theorem Steady.inert {s : State} (pending : List Instr) (wall : WallTimer) (resetLow : Bool) (linkA linkB : LinkRec)
    (keys : Bank CapKey 88) (map : CalMap) (power : Power) (wakeAt : Option Nat) (sag : Bool) (vmeas : Nat)
    (driveKeys : Bank DriveKey 88) (pulse : Option PendingPulse) (run : RunController) :
    Steady s { s with
      pending := pending, wall := wall, resetLow := resetLow, linkA := linkA, linkB := linkB
      cap := { s.cap with keys := keys }, map := map
      drive := { s.drive with
        power := power, wakeAt := wakeAt, sag := sag, vmeas := vmeas, keys := driveKeys, pulse := pulse }
      run := run } :=
  ⟨.inert .., rfl⟩

theorem Steady.setRun (r : RunController) (s : State) : Steady s (setRun r s) := ⟨.setRun .., rfl⟩
theorem Steady.setLink (s : State) (l : Link) (r : LinkRec) : Steady s (s.setLink l r) := ⟨.setLink .., setLink_clk ..⟩
theorem Steady.raiseBoth (n : Notice) (s : State) : Steady s (raiseBoth n s) := ⟨.raiseBoth .., rfl⟩
theorem Steady.setDriveKey (s : State) (k : Key) (d : DriveKey) : Steady s (s.setDriveKey k d) := ⟨.setDriveKey .., rfl⟩
theorem Steady.setCapKey (s : State) (k : Key) (c : CapKey) : Steady s (s.setCapKey k c) := ⟨.setCapKey .., rfl⟩

/-- An operation of the blocks that keep the clock, known to preserve the invariants. -/
theorem Preserves.steady {s t : State} (h : Preserves s t) (k : Keeps s t) : Steady s t := ⟨h, k.clk⟩

theorem takeAll_steady (s : State) : Steady s (takeAll s) := (takeAll_preserves s).steady (takeAll_keeps s)
theorem processDue_steady (named : Key → Bool) (s : State) : Steady s (processDue named s) :=
  (processDue_preserves named s).steady (processDue_keeps named s)
theorem respond_steady (s t : State) : Steady t (respond s t) := (respond_preserves s t).steady (respond_keeps s t)
theorem putDriveKey_steady (k : Key) (d : DriveKey) (s : State) : Steady s (putDriveKey k d s) :=
  (putDriveKey_preserves k d s).steady (putDriveKey_keeps k d s)
theorem enterRest_steady (k : Key) (s : State) : Steady s (enterRest k s) := putDriveKey_steady ..
theorem beginSustain_steady (k : Key) (s : State) : Steady s (beginSustain k s) := .setDriveKey ..
theorem addDrop_steady (e : DropEntry) (s : State) : Steady s (addDrop e s) :=
  (addDrop_acts e s).preserves.steady (addDrop_keeps e s)
theorem quietIfAtRest_steady (s : State) : Steady s (quietIfAtRest s) :=
  (quietIfAtRest_preserves s).steady (quietIfAtRest_keeps s)
theorem captureSample_steady (k : Key) (p : KeyPos) (s : State) : Steady s (captureSample k p s) :=
  (captureSample_preserves k p s).steady (captureSample_keeps k p s)

/-! ### The run controller -/

theorem beginRest_steady (s : State) : Steady s (beginRest s) := .setRun ..

theorem finishRun_steady (s : State) : Steady s (finishRun s) := by
  unfold finishRun
  dsimp only
  split
  · exact (Steady.raiseBoth ..).after ((Steady.raiseBoth ..).after (.setRun ..))
  · exact (Steady.raiseBoth ..).after (.setRun ..)

theorem runWrite_steady (k : Key) (f : KeyEntry → KeyEntry) (s : State) : Steady s (runWrite k f s) := .inert ..

theorem writeResult_steady (k : Key) (r : RunResult) (f : KeyEntry → KeyEntry) (s : State) :
    Steady s (writeResult k r f s) := (runWrite_steady ..).trans (.setRun ..)

theorem freeForRun_steady (k : Key) (s : State) : Steady s (freeForRun k s) := by
  unfold freeForRun
  split
  · exact enterRest_steady k s
  · exact .refl s

theorem copyKey_steady (k : Key) (s : State) : Steady s (copyKey k s) := .setRun ..

theorem workBelow_steady (n : Nat) (s : State) : Steady s (workBelow n s) := by
  induction n generalizing s with
  | zero => exact finishRun_steady s
  | succ n ih =>
    unfold workBelow
    split
    · exact ih s
    · next k hk =>
      split
      · dsimp only
        have hcopy := (copyKey_steady k s).trans (freeForRun_steady k _)
        split
        · split
          · exact (hcopy.trans (writeResult_steady ..)).trans (finishRun_steady _)
          · exact (hcopy.trans (writeResult_steady ..)).trans (ih _)
        · exact (hcopy.trans (.setRun ..)).trans (beginRest_steady _)
      · exact ih s

theorem endKey_steady (k : Key) (r : RunResult) (f : KeyEntry → KeyEntry) (s : State) : Steady s (endKey k r f s) := by
  unfold endKey
  dsimp only
  split
  · exact (writeResult_steady ..).trans (finishRun_steady _)
  · exact (writeResult_steady ..).trans (workBelow_steady ..)

theorem searchFound_steady (k : Key) (t : Nat) (s : State) : Steady s (searchFound k t s) := endKey_steady ..

theorem searchNext_steady (k : Key) (level : Nat) (s : State) : Steady s (searchNext k level s) := by
  unfold searchNext
  split
  · exact endKey_steady ..
  · exact (beginRest_steady _).after (.setRun ..)

theorem searchFine_steady (k : Key) (level : Nat) (s : State) : Steady s (searchFine k level s) := by
  unfold searchFine
  dsimp only
  split
  · split
    · exact (searchFound_steady ..).after (.setRun ..)
    · exact (searchNext_steady ..).after (.setRun ..)
  · exact (searchNext_steady ..).after (.setRun ..)

theorem searchHit_steady (k : Key) (s : State) : Steady s (searchHit k s) := by
  unfold searchHit
  dsimp only
  split
  · exact endKey_steady ..
  · split
    · exact (searchNext_steady ..).after (.setRun ..)
    · exact (searchNext_steady ..).after (.setRun ..)
    · exact (searchFine_steady ..).after (.setRun ..)
    · exact searchFound_steady ..

theorem searchMiss_steady (k : Key) (s : State) : Steady s (searchMiss k s) := by
  unfold searchMiss
  dsimp only
  split
  · exact (searchNext_steady ..).after (.setRun ..)
  · split
    · exact (endKey_steady ..).after (.setRun ..)
    · exact (searchNext_steady ..).after (.setRun ..)
  · exact (searchFine_steady ..).after (.setRun ..)
  · exact searchFine_steady ..

theorem proofDone_steady (k : Key) (s : State) : Steady s (proofDone k s) := by
  unfold proofDone
  dsimp only
  split
  · exact endKey_steady ..
  · split
    · exact endKey_steady ..
    · split
      · exact endKey_steady ..
      · split <;> exact endKey_steady ..

theorem proofNext_steady (k : Key) (s : State) : Steady s (proofNext k s) := by
  unfold proofNext
  split
  · exact proofDone_steady ..
  · exact beginRest_steady s

theorem runHit_steady (k : Key) (firedAt gate2At : Nat) (velocity : Option Nat) (s : State) :
    Steady s (runHit k firedAt gate2At velocity s) := by
  unfold runHit
  split
  · split
    · exact searchHit_steady ..
    · split
      · exact (proofNext_steady ..).after (.setRun ..)
      · exact proofNext_steady ..
  · exact .refl s

theorem runMiss_steady (k : Key) (s : State) : Steady s (runMiss k s) := by
  unfold runMiss
  split
  · split
    · exact searchMiss_steady ..
    · exact proofNext_steady ..
  · exact .refl s

theorem endPulse_steady (k : Key) (s : State) : Steady s (endPulse k s) := (respond_steady ..).after (putDriveKey_steady ..)

theorem requestPulse_steady (s : State) : Steady s (requestPulse s) := by
  have hask : ∀ (b : Prop) [Decidable b] (k : Key), Steady s (if b then
      setRun { s.run with wait := .pending }
        { s with drive := { s.drive with pulse := some { key := k, level := s.run.level } } } else s) := by
    intro b _ k
    split
    · exact .inert ..
    · exact .refl s
  unfold requestPulse
  split
  · exact hask ..
  · exact .refl s

theorem firePending_steady (s : State) : Steady s (firePending s) := by
  unfold firePending
  split
  · exact .refl s
  · next p hp =>
    dsimp only
    split
    · have hfire : Steady s (firePulse p.key p.level { s with drive := { s.drive with pulse := none } }) :=
        (putDriveKey_steady ..).after (.inert ..)
      split
      · exact hfire.trans (.setRun ..)
      · exact hfire
    · exact .refl s

theorem restDeadlineReached_steady (s : State) : Steady s (restDeadlineReached s) := by
  unfold restDeadlineReached
  split
  · split
    · exact endKey_steady ..
    · exact .refl s
  · exact .refl s

theorem runSample_steady (k : Key) (p : KeyPos) (s : State) : Steady s (runSample k p s) := by
  unfold runSample
  split
  · exact .inert ..
  · exact .refl s

theorem endStopping_steady (k : Key) (s : State) : Steady s (endStopping k s) := by
  unfold endStopping
  split
  · exact finishRun_steady s
  · exact .refl s

theorem withdrawPulse_steady (k : Key) (s : State) : Steady s (withdrawPulse k s) := by
  unfold withdrawPulse
  dsimp only
  split
  · exact (endPulse_steady ..).after (.inert ..)
  · exact .inert ..

theorem answerCalRun_steady (kind : Byte) (keys : BitVec 88) (stop : Byte) (v : Word16) (n : Byte) (s : State) :
    Steady s (answerCalRun kind keys stop v n s).state := by
  unfold answerCalRun
  split
  · exact .refl s
  · split
    · exact .refl s
    · split
      · exact .refl s
      · split
        · exact .refl s
        · split
          · exact .refl s
          · exact (workBelow_steady ..).after (.setRun ..)

theorem answerCalStop_steady (s : State) : Steady s (answerCalStop s).state := by
  unfold answerCalStop
  split
  · exact .refl s
  · exact .refl s
  · exact finishRun_steady s
  · next k _ _ =>
    dsimp only
    have hstop := ((withdrawPulse_steady k s).trans (writeResult_steady k .aborted id _)).trans
      (Steady.setRun { (writeResult k .aborted id (withdrawPulse k s)).run with state := .stopping } _)
    split
    · exact hstop
    · exact hstop.trans (finishRun_steady _)

theorem softResetRun_steady (s : State) : Steady s (softResetRun s) := by
  unfold softResetRun
  split
  · exact .refl s
  · dsimp only
    split
    · exact (Steady.setRun ..).after (runWrite_steady ..)
    · exact .setRun ..

/-! ### The map -/

theorem integrityTest_steady (s : State) : Steady s (integrityTest s) := by
  unfold integrityTest
  split
  · exact (Steady.raiseBoth ..).after (.inert ..)
  · exact .refl s

theorem countPeriod_steady (s : State) : Steady s (countPeriod s) := by
  unfold countPeriod
  split
  · exact .inert ..
  · exact (integrityTest_steady _).after (.inert ..)

theorem answerMapRead_state (cls number : Byte) (s : State) : (answerMapRead cls number s).state = s := by
  unfold answerMapRead
  repeat' split
  all_goals rfl

theorem answerMapWrite_steady (b : MapBody) (s : State) : Steady s (answerMapWrite b s).state := by
  unfold answerMapWrite
  split
  · split
    · exact .refl s
    · split
      · exact .refl s
      · split
        · exact .refl s
        · exact .inert ..
  · split
    · exact .refl s
    · split
      · exact .refl s
      · exact .inert ..
  · exact .refl s

theorem answerMapClear_steady (s : State) : Steady s (answerMapClear s).state := by
  unfold answerMapClear
  split
  · exact .refl s
  · exact .inert ..

theorem answerMapAccept_steady (s : State) : Steady s (answerMapAccept s).state := .inert ..

/-! ### The events -/

theorem settleRest_steady (k : Key) (s : State) : Steady s (settleRest k s) := by
  have h := (enterRest_steady k s).trans (quietIfAtRest_steady _)
  unfold settleRest
  dsimp only
  split <;> exact h.trans (processDue_steady ..)

theorem driveSample_steady (k : Key) (p : KeyPos) (s : State) : Steady s (driveSample k p s) := by
  have h := Steady.setDriveKey s k ((s.driveKey k).sampled p s.cap.repetition)
  unfold driveSample
  dsimp only
  split
  · split
    · exact h
    · exact (h.trans (settleRest_steady ..)).trans (endStopping_steady ..)
  · split
    · exact h
    · exact h.trans (processDue_steady ..)
  · exact h

theorem sampleKey_steady (s : State) (x : Key × KeyPos) : Steady s (sampleKey s x) :=
  ((captureSample_steady ..).trans (driveSample_steady ..)).trans (runSample_steady ..)

theorem keySample_steady (rs : List (Key × KeyPos)) (s : State) : Steady s (keySample rs s) := by
  unfold keySample
  split
  · exact ((Steady.foldl sampleKey_steady rs _).trans (takeAll_steady _)).after (.inert ..)
  · exact .refl s

theorem detect_steady (k : Key) (s : State) : Steady s (detect k s) := (detect_acts k s).preserves.steady (detect_keeps k s)

theorem takeEcho_steady (k : Key) (v : Option Nat) (s : State) : Steady s (takeEcho k v s) := by
  unfold takeEcho
  dsimp only
  split
  · exact ((detect_steady k s).trans (respond_steady ..)).trans (takeAll_steady _)
  · exact (endPulse_steady k s).trans (runHit_steady ..)
  · exact .setDriveKey ..
  · exact .setDriveKey ..
  · exact .refl s

theorem gate2_steady (k : Key) (s : State) : Steady s (gate2 k s) := by
  unfold gate2
  split
  · exact (takeEcho_steady ..).after (.setCapKey ..)
  · exact (captureGate2_preserves k s).steady (captureGate2_keeps k s)

theorem windowEnd_steady (k : Key) (s : State) : Steady s (windowEnd k s) := by
  unfold windowEnd
  split
  · split
    · exact (captureWindowEnd_preserves k s).steady (captureWindowEnd_keeps k s)
    · exact .refl s
  · exact .refl s

theorem readSupply_steady (v : SupplyReading) (s : State) : Steady s (readSupply v s) := by
  unfold readSupply
  dsimp only
  split
  · have h : Steady s (judgeSag { s with
        wall := { s.wall with supply := s.wall.supply + Config.supplyMicros }, drive := { s.drive with vmeas := v.val } }) :=
      ((judgeSag_preserves _).steady (judgeSag_keeps _)).after (.inert ..)
    split
    · exact h
    · exact (h.trans (processDue_steady ..)).trans (takeAll_steady _)
  · exact .refl s

theorem servicePeriodEnd_steady (s : State) : Steady s (servicePeriodEnd s) := by
  unfold servicePeriodEnd
  dsimp only
  split
  · split
    · exact .inert ..
    · exact (countPeriod_steady _).after (.inert ..)
  · exact .refl s

theorem integrityPeriod_steady (s : State) : Steady s (integrityPeriod s) := by
  unfold integrityPeriod
  split
  · exact (countPeriod_steady s).trans (.inert ..)
  · exact .refl s

theorem missStrike_steady (k : Key) (y : LayerId) (e v : Nat) (s : State) : Steady s (missStrike k y e v s) :=
  (((addDrop_steady ..).trans (putDriveKey_steady ..)).trans (beginSustain_steady ..)).trans
    ((respond_steady ..).trans (takeAll_steady _))

theorem strikeGrace_steady (k : Key) (s : State) : Steady s (strikeGrace k s) := by
  unfold strikeGrace
  dsimp only
  split
  · split
    · split
      · exact missStrike_steady ..
      · exact .setDriveKey ..
      · exact .setDriveKey ..
      · exact .refl s
    · exact .refl s
  · exact .refl s

theorem reboundOver_steady (k : Key) (s : State) : Steady s (reboundOver k s) := by
  unfold reboundOver
  dsimp only
  split
  · split
    · exact beginSustain_steady ..
    · exact .refl s
  · exact .refl s

theorem letGoOver_steady (k : Key) (s : State) : Steady s (letGoOver k s) := by
  unfold letGoOver
  dsimp only
  split
  · split
    · exact ((((putDriveKey_steady ..).trans (.raiseBoth ..)).trans (processDue_steady ..)).trans (endStopping_steady ..)).trans
        (takeAll_steady _)
    · exact .refl s
  · exact .refl s

theorem wakeOver_steady (s : State) : Steady s (wakeOver s) := by
  unfold wakeOver
  split
  · split
    · exact (((enterActive_preserves s).steady (enterActive_keeps s)).trans (processDue_steady ..)).trans (takeAll_steady _)
    · exact .refl s
  · exact .refl s

theorem pulseGrace_steady (k : Key) (s : State) : Steady s (pulseGrace k s) := by
  unfold pulseGrace
  dsimp only
  split
  · split
    · exact (endPulse_steady ..).trans (runMiss_steady ..)
    · exact .refl s
  · exact .refl s

end Sys2Proof.Machine
end

section
/-! SUPPORT. The clock's own operations, the links' and the two resets; then every command, and the statements O29 and O58. -/

namespace Sys2Proof.Machine

/-! ### The clock -/

/-- A clock that owes nothing and keeps its sync length, or takes one in range. -/
theorem Clock.InRange.cleared {c d : Clock} (h : c.InRange) (hl : d.syncLength = c.syncLength) (ho : d.owed = 0) :
    d.InRange := by
  obtain ⟨h1, h2, -, -⟩ := h
  unfold Clock.InRange
  rw [hl, ho]
  exact ⟨h1, h2, by decide, by decide⟩

theorem phaseWork_preserves (r : PedalReadings) (kind : InstantKind) (frame : Option Nat) (s : State) (p : Phase) :
    Preserves s (phaseWork r kind frame s p) := by
  cases p with
  | capture =>
    have hre : Preserves s (if kind = .advance then s else captureReenter s) := by
      split
      · exact .refl s
      · exact captureReenter_preserves s
    unfold phaseWork
    dsimp only
    split
    · exact hre.trans (captureFrame_preserves ..)
    · exact hre
  | latch y =>
    unfold phaseWork
    dsimp only
    split
    · exact latch_preserves y s
    · exact .refl s
  | enter y => exact enterPlaying_preserves y s
  | schedule =>
    have hlate : Preserves s (if kind = .advance then judgeLateness s else s) := by
      split
      · exact (judgeLateness_acts s).preserves
      · exact .refl s
    exact (hlate.trans (processDue_preserves ..)).trans (takeAll_preserves _)

theorem phaseWork_keeps (r : PedalReadings) (kind : InstantKind) (frame : Option Nat) (s : State) (p : Phase) :
    Keeps s (phaseWork r kind frame s p) := by
  cases p with
  | capture =>
    have hre : Keeps s (if kind = .advance then s else captureReenter s) := by
      split
      · exact .refl s
      · exact captureReenter_keeps s
    unfold phaseWork
    dsimp only
    split
    · exact hre.trans (captureFrame_keeps ..)
    · exact hre
  | latch y =>
    unfold phaseWork
    dsimp only
    split
    · exact latch_keeps y s
    · exact .refl s
  | enter y => exact enterPlaying_keeps y s
  | schedule =>
    have hlate : Keeps s (if kind = .advance then judgeLateness s else s) := by
      split
      · exact judgeLateness_keeps s
      · exact .refl s
    exact (hlate.trans (processDue_keeps ..)).trans (takeAll_keeps _)

theorem instantWork_keeps (r : PedalReadings) (order : List Phase) (kind : InstantKind) (frame : Option Nat) (s : State) :
    Keeps s (instantWork r order kind frame s) :=
  (Keeps.foldl (fun s p => phaseWork_keeps r kind frame s p) _ s).trans (takeAll_keeps _)

theorem instantWork_preserves (r : PedalReadings) (order : List Phase) (kind : InstantKind) (frame : Option Nat) (s : State) :
    Preserves s (instantWork r order kind frame s) :=
  (Preserves.foldl (fun s p => phaseWork_preserves r kind frame s p) _ s).trans (takeAll_preserves _)

theorem latchBoth_preserves (s : State) : Preserves s (latchBoth s) := (latch_preserves ..).trans (latch_preserves ..)
theorem latchBoth_keeps (s : State) : Keeps s (latchBoth s) := (latch_keeps ..).trans (latch_keeps ..)
theorem dropLastFires_keeps (s : State) : Keeps s (dropLastFires s) := .inner ..

/-- What a stop does after the clock has left RUNNING or PAUSED: everything but the clock's own change. -/
def stopWork (running : Bool) (s : State) : State :=
  let s2 := dropLastFires (letGoReported (fun _ => true) (clearPlan (if running then latchBoth s else s)))
  let s3 := stopLayer .l1 (stopLayer .l0 s2)
  if s3.cap.state = .idle then s3 else stopCapture s3

/-- The stop of the clock: its own values, then the work of the stop (R44). -/
theorem stopClock_eq (s : State) :
    stopClock s = stopWork s.running { s with clk := { s.clk with state := .stopped, owed := 0 } } := by
  unfold stopClock stopWork
  rfl

theorem stopWork_keeps (b : Bool) (s : State) : Keeps s (stopWork b s) := by
  have hlatch : Keeps s (if b then latchBoth s else s) := by
    split
    · exact latchBoth_keeps s
    · exact .refl s
  have h := (((((hlatch.trans (clearPlan_keeps _)).trans (letGoReported_keeps (fun _ => true) _)).trans
    (dropLastFires_keeps _)).trans (stopLayer_keeps .l0 _)).trans (stopLayer_keeps .l1 _))
  have hstop : ∀ u : State, Keeps u (if u.cap.state = .idle then u else stopCapture u) := by
    intro u
    split
    · exact .refl u
    · exact stopCapture_keeps u
  exact h.trans (hstop _)

theorem stopWork_preserves (b : Bool) (s : State) : Preserves s (stopWork b s) := by
  have hlatch : Preserves s (if b then latchBoth s else s) := by
    split
    · exact latchBoth_preserves s
    · exact .refl s
  have hlet := (hlatch.trans (clearPlan_preserves _)).trans (letGoReported_acts (fun _ => true) _).preserves
  have hfires : ∀ s, Preserves s (dropLastFires s) := fun s => .inert ..
  have h := ((hlet.trans (hfires _)).trans (stopLayer_preserves .l0 _)).trans (stopLayer_preserves .l1 _)
  have hstop : ∀ u : State, Preserves u (if u.cap.state = .idle then u else stopCapture u) := by
    intro u
    split
    · exact .refl u
    · exact stopCapture_preserves u
  exact h.trans (hstop _)

theorem stopClock_clk (s : State) : (stopClock s).clk = { s.clk with state := .stopped, owed := 0 } := by
  rw [stopClock_eq, (stopWork_keeps ..).clk]

theorem stopClock_preserves (s : State) : Preserves s (stopClock s) := by
  rw [stopClock_eq]
  exact (stopWork_preserves ..).after (.clock fun h => h.cleared rfl rfl)

/-- The clock's own values after an advance stay in their ranges (R48, R50). -/
theorem Clock.advanced_inRange {c : Clock} (h : c.InRange) : c.advanced.clk.InRange := by
  obtain ⟨h1, h2, h3, h4⟩ := h
  unfold Clock.advanced
  dsimp only
  split
  · next hw => exact ⟨h1, h2, by dsimp only; omega, by dsimp only; omega⟩
  · refine ⟨h1, h2, ?_, ?_⟩ <;> dsimp only <;> split
    · next hskip => simp only [Bool.and_eq_true, decide_eq_true_eq] at hskip; omega
    · exact h3
    · next hskip => simp only [Bool.and_eq_true, decide_eq_true_eq] at hskip; omega
    · exact h4

theorem advanceClock_preserves (r : PedalReadings) (order : List Phase) (s : State) : Preserves s (advanceClock r order s) := by
  unfold advanceClock
  dsimp only
  split
  · have hclk : Preserves s { s with clk := s.clk.advanced.clk } := .clock Clock.advanced_inRange
    split
    · exact hclk
    · split
      · exact (hclk.trans (stopClock_preserves _)).trans (.raiseBoth ..)
      · exact hclk.trans (instantWork_preserves ..)
  · exact .refl s

theorem answerClockRun_preserves (r : PedalReadings) (order : List Phase) (s : State) :
    Preserves s (answerClockRun r order s).state := by
  unfold answerClockRun
  split
  · exact .refl s
  · split
    · exact .refl s
    · exact (instantWork_preserves ..).after (.clock id)
    · split
      · exact .refl s
      · exact (instantWork_preserves ..).after
          (.config (drive := s.drive) (fun ⟨h1, h2, h3, _⟩ => ⟨h1, h2, h3, by simp⟩) id id)

theorem answerClockPause_preserves (s : State) : Preserves s (answerClockPause s).state := by
  unfold answerClockPause
  split
  · exact .refl s
  · exact .refl s
  · have hq : ∀ s, Preserves s (withdrawQueue s) := fun s => .inert ..
    exact (((latchBoth_preserves _).trans (capturePause_preserves _)).trans (hq _)).after (.clock id)

theorem answerClockLocate_preserves (p : Word32) (s : State) : Preserves s (answerClockLocate p s).state := by
  unfold answerClockLocate
  split
  · exact .clock fun h => h.cleared rfl rfl
  · exact .refl s

theorem answerClockSource_preserves (b : Byte) (n : Word16) (s : State) : Preserves s (answerClockSource b n s).state := by
  obtain ⟨hlo, hhi⟩ := clampNat_bounds (lo := 100) (hi := 8000) (by decide) n.toNat
  unfold answerClockSource
  split
  · exact .clock fun h => h.cleared rfl rfl
  · split
    · exact .clock fun _ => ⟨hlo, hhi, by simp, by simp⟩
    · exact .refl s

theorem syncPulse_preserves (s : State) : Preserves s (syncPulse s) := by
  obtain ⟨hlo, hhi⟩ := clampInt_bounds (lo := -8) (hi := 8) (by decide) s.clk.syncError
  unfold syncPulse
  dsimp only
  split
  · split
    · exact .clock fun ⟨h1, h2, _, _⟩ => ⟨h1, h2, hlo, hhi⟩
    · exact (Preserves.raiseBoth ..).after (.clock fun h => h.cleared rfl rfl)
  · exact .refl s

theorem lossExpired_preserves (s : State) : Preserves s (lossExpired s) := by
  unfold lossExpired
  split
  · exact (Preserves.raiseBoth ..).after (.clock id)
  · exact .refl s

/-! ### The resets -/

theorem Settings.reset_inRange : Settings.reset.InRange := by
  unfold Settings.InRange
  decide

theorem Layer.reset_inRange : Layer.reset.InRange :=
  ⟨by decide, by decide, by decide, by decide, by decide, by decide, Settings.reset_inRange, fun _ e => nomatch e⟩

/-- Both layers reset and every count with them (R37, R90). -/
theorem unbound_preserves (s : State) :
    Preserves s { s with layer0 := Layer.reset, layer1 := Layer.reset, store := s.store.unbindAll } where
  memory h := by
    change Memory.wf s.store.unbindAll.mem = true
    rw [unbindAll_mem]
    exact h
  store h := by
    rw [storeSound_iff] at h ⊢
    refine ⟨h.1.unbindAll, fun t ht => ?_⟩
    change (s.store.unbindAll.entry t).state = _ ∧ (s.store.unbindAll.entry t).writer = _
    rw [entry_unbindAll]
    exact h.2 t ht
  bindings _ _ := by
    rw [bindingsAgree_iff]
    refine ⟨⟨fun t => ?_, fun t ht => ?_⟩, fun y => ?_⟩
    · change (s.store.unbindAll.entry t).bound = _
      rw [entry_unbindAll]; rfl
    · change (s.store.unbindAll.entry t).bound ≠ 0 at ht
      rw [entry_unbindAll] at ht; exact absurd rfl ht
    · cases y <;> exact ⟨fun _ => rfl, fun _ => rfl⟩
  capture := fun ⟨h1, h2, h3⟩ => ⟨h1, h2, h3⟩
  controls h := by
    obtain ⟨hc, -, hs, hd, hk⟩ := controlsInRange_iff.mp h
    exact controlsInRange_iff.mpr ⟨hc, fun y => by cases y <;> exact Layer.reset_inRange, hs, hd, hk⟩

theorem softResetClock_preserves (s : State) : Preserves s (softResetClock s) :=
  .clock fun h => h.cleared rfl rfl

theorem softResetPlan_preserves (s : State) : Preserves s (softResetPlan s) :=
  .config (drive := s.drive) (clk := s.clk) (fun ⟨h1, h2, h3, _⟩ => ⟨h1, h2, h3, by simp⟩) id id

theorem softResetDrive_preserves (s : State) : Preserves s (softResetDrive s) := .inert ..

theorem softReset_preserves (l : Link) (s : State) : Preserves s (softReset l s) := by
  have hblocks := ((softResetCapture_preserves s).trans (softResetRun_steady _).preserves).trans (softResetClock_preserves _)
  have hall := ((hblocks.trans (unbound_preserves _)).trans (softResetPlan_preserves _)).trans (softResetDrive_preserves _)
  have hcause : ∀ s, Preserves s { s with cause := causeOf l } := fun s => .inert ..
  exact ((hall.trans (hcause _)).trans (.setLink ..)).trans (.setLink ..)

theorem softReset_clk (l : Link) (s : State) : (softReset l s).clk.state = .stopped ∧ (softReset l s).clk.position = 0 := by
  unfold softReset
  dsimp only
  rw [setLink_clk, setLink_clk]
  exact ⟨rfl, rfl⟩

/-! ### The power-on reset -/

theorem powerOn_entry (s : State) (t : TakeNo) : (powerOn s).store.entry t = TakeEntry.free := by
  simp [Store.entry, powerOn, Store.reset]

theorem powerOn_pool (s : State) : (powerOn s).store.pool = List.range 256 := by simp only [powerOn, Store.reset]

theorem powerOn_takeBlocks (s : State) : (powerOn s).store.takeBlocks = [] :=
  List.flatMap_eq_nil_iff.mpr fun t _ => by rw [powerOn_entry]; rfl

theorem powerOn_storeSound (s : State) : StoreSound (powerOn s) := by
  refine storeSound_iff.mpr ⟨⟨?_, ?_, fun t => ?_⟩, fun t ht => nomatch ht⟩
  · rw [powerOn_pool, powerOn_takeBlocks, List.append_nil]
  · rw [powerOn_pool]
    exact List.pairwise_lt_range
  · rw [powerOn_entry]
    exact ⟨fun _ => rfl, by simp [TakeEntry.free], by simp [TakeEntry.free]⟩

theorem powerOn_bindingsAgree (s : State) : BindingsAgree (powerOn s) := by
  refine bindingsAgree_iff.mpr ⟨⟨fun t => ?_, fun t ht => ?_⟩, fun y => ?_⟩
  · rw [powerOn_entry]; rfl
  · rw [powerOn_entry] at ht; exact absurd rfl ht
  · cases y <;> exact ⟨fun _ => rfl, fun _ => rfl⟩

theorem Capture.reset_inRange : Capture.reset.InRange := by unfold Capture.InRange; decide
theorem Scheduler.reset_inRange : Scheduler.reset.InRange := by unfold Scheduler.InRange; decide
theorem Drive.reset_inRange : Drive.reset.InRange := by unfold Drive.InRange; decide
theorem Clock.reset_inRange : Clock.reset.InRange := by unfold Clock.InRange; decide

theorem powerOn_preserves (s : State) : Preserves s (powerOn s) where
  memory h := h
  store _ := powerOn_storeSound s
  bindings _ _ := powerOn_bindingsAgree s
  capture _ := captureSound_of_idle rfl rfl rfl
  controls _ := controlsInRange_iff.mpr ⟨Capture.reset_inRange, fun y => by cases y <;> exact Layer.reset_inRange,
    Scheduler.reset_inRange, Drive.reset_inRange, Clock.reset_inRange⟩

end Sys2Proof.Machine
end

section
/-! SUPPORT. Every command preserves the invariants and moves the clock as its rules say: the statements O29 and O58. -/

namespace Sys2Proof.Machine

/-- The three commands by which the position may fall (R45, R51, R174). -/
def Instr.MayLowerPosition (c : Instr) : Prop :=
  (∃ l v, c = .clockLocate l v) ∨ (∃ l, c = .partReset l) ∨ c = .powerOnReset

/-- What a command does to the invariants and to the clock's range and position. -/
structure Kept (c : Instr) (s t : State) : Prop where
  preserves : Preserves s t
  inRange   : ClockInRange s → ClockInRange t
  falls     : ClockInRange s → t.clk.position < s.clk.position → Instr.MayLowerPosition c

theorem Kept.of_steady {c : Instr} {s t : State} (h : Steady s t) : Kept c s t where
  preserves := h.preserves
  inRange := by unfold ClockInRange; rw [h.clk]; exact id
  falls _ hlt := by rw [h.clk] at hlt; exact absurd hlt (Nat.lt_irrefl _)

/-- A clock whose position does not fall and, where it is not STOPPED, stays below the limit. -/
theorem Kept.of_rises {c : Instr} {s t : State} (h : Preserves s t)
    (hclk : ClockInRange s → ClockInRange t ∧ s.clk.position ≤ t.clk.position) : Kept c s t where
  preserves := h
  inRange g := (hclk g).1
  falls g hlt := absurd hlt (Nat.not_lt.mpr (hclk g).2)

theorem Kept.of_lowers {c : Instr} {s t : State} (h : Preserves s t) (hclk : ClockInRange s → ClockInRange t)
    (hc : Instr.MayLowerPosition c) : Kept c s t := ⟨h, hclk, fun _ _ => hc⟩

theorem clockInRange_of_stopped {s : State} (h : s.clk.state = .stopped) (hp : s.clk.position ≤ Config.clockLimit) :
    ClockInRange s := ⟨hp, fun e => absurd h e⟩

/-- A clock left in its state and at its position. -/
theorem ClockInRange.same {s t : State} (h : ClockInRange s) (hs : t.clk.state = s.clk.state)
    (hp : t.clk.position = s.clk.position) : ClockInRange t := by
  unfold ClockInRange
  rw [hs, hp]
  exact h

/-! ### The request rows -/

theorem serve_preserves {l : Link} {q : Request} {answer : State → Answer} {s : State} (h : Preserves s (answer s).state) :
    Preserves s (serve l q answer s) := by
  unfold serve placeAnswer
  split
  · exact h.trans (.setLink ..)
  · exact .refl s

theorem serve_clk (l : Link) (q : Request) (answer : State → Answer) (s : State) :
    (serve l q answer s).clk = (answer s).state.clk ∨ serve l q answer s = s := by
  unfold serve placeAnswer
  split
  · exact .inl (setLink_clk ..)
  · exact .inr rfl

/-- A request row keeps what its answer keeps. -/
theorem Kept.serve {c : Instr} {l : Link} {q : Request} {answer : State → Answer} {s : State}
    (h : Kept c s (answer s).state) : Kept c s (serve l q answer s) := by
  obtain hclk | hs := serve_clk l q answer s
  · exact ⟨serve_preserves h.preserves, fun g => (h.inRange g).same (by rw [hclk]) (by rw [hclk]),
      fun g hlt => h.falls g (hclk ▸ hlt)⟩
  · rw [hs]; exact .of_steady (.refl s)

/-- A request row whose answer leaves the part as it was. -/
theorem Kept.serve_same {c : Instr} {l : Link} {q : Request} {answer : State → Answer} {s : State}
    (h : (answer s).state = s) : Kept c s (Machine.serve l q answer s) :=
  .serve (by rw [h]; exact .of_steady (.refl s))

theorem Kept.serve_steady {c : Instr} {l : Link} {q : Request} {answer : State → Answer} {s : State}
    (h : Steady s (answer s).state) : Kept c s (Machine.serve l q answer s) := .serve (.of_steady h)

/-- A request row of the blocks that keep the clock. -/
theorem Kept.serve_keeps {c : Instr} {l : Link} {q : Request} {answer : State → Answer} {s : State}
    (h : Preserves s (answer s).state) (k : (answer s).state.clk = s.clk) : Kept c s (Machine.serve l q answer s) :=
  .serve_steady ⟨h, k⟩

/-! ### The answers that keep the clock -/

theorem answerCaptureStart_keeps (r : PedalReadings) (s : State) : Keeps s (answerCaptureStart r s).state := by
  unfold answerCaptureStart
  split
  · exact .refl s
  · split
    · exact .refl s
    · dsimp only
      split
      · exact (Keeps.inner ..).trans (captureFrame_keeps ..)
      · exact .inner ..

theorem answerCaptureStop_keeps (s : State) : Keeps s (answerCaptureStop s).state := by
  unfold answerCaptureStop
  split
  · exact .refl s
  · exact stopCapture_keeps s
  · exact stopCapture_keeps s

theorem answerCaptureSet_keeps (r p d : Word16) (db : Byte) (s : State) : Keeps s (answerCaptureSet r p d db s).state := by
  unfold answerCaptureSet
  split
  · exact .inner ..
  · exact .refl s

theorem answerTakeOpen_keeps (l : Link) (s : State) : Keeps s (answerTakeOpen l s).state := by
  unfold answerTakeOpen
  split
  · exact .refl s
  · exact .inner ..

theorem answerAppend_keeps (l : Link) (take : Byte) (rs : List Record) (s : State) :
    Keeps s (answerAppend l take rs s).state := by
  unfold answerAppend
  split
  · exact .refl s
  · exact .inner ..

theorem answerClose_keeps (l : Link) (take : Byte) (e : Word32) (s : State) : Keeps s (answerClose l take e s).state := by
  unfold answerClose
  split
  · exact .refl s
  · split
    · exact .refl s
    · exact .inner ..

theorem answerErase_keeps (take : Byte) (s : State) : Keeps s (answerErase take s).state := by
  unfold answerErase
  split
  · exact .refl s
  · dsimp only
    split
    · exact .refl s
    · exact .refl s
    · split
      · exact .refl s
      · exact .inner ..

theorem answerLayerBind_keeps (link : Link) (layer source take : Byte) (s : State) :
    Keeps s (answerLayerBind link layer source take s).state := by
  unfold answerLayerBind
  split
  · exact .refl s
  · dsimp only
    split
    · exact .refl s
    · split
      · exact .refl s
      · split
        · exact .refl s
        · split
          · exact .setLayer ..
          · split
            · exact .refl s
            · split
              · exact .refl s
              · exact .refl s
              · exact ((Keeps.inner ..).trans (.setLayer ..)).trans (refill_keeps ..)

theorem answerLayerMarks_keeps (layer low high : Byte) (s : State) : Keeps s (answerLayerMarks layer low high s).state := by
  unfold answerLayerMarks
  split
  · exact .refl s
  · exact (Keeps.setLayer ..).trans (refill_keeps ..)

theorem answerLayerFeed_keeps (link : Link) (layer : Byte) (rs : List Record) (s : State) :
    Keeps s (answerLayerFeed link layer rs s).state := by
  unfold answerLayerFeed
  split
  · exact .refl s
  · split
    · exact .refl s
    · exact .refl s
    · split
      · exact feedAll_keeps ..
      · exact .refl s
    · exact .refl s

theorem answerLayerSet_keeps (layer : Byte) (raw : RawSettings) (s : State) : Keeps s (answerLayerSet layer raw s).state := by
  unfold answerLayerSet
  split
  · dsimp only
    split
    · exact .setLayer ..
    · exact (Keeps.setLayer ..).trans (latch_keeps ..)
  · exact .refl s

theorem answerLayerCue_keeps (layer cueKind : Byte) (cueValue : Word32) (entryKind : Byte) (entryTick : Word32) (s : State) :
    Keeps s (answerLayerCue layer cueKind cueValue entryKind entryTick s).state := by
  unfold answerLayerCue
  split
  · dsimp only
    split
    · exact .refl s
    · split
      · exact .refl s
      · split
        · exact .refl s
        · split
          · exact .refl s
          · split
            · exact .refl s
            · split
              · split
                · exact .refl s
                · exact (cueTake_keeps ..).trans (enterPlaying_keeps ..)
              · exact (cueStream_keeps ..).trans (enterPlaying_keeps ..)
  · exact .refl s

theorem answerLayerFree_keeps (layer : Byte) (s : State) : Keeps s (answerLayerFree layer s).state := by
  unfold answerLayerFree
  split
  · exact .refl s
  · split
    · exact .refl s
    · exact (((freePlan_keeps ..).trans (letGoReported_keeps ..)).trans (releaseLayer_keeps ..)).trans (takeAll_keeps _)

theorem thenTake_keeps {a : Answer} {s : State} (h : Keeps s a.state) : Keeps s a.thenTake.state := by
  unfold Answer.thenTake
  split
  · exact h
  · exact h.trans (takeAll_keeps _)

theorem answerAllOff_keeps (s : State) : Keeps s (answerAllOff s).state := by
  have hzero : ∀ (y : LayerId) (s : State), Keeps s
      (allPedals.foldl (fun s p => if (bankGet (s.layer y).demands p).isSome then setDemand y p (some 0) s else s) s) := by
    refine fun y s => .foldl (fun s p => ?_) _ s
    split
    · exact setDemand_keeps ..
    · exact .refl s
  have hoff := (clearPlan_keeps s).trans (letGoReported_keeps (fun _ => true) _)
  have hends : ∀ (b : Bool) (y : LayerId) (s : State), Keeps s (if b then endIfDone y s else s) := by
    intro b y s
    split
    · exact endIfDone_keeps y s
    · exact .refl s
  exact (((hoff.trans (hzero .l0 _)).trans (hzero .l1 _)).trans (hends _ .l0 _)).trans (hends _ .l1 _)

theorem settleRest_keeps (k : Key) (s : State) : Keeps s (settleRest k s) := by
  have h := (enterRest_keeps k s).trans (quietIfAtRest_keeps _)
  unfold settleRest
  dsimp only
  split
  · exact h.trans (reportKey_keeps ..)
  · exact h.trans (reportSupply_keeps ..)

theorem answerKeysClear_keeps (keys : BitVec 88) (s : State) : Keeps s (answerKeysClear keys s).state :=
  (Keeps.foldl (fun s k => settleRest_keeps k s) _ s).trans (takeAll_keeps _)

theorem goQuiet_keeps (s : State) : Keeps s (goQuiet s) :=
  ((Keeps.inner ..).trans (letGoReported_keeps ..)).trans (quietIfAtRest_keeps _)

theorem answerQuietEnter_keeps (s : State) : Keeps s (answerQuietEnter s).state := by
  unfold answerQuietEnter
  split
  · exact .refl s
  · dsimp only
    split
    · exact goQuiet_keeps s
    · exact goQuiet_keeps s
    · exact .refl s
    · exact .refl s

theorem answerQuietLeave_keeps (s : State) : Keeps s (answerQuietLeave s).state := by
  unfold answerQuietLeave
  dsimp only
  split
  · exact ((Keeps.inner ..).trans (reportSupply_keeps _)).trans (takeAll_keeps _)
  · exact ((enterActive_keeps s).trans (reportSupply_keeps _)).trans (takeAll_keeps _)
  · exact .refl s
  · exact .refl s

theorem answerDriveSet_keeps (slots : Byte) (vnom : Word16) (sagPercent : Byte) (s : State) :
    Keeps s (answerDriveSet slots vnom sagPercent s).state := by
  have hset : Keeps s (judgeSag { s with drive := { s.drive with
      slots := clampNat 4 16 slots.toNat, vnom := clampNat 100 1000 vnom.toNat
      sagPercent := clampNat 60 95 sagPercent.toNat } }) := (Keeps.inner ..).trans (judgeSag_keeps _)
  unfold answerDriveSet
  refine hset.trans (Keeps.trans ?_ (takeAll_keeps _))
  split
  · exact respond_keeps ..
  · exact (arbiter_keeps _).trans (reportSupply_keeps _)

/-! ### The clock's own commands -/

theorem Clock.advanced_state (c : Clock) : c.advanced.clk.state = c.state := by
  unfold Clock.advanced
  dsimp only
  split <;> rfl

/-- An advance withheld leaves the position, and no advance lowers it or takes it past the limit (R40, R50). -/
theorem Clock.advanced_position {c : Clock} (h : c.position ≤ Config.clockLimit) :
    (c.advanced.moved = false → c.advanced.clk.position = c.position) ∧ c.position ≤ c.advanced.clk.position ∧
      c.advanced.clk.position ≤ Config.clockLimit := by
  unfold Clock.advanced
  dsimp only
  split
  · exact ⟨fun _ => rfl, Nat.le_refl _, h⟩
  · refine ⟨by simp, ?_, Nat.min_le_left ..⟩
    dsimp only
    split <;> omega

theorem advanceClock_kept (c : Instr) (r : PedalReadings) (order : List Phase) (s : State) :
    Kept c s (advanceClock r order s) := by
  refine .of_rises (advanceClock_preserves ..) fun h => ?_
  obtain ⟨hstay, hup, hlimit⟩ := Clock.advanced_position h.1
  unfold advanceClock
  dsimp only
  split
  · split
    · next hmoved =>
      have hpos := hstay (by simpa using hmoved)
      exact ⟨h.same s.clk.advanced_state hpos, hpos.ge⟩
    · split
      · rw [raiseBoth_clk, stopClock_clk]
        exact ⟨clockInRange_of_stopped (by rw [raiseBoth_clk, stopClock_clk]) (by rwa [raiseBoth_clk, stopClock_clk]), hup⟩
      · next hend =>
        have hclk := (instantWork_keeps r order .advance s.clk.advanced.frame { s with clk := s.clk.advanced.clk }).clk
        refine ⟨?_, by rw [hclk]; exact hup⟩
        unfold ClockInRange
        rw [hclk]
        exact ⟨hlimit, fun _ => lt_of_le_of_ne hlimit hend⟩
  · exact ⟨h, Nat.le_refl _⟩

theorem answerClockRun_clk (r : PedalReadings) (order : List Phase) (s : State) :
    (answerClockRun r order s).state.clk = s.clk ∨
      (s.clk.state = .stopped → s.clk.position ≠ Config.clockLimit) ∧
        (answerClockRun r order s).state.clk = s.clk.entering s.now := by
  unfold answerClockRun
  split
  · exact .inl rfl
  · split
    · exact .inl rfl
    · next hp => exact .inr ⟨fun e => by simp [hp] at e, (instantWork_keeps ..).clk⟩
    · split
      · exact .inl rfl
      · next hne => exact .inr ⟨fun _ => hne, (instantWork_keeps ..).clk⟩

theorem answerClockRun_kept (c : Instr) (r : PedalReadings) (order : List Phase) (s : State) :
    Kept c s (answerClockRun r order s).state := by
  refine .of_rises (answerClockRun_preserves ..) fun h => ?_
  obtain hclk | ⟨hne, hclk⟩ := answerClockRun_clk r order s
  · exact ⟨h.same (by rw [hclk]) (by rw [hclk]), by rw [hclk]⟩
  · refine ⟨?_, by rw [hclk]; exact Nat.le_refl _⟩
    unfold ClockInRange
    rw [hclk]
    refine ⟨h.1, fun _ => ?_⟩
    by_cases hs : s.clk.state = .stopped
    · exact lt_of_le_of_ne h.1 (hne hs)
    · exact h.2 hs

theorem answerClockPause_kept (c : Instr) (s : State) : Kept c s (answerClockPause s).state := by
  refine .of_rises (answerClockPause_preserves s) fun h => ?_
  unfold answerClockPause
  split
  · exact ⟨h, Nat.le_refl _⟩
  · exact ⟨h, Nat.le_refl _⟩
  · next hrun =>
    have hclk := (((latchBoth_keeps _).trans (capturePause_keeps _)).trans (withdrawQueue_keeps _) :
      Keeps { s with clk := { s.clk with state := .paused } } _).clk
    dsimp only [clockAnswer]
    refine ⟨?_, by rw [hclk]⟩
    unfold ClockInRange
    rw [hclk]
    exact ⟨h.1, fun _ => h.2 (by simp [hrun])⟩

theorem answerClockStop_kept (c : Instr) (s : State) : Kept c s (answerClockStop s).state := by
  refine .of_rises (stopClock_preserves s) fun h => ?_
  dsimp only [answerClockStop, clockAnswer]
  refine ⟨clockInRange_of_stopped (by rw [stopClock_clk]) (by rw [stopClock_clk]; exact h.1), by rw [stopClock_clk]⟩

theorem answerClockLocate_kept {l : Link} (p : Word32) (s : State) :
    Kept (.clockLocate l p) s (answerClockLocate p s).state := by
  refine .of_lowers (answerClockLocate_preserves p s) (fun h => ?_) (.inl ⟨l, p, rfl⟩)
  obtain ⟨-, hhi⟩ := clampInt_bounds (lo := 0) (hi := Config.clockLimit) (by decide) p.toInt
  unfold answerClockLocate
  split
  · next hstop => exact clockInRange_of_stopped hstop (Int.toNat_le.mpr hhi)
  · exact h

theorem answerClockSource_kept (c : Instr) (b : Byte) (n : Word16) (s : State) :
    Kept c s (answerClockSource b n s).state := by
  refine .of_rises (answerClockSource_preserves b n s) fun h => ?_
  unfold answerClockSource
  split
  · exact ⟨h.same rfl rfl, Nat.le_refl _⟩
  · split
    · exact ⟨h.same rfl rfl, Nat.le_refl _⟩
    · exact ⟨h, Nat.le_refl _⟩

theorem syncPulse_kept (c : Instr) (s : State) : Kept c s (syncPulse s) := by
  refine .of_rises (syncPulse_preserves s) fun h => ?_
  unfold syncPulse
  dsimp only
  split
  · split
    · exact ⟨h.same rfl rfl, Nat.le_refl _⟩
    · exact ⟨h.same rfl rfl, Nat.le_refl _⟩
  · exact ⟨h, Nat.le_refl _⟩

theorem lossExpired_kept (c : Instr) (s : State) : Kept c s (lossExpired s) := by
  refine .of_rises (lossExpired_preserves s) fun h => ?_
  unfold lossExpired
  split
  · exact ⟨h.same rfl rfl, Nat.le_refl _⟩
  · exact ⟨h, Nat.le_refl _⟩

theorem takePartReset_kept (l : Link) (s : State) : Kept (.partReset l) s (takePartReset l s) := by
  unfold takePartReset placeAnswer answerPartReset
  split
  · refine .of_lowers ((softReset_preserves l s).trans (.setLink ..)) (fun _ => ?_) (.inr (.inl ⟨l, rfl⟩))
    obtain ⟨hstate, hpos⟩ := softReset_clk l s
    exact clockInRange_of_stopped (by rw [setLink_clk]; exact hstate) (by rw [setLink_clk, hpos]; exact Nat.zero_le _)
  · exact .of_steady (.refl s)

theorem powerOn_kept (s : State) : Kept .powerOnReset s (powerOn s) :=
  .of_lowers (powerOn_preserves s) (fun _ => clockInRange_of_stopped rfl (Nat.zero_le _)) (.inr (.inr rfl))

/-! ### Every command -/

theorem onWires_steady (l : Link) (b : Bool) (f : LinkRec → LinkRec) (s : State) : Steady s (onWires l b f s) := by
  unfold onWires
  split
  · exact .refl s
  · exact .setLink ..

theorem exec_kept {c : Instr} {s t : State} (h : exec c s = .next t) : Kept c s t := by
  cases c with
  | powerOnReset => cases h; exact powerOn_kept s
  | keySample rs => cases h; exact .of_steady (keySample_steady rs s)
  | gate1Event k dir =>
    cases h
    cases dir with
    | toward => exact .of_steady ((captureGate1_preserves k s).steady (captureGate1_keeps k s))
    | away => exact .of_steady (.refl s)
  | gate2Event k dir =>
    cases h
    cases dir with
    | toward => exact .of_steady (gate2_steady k s)
    | away => exact .of_steady (.refl s)
  | windowExpiry k => cases h; exact .of_steady (windowEnd_steady k s)
  | clockAdvance r order => cases h; exact advanceClock_kept _ r order s
  | servicePeriod => cases h; exact .of_steady (servicePeriodEnd_steady s)
  | integrityCheck => cases h; exact .of_steady (integrityPeriod_steady s)
  | supplyReading v => cases h; exact .of_steady (readSupply_steady v s)
  | syncPulse => cases h; exact syncPulse_kept _ s
  | lossIntervalExpiry => cases h; exact lossExpired_kept _ s
  | strikeGraceExpiry k => cases h; exact .of_steady (strikeGrace_steady k s)
  | reboundEnd k => cases h; exact .of_steady (reboundOver_steady k s)
  | letGoExpiry k => cases h; exact .of_steady (letGoOver_steady k s)
  | wakeExpiry => cases h; exact .of_steady (wakeOver_steady s)
  | pulseRequest => cases h; exact .of_steady (requestPulse_steady s)
  | pulseFire => cases h; exact .of_steady (firePending_steady s)
  | pulseGraceExpiry k => cases h; exact .of_steady (pulseGrace_steady k s)
  | restDeadline => cases h; exact .of_steady (restDeadlineReached_steady s)
  | requestTransaction l bytes b => cases h; exact .of_steady (onWires_steady ..)
  | transactionDiscarded l bytes => cases h; exact .of_steady (.refl s)
  | fetch l b => cases h; exact .of_steady (onWires_steady ..)
  | captureStart l r =>
    cases h; exact .serve_keeps (answerCaptureStart_preserves r s) (answerCaptureStart_keeps r s).clk
  | captureStop l => cases h; exact .serve_keeps (answerCaptureStop_preserves s) (answerCaptureStop_keeps s).clk
  | captureSet l r p d db =>
    cases h; exact .serve_keeps (answerCaptureSet_preserves r p d db s) (answerCaptureSet_keeps r p d db s).clk
  | takeOpen l => cases h; exact .serve_keeps (answerTakeOpen_preserves l s) (answerTakeOpen_keeps l s).clk
  | append l take rs => cases h; exact .serve_keeps (answerAppend_preserves l take rs s) (answerAppend_keeps l take rs s).clk
  | close l take e => cases h; exact .serve_keeps (answerClose_preserves l take e s) (answerClose_keeps l take e s).clk
  | read l take start count => cases h; exact .serve_same (answerRead_state take start count s)
  | info l take => cases h; exact .serve_same (answerInfo_state take s)
  | erase l take => cases h; exact .serve_keeps (answerErase_preserves take s) (answerErase_keeps take s).clk
  | clockRun l r order => cases h; exact .serve (answerClockRun_kept _ r order s)
  | clockPause l => cases h; exact .serve (answerClockPause_kept _ s)
  | clockStop l => cases h; exact .serve (answerClockStop_kept _ s)
  | clockLocate l p => cases h; exact .serve (answerClockLocate_kept p s)
  | clockSource l b n => cases h; exact .serve (answerClockSource_kept _ b n s)
  | mapRead l cls number => cases h; exact .serve_same (answerMapRead_state cls number s)
  | mapWrite l b => cases h; exact .serve_steady (answerMapWrite_steady b s)
  | mapClear l => cases h; exact .serve_steady (answerMapClear_steady s)
  | mapAccept l => cases h; exact .serve_steady (answerMapAccept_steady s)
  | layerBind l y source take =>
    cases h; exact .serve_keeps (answerLayerBind_preserves l y source take s) (answerLayerBind_keeps l y source take s).clk
  | layerMarks l y low high =>
    cases h; exact .serve_keeps (answerLayerMarks_preserves y low high s) (answerLayerMarks_keeps y low high s).clk
  | layerFeed l y rs =>
    cases h
    exact .serve_keeps (thenTake_preserves (answerLayerFeed_preserves l y rs s)) (thenTake_keeps (answerLayerFeed_keeps l y rs s)).clk
  | layerSet l y raw => cases h; exact .serve_keeps (answerLayerSet_preserves y raw s) (answerLayerSet_keeps y raw s).clk
  | layerCue l y ck cv ek et =>
    cases h
    exact .serve_keeps (thenTake_preserves (answerLayerCue_preserves y ck cv ek et s))
      (thenTake_keeps (answerLayerCue_keeps y ck cv ek et s)).clk
  | layerFree l y => cases h; exact .serve_keeps (answerLayerFree_preserves y s) (answerLayerFree_keeps y s).clk
  | layerInfo l y => cases h; exact .serve_same (answerLayerInfo_state y s)
  | dropsRead l => cases h; exact .serve_same rfl
  | planSet l late rise => cases h; exact .serve_keeps (answerPlanSet_preserves late rise s) rfl
  | allOff l =>
    cases h; exact .serve_keeps (thenTake_preserves (answerAllOff_preserves s)) (thenTake_keeps (answerAllOff_keeps s)).clk
  | keysClear l keys => cases h; exact .serve_keeps (answerKeysClear_preserves keys s) (answerKeysClear_keeps keys s).clk
  | quietEnter l => cases h; exact .serve_keeps (answerQuietEnter_preserves s) (answerQuietEnter_keeps s).clk
  | quietLeave l => cases h; exact .serve_keeps (answerQuietLeave_preserves s) (answerQuietLeave_keeps s).clk
  | driveSet l n v p => cases h; exact .serve_keeps (answerDriveSet_preserves n v p s) (answerDriveSet_keeps n v p s).clk
  | driveInfo l first count => cases h; exact .serve_same (answerDriveInfo_state first count s)
  | calRun l kind keys stop v n => cases h; exact .serve_steady (answerCalRun_steady kind keys stop v n s)
  | calStop l => cases h; exact .serve_steady (answerCalStop_steady s)
  | status l => cases h; exact .serve_same rfl
  | noticeClear l flags => cases h; exact .serve_steady (.setLink ..)
  | noticeMask l mask => cases h; exact .serve_steady (.setLink ..)
  | partReset l => cases h; exact takePartReset_kept l s
  | resetLineLow => cases h; exact .of_steady (.inert ..)
  | fetchSelectInactive l shifted => cases h; exact .of_steady (onWires_steady ..)

/-- A step with no command waiting, or one command carried out on the part with the rest of the queue. -/
theorem step_cases {s t : State} (h : step s = .next t) :
    s.pending = [] ∧ t = s.tick ∨ ∃ c rest, s.pending = c :: rest ∧ exec c (s.withPending rest) = .next t := by
  unfold step at h
  split at h
  · next hp => cases h; exact .inl ⟨hp, rfl⟩
  · next c rest hp => exact .inr ⟨c, rest, hp, h⟩

theorem step_preserves {s t : State} (h : step s = .next t) : Preserves s t := by
  obtain ⟨-, rfl⟩ | ⟨c, rest, -, hc⟩ := step_cases h
  · exact .inert ..
  · exact (exec_kept hc).preserves.after (.inert ..)

/-- Settles O29: each command is a chain of operations, each of which preserves the four invariants. -/
theorem everyStepKeepsTheStoreSound : Obligations.EveryStepKeepsTheStoreSound := by
  intro s t h
  have hp := step_preserves h
  exact ⟨hp.memory, hp.store, hp.bindings, hp.capture⟩

/-- Settles O58: the configuration values by the same chain, the clock's range and position command by command. -/
theorem everyStepKeepsTheRanges : Obligations.EveryStepKeepsTheRanges := by
  intro s t h
  refine ⟨(step_preserves h).controls, fun hr => ?_, fun hr hlt => ?_⟩
  · obtain ⟨-, rfl⟩ | ⟨c, rest, -, hc⟩ := step_cases h
    · exact hr
    · exact (exec_kept hc).inRange hr
  · obtain ⟨-, rfl⟩ | ⟨c, rest, hp, hc⟩ := step_cases h
    · exact absurd hlt (Nat.lt_irrefl _)
    · exact ⟨c, rest, hp, (exec_kept hc).falls hr hlt⟩

end Sys2Proof.Machine
end

section
/-! SUPPORT. Records written into the capture take, and where the keys' events write one: the gate events, the window's end,
a key's sample, and a key taken by the drive unit (R5 to R13, R19). -/

namespace Sys2Proof.Machine

/-! ### A record written (R10, R19) -/

theorem captureWrite_of_not_recording {s : State} (kind target value time : Nat) (h : s.cap.state ≠ .recording) :
    captureWrite kind target value time s = s := by
  unfold captureWrite
  split
  · next hs _ => exact absurd hs h
  · rfl

theorem captureWrite_of_room {s : State} {t : TakeNo} (kind target value time : Nat) (hs : s.cap.state = .recording)
    (ht : s.cap.target = some t) (w : MemoryCanonical s) (room : s.store.HasRoom t) :
    ∃ st', s.store.Appended t (mkRecord kind target value time) st' ∧
      captureWrite kind target value time s = { s with store := st' } := by
  obtain ⟨st', hst⟩ := appendRecord_of_room (mkRecord kind target value time) room
  exact ⟨st', appended_of_appendRecord hst w, by simp only [captureWrite, hs, ht, hst]⟩

theorem captureWrite_of_no_room {s : State} {t : TakeNo} {o : Nat} (kind target value time : Nat)
    (hs : s.cap.state = .recording) (ht : s.cap.target = some t) (ho : s.cap.origin = some o) (w : MemoryCanonical s)
    (full : ¬ s.store.HasRoom t) :
    ∃ st', s.store.ClosedAt t time st' ∧ captureWrite kind target value time s =
      raiseBoth .storeFull
        { s with store := st', cap := { s.cap with state := .idle, target := none, origin := none } } := by
  refine ⟨s.store.closeTake t time, closedAt_closeTake t time w, ?_⟩
  have hnone := appendRecord_of_no_room (mkRecord kind target value time) full
  simp only [captureWrite, hs, ht, hnone, closeCapture_eq time ht, ho, Store.withOrigin]

/-- A record written while RECORDING into a take whose origin is fixed: appended where there is room, and the capture take
closed in its place where there is none. -/
theorem captureWrite_recorded {s : State} {t : TakeNo} {o : Nat} (kind target value time : Nat)
    (hs : s.cap.state = .recording) (ht : s.cap.target = some t) (ho : s.cap.origin = some o) (w : MemoryCanonical s) :
    (s.store.HasRoom t → ∃ st', s.store.Appended t (mkRecord kind target value time) st' ∧
      captureWrite kind target value time s = { s with store := st' }) ∧
    (¬ s.store.HasRoom t → ∃ st', s.store.ClosedAt t time st' ∧ captureWrite kind target value time s =
      raiseBoth .storeFull
        { s with store := st', cap := { s.cap with state := .idle, target := none, origin := none } }) :=
  ⟨captureWrite_of_room kind target value time hs ht w, captureWrite_of_no_room kind target value time hs ht ho w⟩

theorem captureRelease_of_not_recording {k : Key} {s : State} (h : s.cap.state ≠ .recording) : captureRelease k s = s :=
  if_neg h

theorem takeTime_of_origin {s : State} {o : Nat} (h : s.cap.origin = some o) : s.takeTime = s.clk.position - o := by
  simp [State.takeTime, h]

theorem driveOwned_eq_false {s : State} {k : Key} : s.driveOwned k = false ↔ (s.driveKey k).state = .rest := by
  simp [State.driveOwned]

theorem driveOwned_eq_true {s : State} {k : Key} : s.driveOwned k = true ↔ (s.driveKey k).state ≠ .rest := by
  simp [State.driveOwned]

@[simp] theorem setCapKey_setCapKey (s : State) (k : Key) (r q : CapKey) :
    (s.setCapKey k r).setCapKey k q = s.setCapKey k q := by
  simp [State.setCapKey, bankSet]

/-- The RELEASE of a key whose capture record has just been replaced. -/
theorem captureRelease_setCapKey {k : Key} {s : State} (c : CapKey) (h : s.cap.state = .recording) :
    captureRelease k (s.setCapKey k c) =
      captureWrite kindRelease k.val 0 s.takeTime (s.setCapKey k { c with held := false }) := by
  refine (if_pos h).trans ?_
  simp only [capKey_setCapKey_same, setCapKey_setCapKey]
  rfl

/-! ### Gate 1 (R5) -/

/-- Settles O16: the undriven key enters GATE1, the driven one keeps its state. -/
theorem gateOneStartsTheWindow : Obligations.GateOneStartsTheWindow := by
  intro k s
  have hrest : (s.driveKey k).state = .rest → exec (.gate1Event k .toward) s =
      .next (s.setCapKey k { (s.capKey k) with state := .gate1, gate1At := some s.now }) := fun h => by
    change Host.Outcome.next (captureGate1 k s) = _
    simp [captureGate1, driveOwned_eq_false.mpr h]
  have howned : (s.driveKey k).state ≠ .rest → exec (.gate1Event k .toward) s =
      .next (s.setCapKey k { (s.capKey k) with gate1At := some s.now }) := fun h => by
    change Host.Outcome.next (captureGate1 k s) = _
    simp [captureGate1, driveOwned_eq_true.mpr h]
  refine ⟨hrest, howned, fun t ht => ?_, rfl, rfl⟩
  by_cases h : (s.driveKey k).state = .rest
  · rw [hrest h] at ht
    cases ht
    simp [CapKey.windowExpiry, Config.windowMicros]
  · rw [howned h] at ht
    cases ht
    simp [CapKey.windowExpiry, Config.windowMicros]

/-! ### Gate 2 (R6, R7) -/

theorem gate2_undriven {k : Key} {s : State} (h : (s.driveKey k).state = .rest) : gate2 k s = captureGate2 k s := by
  simp [gate2, driveOwned_eq_false.mpr h]

theorem captureGate2_of_not_gate1 {k : Key} {s : State} (h : (s.capKey k).state ≠ .gate1) : captureGate2 k s = s := by
  unfold captureGate2
  dsimp only
  split
  · next hs _ => exact absurd hs h
  · rfl

/-- The hammer spacing of an entry, the stand-in where it is UNSET (R7). -/
theorem spacing_eq (e : KeyEntry) : e.spacing = if e.state = 1 then e.s.toNat else 3000 := by
  by_cases h : e.state = 1 <;> simp [KeyEntry.spacing, KeyEntry.isSet, h]

theorem captureGate2_of_gate1 {k : Key} {s : State} {g : Nat} (h : (s.capKey k).state = .gate1)
    (hg : (s.capKey k).gate1At = some g) :
    captureGate2 k s =
      captureWrite kindStrike k.val (hammerVelocity (bankGet s.map.keys k).spacing (s.now - g)) s.takeTime
        (s.setCapKey k { (s.capKey k) with
          state := .down, gate1At := none, held := (s.capKey k).held || (s.cap.state = .recording : Bool) }) := by
  simp only [captureGate2, passageVelocity, h, hg, Option.map_some]
  rfl

/-- Settles O17: the passage from GATE1, with the record appended, not written, or lost. -/
theorem gateTwoCompletesAStrike : Obligations.GateTwoCompletesAStrike := by
  have hexec : ∀ (k : Key) (s : State), (s.driveKey k).state = .rest →
      exec (.gate2Event k .toward) s = .next (captureGate2 k s) :=
    fun k s h => congrArg Host.Outcome.next (gate2_undriven h)
  have hrecording : ∀ (k : Key) (s : State) (g o : Nat), (s.capKey k).state = .gate1 → (s.capKey k).gate1At = some g →
      s.cap.state = .recording → s.cap.origin = some o →
      captureGate2 k s = captureWrite kindStrike k.val
        (hammerVelocity (if (bankGet s.map.keys k).state = 1 then (bankGet s.map.keys k).s.toNat else 3000) (s.now - g))
        (s.clk.position - o)
        (s.setCapKey k { (s.capKey k) with state := .down, gate1At := none, held := true }) := fun k s g o h hg hs ho => by
    rw [captureGate2_of_gate1 h hg, takeTime_of_origin ho, spacing_eq]
    simp [hs]
  refine ⟨fun k s hrest => ⟨fun g h hg => ⟨fun hs => ?_, fun t o hs ht ho w room => ?_⟩, fun h => ?_⟩,
    fun k s t g o hrest h hg hs ht ho w full => ?_⟩
  · rw [hexec k s hrest, captureGate2_of_gate1 h hg, captureWrite_of_not_recording]
    · simp [hs]
    · exact hs
  · rw [hexec k s hrest, hrecording k s g o h hg hs ho]
    obtain ⟨st', hst, heq⟩ := captureWrite_of_room (s := s.setCapKey k _) kindStrike k.val _ (s.clk.position - o) hs ht w room
    exact ⟨st', hst, congrArg _ heq⟩
  · rw [hexec k s hrest, captureGate2_of_not_gate1 h]
  · rw [hexec k s hrest, hrecording k s g o h hg hs ho]
    obtain ⟨st', hst, heq⟩ :=
      captureWrite_of_no_room (s := s.setCapKey k _) kindStrike k.val _ (s.clk.position - o) hs ht ho w full
    exact ⟨st', hst, congrArg _ heq⟩

/-! ### The window's end (R8, R11) -/

theorem windowEnd_of_due {k : Key} {s : State} {g : Nat} (hg : (s.capKey k).gate1At = some g) (h : g + 60000 ≤ s.now) :
    windowEnd k s = captureWindowEnd k s := by
  have hexp : (s.capKey k).windowExpiry = some (g + 60000) := by simp [CapKey.windowExpiry, hg, Config.windowMicros]
  simp only [windowEnd, hexp, if_pos h]

/-- Settles O18: the rows of R8's table. -/
theorem windowExpiryFollowsTheTable : Obligations.WindowExpiryFollowsTheTable := by
  intro k s g hg hdue
  dsimp only
  have hexec : exec (.windowExpiry k) s = .next (captureWindowEnd k s) := congrArg Host.Outcome.next (windowEnd_of_due hg hdue)
  rw [hexec]
  refine ⟨fun h => ?_, fun hrest hgate => ?_⟩
  · obtain h | h := h
    · simp [captureWindowEnd, driveOwned_eq_true.mpr h]
    · by_cases hd : (s.driveKey k).state = .rest
      · cases hc : (s.capKey k).state <;> simp_all [captureWindowEnd, driveOwned_eq_false.mpr hd]
      · simp [captureWindowEnd, driveOwned_eq_true.mpr hd]
  · have hown := driveOwned_eq_false.mpr hrest
    refine ⟨fun ⟨hdown, hheld⟩ => ?_, fun ⟨hdown, hheld, hrec⟩ t o ht ho w => ?_, fun ⟨hdown, hrel⟩ => ?_,
      fun ⟨hdown, hrel, hheld⟩ => ?_, fun ⟨hdown, hrel, hheld, hrec⟩ t o ht ho w => ?_⟩
    · cases hk : (s.capKey k).held with
      | true => simp [captureWindowEnd, hown, hgate, hdown, hk]
      | false =>
        have hrec : s.cap.state ≠ .recording := by simpa [hk] using hheld
        simp only [captureWindowEnd, hown, hgate, hdown, hk]
        rw [if_neg (by simp), if_pos trivial, if_neg (by simp), captureWrite_of_not_recording]
        · simp [hrec]
        · exact hrec
    · have heq : captureWindowEnd k s = captureWrite kindDepress k.val 0 (s.clk.position - o)
          (s.setCapKey k { (s.capKey k) with state := .down, gate1At := none, held := true }) := by
        rw [← takeTime_of_origin ho]
        simp [captureWindowEnd, hown, hgate, hdown, hheld, hrec]
        rfl
      rw [heq]
      obtain ⟨hroom, hfull⟩ := captureWrite_recorded (s := s.setCapKey k _) kindDepress k.val 0 (s.clk.position - o) hrec ht ho w
      exact ⟨fun room => (hroom room).imp fun _ h => ⟨h.1, congrArg _ h.2⟩,
        fun full => (hfull full).imp fun _ h => ⟨h.1, congrArg _ h.2⟩⟩
    · simp [captureWindowEnd, hown, hgate, not_lt.mpr hdown, hrel]
    · have hn := not_le.mpr hrel
      cases hk : (s.capKey k).held with
      | false => simp [captureWindowEnd, hown, hgate, not_lt.mpr hdown, hn, hk]
      | true =>
        have hrec : s.cap.state ≠ .recording := by simpa [hk] using hheld
        simp only [captureWindowEnd, hown, hgate, hk]
        rw [if_neg (by simp), if_neg (not_lt.mpr hdown), if_neg hn, if_pos trivial, captureRelease_of_not_recording (s := s.setCapKey k _) hrec]
    · have heq : captureWindowEnd k s = captureWrite kindRelease k.val 0 (s.clk.position - o)
          (s.setCapKey k { (s.capKey k) with state := .up, gate1At := none, held := false }) := by
        rw [← takeTime_of_origin ho]
        simp only [captureWindowEnd, hown, hgate, hheld]
        rw [if_neg (by simp), if_neg (not_lt.mpr hdown), if_neg (not_le.mpr hrel), if_pos trivial,
          captureRelease_setCapKey _ hrec]
      rw [heq]
      obtain ⟨hroom, hfull⟩ := captureWrite_recorded (s := s.setCapKey k _) kindRelease k.val 0 (s.clk.position - o) hrec ht ho w
      exact ⟨fun room => (hroom room).imp fun _ h => ⟨h.1, congrArg _ h.2⟩,
        fun full => (hfull full).imp fun _ h => ⟨h.1, congrArg _ h.2⟩⟩

end Sys2Proof.Machine
end

section
/-! SUPPORT. The capture unit's part of a drive state change and of a key's sample (R9, R12, R13), one pedal's frame sample
(R14, R15), and CAPTURE SET and CAPTURE STOP (R18, R20). -/

namespace Sys2Proof.Machine

/-! ### Where a note ends (R9, R12, R13) -/

theorem putDriveKey_leaving {k : Key} {d : DriveKey} {s : State} (h : (s.driveKey k).state = .rest) (hd : d.state ≠ .rest) :
    putDriveKey k d s = ownKey k (s.setDriveKey k d) := by
  simp [putDriveKey, h, hd]

theorem putDriveKey_returning {k : Key} {d : DriveKey} {s : State} (h : (s.driveKey k).state ≠ .rest) (hd : d.state = .rest) :
    putDriveKey k d s = disownKey k (s.setDriveKey k d) := by
  simp [putDriveKey, h, hd]

theorem putDriveKey_staying {k : Key} {d : DriveKey} {s : State} (h : (s.driveKey k).state = .rest ↔ d.state = .rest) :
    putDriveKey k d s = s.setDriveKey k d := by
  rw [putDriveKey, if_neg (fun c => c.2 (h.mp c.1)), if_neg (fun c => c.1 (h.mpr c.2))]

theorem ownKey_of_not_held {k : Key} {s : State} (h : (s.capKey k).held = false) :
    ownKey k s = s.setCapKey k { (s.capKey k) with state := .up, gate1At := none, held := false } := by
  simp [ownKey, h]

theorem ownKey_of_held {k : Key} {s : State} (h : (s.capKey k).held = true) :
    ownKey k s = captureWrite kindRelease k.val 0 s.takeTime
      (s.setCapKey k { (s.capKey k) with state := .up, gate1At := none, held := false }) := by
  simp only [ownKey, h, if_pos]
  rfl

theorem ownKey_of_nothing_written {k : Key} {s : State} (h : (s.capKey k).held = false ∨ s.cap.state ≠ .recording) :
    ownKey k s = s.setCapKey k { (s.capKey k) with state := .up, gate1At := none, held := false } := by
  cases hk : (s.capKey k).held with
  | false => exact ownKey_of_not_held hk
  | true =>
    have hrec : s.cap.state ≠ .recording := by simpa [hk] using h
    rw [ownKey_of_held hk]
    exact captureWrite_of_not_recording (s := s.setCapKey k _) _ _ _ _ hrec

/-- A sample below the release threshold of a held, undriven key while RECORDING (R9). -/
theorem captureSample_released {k : Key} {p : KeyPos} {s : State} (hs : s.cap.state = .recording)
    (hrest : (s.driveKey k).state = .rest) (hp : p.val < s.cap.release) (hheld : (s.capKey k).held = true)
    (hup : (s.capKey k).state ≠ .up) :
    captureSample k p s = captureWrite kindRelease k.val 0 s.takeTime
      (s.setCapKey k
        { (s.capKey k) with
          state := if (s.capKey k).state = .down then .up else .gate1, lastPos := p, held := false
          releaseAt := s.cap.release }) := by
  have hcond : ¬ (s.driveOwned k = true ∨ s.cap.release ≤ p.val) := by
    simp [driveOwned_eq_false.mpr hrest, hp]
  simp only [captureSample, if_neg hcond]
  cases hc : (s.capKey k).state with
  | up => exact absurd hc hup
  | gate1 =>
    simp only [hheld, if_pos]
    rw [captureRelease_setCapKey _ hs]
    simp
  | down =>
    simp only [hheld, if_pos, setCapKey_setCapKey]
    rw [captureRelease_setCapKey _ hs]

/-- Settles O20: a key leaving REST, a key returning to it, and a released key's sample. -/
theorem notesEndInTheTake : Obligations.NotesEndInTheTake := by
  refine ⟨fun k d s => ?_, fun k p s t o hs ht ho w hrest hp hheld hup => ?_⟩
  · refine ⟨fun hrest hd => ⟨fun h => ?_, fun t o hheld hs ht ho w => ?_⟩, fun hrest hd => ?_, putDriveKey_staying⟩
    · rw [putDriveKey_leaving hrest hd, ownKey_of_nothing_written (s := s.setDriveKey k d) h]
      rfl
    · rw [putDriveKey_leaving hrest hd, ownKey_of_held (s := s.setDriveKey k d) hheld,
        takeTime_of_origin (s := s.setDriveKey k d) ho]
      exact captureWrite_recorded (s := (s.setDriveKey k d).setCapKey k _) kindRelease k.val 0 _ hs ht ho w
    · rw [putDriveKey_returning hrest hd]
      rfl
  · rw [captureSample_released hs hrest hp hheld hup, takeTime_of_origin ho]
    exact captureWrite_recorded (s := s.setCapKey k _) kindRelease k.val 0 _ hs ht ho w

/-! ### Bytes of a body (section 11.2) -/

/-- A byte of a word is the number's byte at that place. -/
theorem extractByte_ofNat {w : Nat} (x i : Nat) (h : i + 8 ≤ w) :
    (BitVec.ofNat w x).extractLsb' i 8 = BitVec.ofNat 8 (x / 2 ^ i) := by
  apply BitVec.eq_of_getLsbD_eq
  intro j hj
  have hij : i + j < w := by omega
  rw [BitVec.getLsbD_extractLsb', BitVec.getLsbD_ofNat, BitVec.getLsbD_ofNat, Nat.testBit_div_two_pow, Nat.add_comm j i]
  simp [hj, hij]

theorem byte4_eq (x : Nat) : byte4 x = bytes32 (BitVec.ofNat 32 x) := by
  simp [byte4, bytesOfNat, bytes32, extractByte_ofNat]

theorem byte2_toNat (w : Word16) : byte2 w.toNat = bytes16 w := by
  have h := fun i (hi : i + 8 ≤ 16) => extractByte_ofNat (w := 16) w.toNat i hi
  simp only [BitVec.ofNat_toNat, BitVec.setWidth_eq] at h
  simp [byte2, bytesOfNat, bytes16, h]

theorem byte1_eq (x : Nat) : byte1 x = [BitVec.ofNat 8 x] := by simp [byte1, bytesOfNat]

/-! ### CAPTURE SET and CAPTURE STOP (R18, R20) -/

theorem serves_of_serving {s : State} {l : Link} {q : Request} (h : (s.link l).slots = .serving q) : s.serves l q = true := by
  simp [State.serves, h]

theorem thresholdsGood_iff {r p d : Nat} :
    thresholdsGood r p d = true ↔
      50 ≤ r ∧ r ≤ 900 ∧ 60 ≤ p ∧ p ≤ 950 ∧ 70 ≤ d ∧ d ≤ 1000 ∧ r < p ∧ p < d := by
  simp [thresholdsGood, and_assoc]

theorem clampNat_eq {lo hi x : Nat} (h : lo ≤ hi) : clampNat lo hi x = max lo (min hi x) := by
  unfold clampNat
  split
  · omega
  · split <;> omega

/-- Settles O21: the thresholds in range and order are taken, others are refused. -/
theorem captureSetTakesAllFourOrNone : Obligations.CaptureSetTakesAllFourOrNone := by
  intro l r p d db s hl
  have hexec : exec (.captureSet l r p d db) s = .next (serve l (.captureSet r p d db) (answerCaptureSet r p d db) s) := rfl
  rw [hexec, serve_standing _ (serves_of_serving hl)]
  refine ⟨fun h => ?_, fun h => ?_⟩
  · simp only [answerCaptureSet, if_pos (thresholdsGood_iff.mpr h), byte2_toNat, byte1_eq, clampNat_eq (by decide : 1 ≤ 32)]
  · simp only [answerCaptureSet, if_neg (mt thresholdsGood_iff.mp h), refuse]

/-- The capture take closed by a stop, as one update of the store and the capture unit (R18). -/
theorem stopCapture_eq {s : State} {t : TakeNo} (ht : s.cap.target = some t) (w : MemoryCanonical s) :
    ∃ st', (match s.cap.origin with
        | some o => s.store.ClosedAt t (s.clk.position - o) st'
        | none => (s.store.setOrigin t s.clk.position).ClosedAt t 0 st') ∧
      stopCapture s = { s with store := st', cap := { s.cap with state := .idle, target := none, origin := none } } := by
  rw [stopCapture, closeCapture_eq _ ht]
  refine ⟨_, ?_, rfl⟩
  cases ho : s.cap.origin with
  | some o =>
    simp only [takeTime_of_origin ho, Store.withOrigin]
    exact closedAt_closeTake t _ w
  | none => exact closedAt_closeTake (st := s.store.setOrigin t s.clk.position) t 0 w

/-- A take closed at a stop is one record longer. -/
theorem stopped_length {s : State} {t : TakeNo} {st' : Store}
    (h : match s.cap.origin with
      | some o => s.store.ClosedAt t (s.clk.position - o) st'
      | none => (s.store.setOrigin t s.clk.position).ClosedAt t 0 st') :
    (st'.entry t).length = (s.store.entry t).length + 1 := by
  cases ho : s.cap.origin with
  | some o =>
    simp only [ho] at h
    simp [h.1]
  | none =>
    simp only [ho] at h
    simp [h.1, Store.setOrigin]

/-- Settles O23: the refusal in IDLE, and the take closed with its END. -/
theorem captureStopClosesTheTake : Obligations.CaptureStopClosesTheTake := by
  intro l s hl
  have hexec : exec (.captureStop l) s = .next (serve l .captureStop answerCaptureStop s) := rfl
  rw [hexec, serve_standing _ (serves_of_serving hl)]
  refine ⟨fun h => by simp only [answerCaptureStop, h, refuse], fun t hs ht w => ?_⟩
  obtain ⟨st', hclosed, heq⟩ := stopCapture_eq ht w
  refine ⟨st', hclosed, ?_⟩
  have hanswer : answerCaptureStop s =
      { status := .ok, body := byte1 t.val ++ byte4 ((stopCapture s).store.entry t).length, state := stopCapture s } := by
    cases hc : s.cap.state with
    | idle => exact absurd hc hs
    | paused => simp only [answerCaptureStop, hc, ht]
    | recording => simp only [answerCaptureStop, hc, ht]
  rw [hanswer, heq, byte4_eq, byte1_eq, ← stopped_length hclosed]

/-! ### One pedal's frame sample (R14, R15) -/

/-- The state with a pedal's capture record replaced. -/
def State.setCapPedal (s : State) (p : Pedal) (c : CapPedal) : State :=
  { s with cap := { s.cap with pedals := bankSet s.cap.pedals p c } }

/-- A pedal's window moved on by the reading of a frame sample. -/
def State.sampledPedal (s : State) (r : PedalReadings) (p : Pedal) : CapPedal :=
  (bankGet s.cap.pedals p).sampled (readingAt r p)

theorem framePedal_of_not_recording {r : PedalReadings} {time : Nat} {p : Pedal} {s : State} (h : s.cap.state ≠ .recording) :
    framePedal r time s p = s := if_neg h

theorem framePedal_driven {r : PedalReadings} {time : Nat} {p : Pedal} {s : State} (h : s.cap.state = .recording)
    (hd : s.pedalDriven p = true) :
    framePedal r time s p = s.setCapPedal p { (s.sampledPedal r p) with firstFrame := true } := by
  simp only [framePedal, if_pos h, if_pos hd]
  rfl

/-- The average differs from the last emitted value by the deadband at least, or this is the first frame. -/
def State.pedalMoved (s : State) (r : PedalReadings) (p : Pedal) : Prop :=
  let c := s.sampledPedal r p
  c.firstFrame = true ∨ s.cap.deadband ≤ max c.average c.lastEmitted - min c.average c.lastEmitted

theorem framePedal_held {r : PedalReadings} {time : Nat} {p : Pedal} {s : State} (h : s.cap.state = .recording)
    (hd : s.pedalDriven p = false) (hm : ¬ s.pedalMoved r p) :
    framePedal r time s p = s.setCapPedal p (s.sampledPedal r p) := by
  simp only [framePedal, if_pos h, hd, Bool.false_eq_true, if_false]
  exact if_neg hm

theorem framePedal_written {r : PedalReadings} {time : Nat} {p : Pedal} {s : State} (h : s.cap.state = .recording)
    (hd : s.pedalDriven p = false) (hm : s.pedalMoved r p) :
    framePedal r time s p = captureWrite kindPedal p.val (s.sampledPedal r p).average time
      (s.setCapPedal p
        { (s.sampledPedal r p) with lastEmitted := (s.sampledPedal r p).average, firstFrame := false }) := by
  simp only [framePedal, if_pos h, hd, Bool.false_eq_true, if_false]
  exact if_pos hm

theorem pedalDriven_iff {s : State} {p : Pedal} :
    s.pedalDriven p = true ↔ ∃ y, bankGet (s.layer y).latched.pass p = true ∧ (bankGet (s.layer y).demands p).isSome = true := by
  simp only [State.pedalDriven, Settings.passes, Bool.or_eq_true, Bool.and_eq_true]
  constructor
  · rintro (h | h)
    · exact ⟨.l0, h⟩
    · exact ⟨.l1, h⟩
  · rintro ⟨y, h⟩
    cases y
    · exact .inl h
    · exact .inr h

@[simp] theorem sampled_firstFrame (c : CapPedal) (x : Nat) : (c.sampled x).firstFrame = c.firstFrame := by
  unfold CapPedal.sampled
  split <;> rfl

@[simp] theorem sampled_lastEmitted (c : CapPedal) (x : Nat) : (c.sampled x).lastEmitted = c.lastEmitted := by
  unfold CapPedal.sampled
  split <;> rfl

/-- The four values a pedal's window holds after a frame sample (R14). -/
def windowAfter (c : CapPedal) (x : Nat) : Nat × Nat × Nat × Nat :=
  if c.firstFrame then (x, x, x, x) else (c.w1, c.w2, c.w3, x)

theorem sampled_eq (c : CapPedal) (x : Nat) :
    c.sampled x = CapPedal.mk (windowAfter c x).1 (windowAfter c x).2.1 (windowAfter c x).2.2.1 (windowAfter c x).2.2.2
      c.lastEmitted c.firstFrame := by
  cases h : c.firstFrame <;> simp [CapPedal.sampled, windowAfter, h]

/-- Settles O24: the driven pedal, the one within its deadband, and the one written. -/
theorem frameSampleOfAPedal : Obligations.FrameSampleOfAPedal := by
  refine ⟨fun r time p s h => framePedal_of_not_recording h, fun r time p s hs => ?_⟩
  dsimp only
  have hsampled : s.sampledPedal r p = _ := sampled_eq (bankGet s.cap.pedals p) (readingAt r p)
  change ((∃ y, bankGet (s.layer y).latched.pass p = true ∧ _) → _ = _) ∧ _ ∧ _
  rw [← pedalDriven_iff, Bool.not_eq_true]
  refine ⟨fun hd => ?_, fun hd hfirst hlow hhigh => ?_, fun hd hm t ht w => ?_⟩
  · rw [framePedal_driven hs hd, hsampled]
    rfl
  · have hm : ¬ s.pedalMoved r p := by
      simp only [State.pedalMoved, State.sampledPedal, sampled_firstFrame, hfirst, sampled_lastEmitted]
      rw [sampled_eq]
      simp only [CapPedal.average, Bool.false_eq_true, false_or, not_le]
      unfold windowAfter
      omega
    rw [framePedal_held hs hd hm, hsampled, ← hfirst]
    rfl
  · have hmoved : s.pedalMoved r p := by
      simp only [State.pedalMoved, State.sampledPedal, sampled_firstFrame, sampled_lastEmitted]
      refine hm.imp id fun hm => ?_
      rw [sampled_eq]
      simp only [CapPedal.average]
      unfold windowAfter
      omega
    rw [framePedal_written hs hd hmoved, hsampled]
    exact ⟨captureWrite_of_room (s := s.setCapPedal p _) kindPedal p.val _ time hs ht w,
      fun o ho => captureWrite_of_no_room (s := s.setCapPedal p _) kindPedal p.val _ time hs ht ho w⟩

end Sys2Proof.Machine
end

section
/-! SUPPORT. CAPTURE START: the take opened, and the first frame sample into its empty block (R15, R16, R17, R24, R25). -/

namespace Sys2Proof.Machine

/-! ### The lowest FREE entry (R24) -/

theorem freeEntry_of_lowest {st : Store} {t : TakeNo} (h : (st.entry t).state = .free)
    (low : ∀ u, u < t → (st.entry u).state ≠ .free) : st.freeEntry = some t := by
  rw [Store.freeEntry, List.find?_eq_some_iff_getElem]
  refine ⟨by simpa using h, t.val, by simp [allTakes], by simp [allTakes], fun j hj => ?_⟩
  have hlow := low ⟨j, by omega⟩ hj
  simpa [allTakes] using hlow

theorem freeEntry_eq_none {st : Store} (h : ∀ t, (st.entry t).state ≠ .free) : st.freeEntry = none := by
  rw [Store.freeEntry, List.find?_eq_none]
  intro t _
  simpa using h t

theorem openTake_eq_none {st : Store} (w : Writer) (h : (∀ t, (st.entry t).state ≠ .free) ∨ st.pool = []) :
    st.openTake w = none := by
  unfold Store.openTake
  split
  · next hf hp =>
    obtain h | h := h
    · rw [freeEntry_eq_none h] at hf; cases hf
    · rw [h] at hp; cases hp
  · rfl

theorem openTake_of_lowest {st : Store} {t : TakeNo} {b : Nat} {rest : List Nat} (w : Writer)
    (h : (st.entry t).state = .free) (low : ∀ u, u < t → (st.entry u).state ≠ .free) (hp : st.pool = b :: rest) :
    st.openTake w = some (t,
      { st with
        pool := rest
        dir := bankSet st.dir t
          { state := .opened, writer := some w, length := 0, lastTime := 0, blocks := [b], bound := 0, origin := none } }) := by
  simp only [Store.openTake, freeEntry_of_lowest h low, hp]

/-! ### The first frame sample of a take -/

/-- A record's address in a take of one block. -/
theorem recordAddr_of_one_block {e : TakeEntry} {b i : Nat} (h : e.blocks = [b]) (hi : i < 512) :
    e.recordAddr i = 4096 * b + 8 * i := by
  have hdiv : i / 512 = 0 := by omega
  simp [TakeEntry.recordAddr, h, Config.blockRecords, hdiv, placeAddr, Nat.mod_eq_of_lt hi]
  omega

theorem appendRecord_of_one_block {st : Store} {t : TakeNo} {b : Nat} (r : Record) (h : (st.entry t).blocks = [b])
    (hl : (st.entry t).length + 1 < 512) : st.appendRecord t r = some (st.putRecord t (st.entry t) r) := by
  unfold Store.appendRecord
  dsimp only
  rw [if_pos (by simpa [h, Config.blockRecords] using hl)]

/-- `u` is `s` with `n` records in the one block `b` of its capture take `t`, and the pedals of `fresh` still at their first
frame. -/
structure FirstSampled (t : TakeNo) (b : Nat) (s u : State) (n : Nat) (fresh : List Pedal) : Prop where
  shape   : u = { s with store := u.store, cap := { s.cap with pedals := u.cap.pedals } }
  blocks  : (u.store.entry t).blocks = [b]
  length  : (u.store.entry t).length = n
  carried : (s.store.entry t).Carried (u.store.entry t)
  others  : ∀ v, v ≠ t → u.store.entry v = s.store.entry v
  memory  : MemoryCanonical s → MemoryCanonical u ∧
    ∀ a, a < 4096 * b ∨ 4096 * b + 8 * n ≤ a → memRead u.store.mem a = memRead s.store.mem a
  first   : ∀ p ∈ fresh, (bankGet u.cap.pedals p).firstFrame = true

theorem FirstSampled.setCapPedal {t : TakeNo} {b : Nat} {s u : State} {n : Nat} {p : Pedal} {ps : List Pedal}
    (h : FirstSampled t b s u n (p :: ps)) (hp : p ∉ ps) (c : CapPedal) : FirstSampled t b s (u.setCapPedal p c) n ps where
  shape := by rw [h.shape]; rfl
  blocks := h.blocks
  length := h.length
  carried := h.carried
  others := h.others
  memory := h.memory
  first q hq := by
    have hne : q ≠ p := fun e => hp (e ▸ hq)
    change (bankGet (bankSet u.cap.pedals p c) q).firstFrame = true
    rw [bankGet_bankSet_other _ _ hne]
    exact h.first q (List.mem_cons_of_mem _ hq)

theorem FirstSampled.putRecord {t : TakeNo} {b : Nat} {s u : State} {n : Nat} {ps : List Pedal}
    (h : FirstSampled t b s u n ps) (hn : n + 1 < 512) (r : Record) :
    FirstSampled t b s { u with store := u.store.putRecord t (u.store.entry t) r } (n + 1) ps where
  shape := by rw [h.shape]
  blocks := by simp [h.blocks]
  length := by simp [h.length]
  carried := by
    obtain ⟨hstate, hwriter, hbound, horigin⟩ := h.carried
    constructor <;> simp [hstate, hwriter, hbound, horigin]
  others v hv := (entry_putRecord_other _ _ _ hv).trans (h.others v hv)
  memory w := by
    obtain ⟨wu, hread⟩ := h.memory w
    refine ⟨putRecord_mem_wf _ _ _ wu, fun a ha => ?_⟩
    have haddr : (u.store.entry t).recordAddr (u.store.entry t).length = 4096 * b + 8 * n := by
      rw [h.length, recordAddr_of_one_block h.blocks (by omega)]
    have hout := putRecord_sameOutside t (u.store.entry t) r wu a (by rw [haddr]; omega)
    exact hout.trans (hread a (by omega))
  first := h.first

/-- One pedal's first frame sample: nothing for a driven pedal, one record for any other (R15). -/
theorem FirstSampled.next {t : TakeNo} {b : Nat} {s u : State} {n : Nat} {p : Pedal} {ps : List Pedal}
    (r : PedalReadings) (time : Nat) (h : FirstSampled t b s u n (p :: ps)) (hp : p ∉ ps) (hn : n + 1 < 512)
    (hs : s.cap.state = .recording) (ht : s.cap.target = some t) :
    FirstSampled t b s (framePedal r time u p) (n + if s.pedalDriven p then 0 else 1) ps := by
  have hrec : u.cap.state = .recording := by rw [h.shape]; exact hs
  have htar : u.cap.target = some t := by rw [h.shape]; exact ht
  have hdriven : u.pedalDriven p = s.pedalDriven p := by rw [h.shape]; rfl
  cases hd : s.pedalDriven p with
  | true =>
    rw [framePedal_driven hrec (hdriven.trans hd)]
    exact h.setCapPedal hp _
  | false =>
    have hmoved : u.pedalMoved r p :=
      .inl ((sampled_firstFrame _ _).trans (h.first p List.mem_cons_self))
    rw [framePedal_written hrec (hdriven.trans hd) hmoved]
    have hput := h.setCapPedal hp { (u.sampledPedal r p) with lastEmitted := (u.sampledPedal r p).average, firstFrame := false }
    have hwrite := appendRecord_of_one_block
      (mkRecord kindPedal p.val (u.sampledPedal r p).average time) h.blocks (by rw [h.length]; exact hn)
    have heq : captureWrite kindPedal p.val (u.sampledPedal r p).average time
        (u.setCapPedal p { (u.sampledPedal r p) with lastEmitted := (u.sampledPedal r p).average, firstFrame := false }) =
          { (u.setCapPedal p
              { (u.sampledPedal r p) with lastEmitted := (u.sampledPedal r p).average, firstFrame := false }) with
            store := u.store.putRecord t (u.store.entry t) (mkRecord kindPedal p.val (u.sampledPedal r p).average time) } := by
      have hstore : (u.setCapPedal p
        { (u.sampledPedal r p) with lastEmitted := (u.sampledPedal r p).average, firstFrame := false }).store = u.store := rfl
      have hrec' : (u.setCapPedal p
        { (u.sampledPedal r p) with lastEmitted := (u.sampledPedal r p).average, firstFrame := false }).cap.state =
          .recording := hrec
      have htar' : (u.setCapPedal p
        { (u.sampledPedal r p) with lastEmitted := (u.sampledPedal r p).average, firstFrame := false }).cap.target =
          some t := htar
      simp only [captureWrite, hrec', htar', hstore, hwrite]
    rw [heq]
    exact hput.putRecord hn _

/-- The first frame sample of a list of pedals, each named once. -/
theorem FirstSampled.sampleAll {t : TakeNo} {b : Nat} {s : State} (r : PedalReadings) (time : Nat)
    (hs : s.cap.state = .recording) (ht : s.cap.target = some t) (ps : List Pedal) :
    ∀ {u : State} {n : Nat}, FirstSampled t b s u n ps → ps.Nodup → n + ps.length < 512 →
      FirstSampled t b s (ps.foldl (framePedal r time) u) (n + (ps.filter fun p => !s.pedalDriven p).length) [] := by
  induction ps with
  | nil => exact fun h _ _ => h
  | cons p ps ih =>
    intro u n h hnodup hn
    obtain ⟨hp, hnodup⟩ := List.nodup_cons.mp hnodup
    simp only [List.length_cons] at hn
    have hstep := h.next r time hp (by omega) hs ht
    have hrest := ih hstep hnodup (by split <;> omega)
    have hlen : (n + if s.pedalDriven p = true then 0 else 1) + (ps.filter fun p => !s.pedalDriven p).length =
        n + ((p :: ps).filter fun p => !s.pedalDriven p).length := by
      cases hd : s.pedalDriven p with
      | true => simp [hd]
      | false => simp [hd]; omega
    rw [hlen] at hrest
    exact hrest

/-! ### CAPTURE START (R16) -/

/-- The state with its capture take just opened, PAUSED with no origin. -/
def State.captureOpened (s : State) (t : TakeNo) (st : Store) : State :=
  { s with
    store := st
    cap := { s.cap with
      state := .paused, target := some t, origin := none
      keys := bankMap (fun _ c => { c with held := false }) s.cap.keys } }

theorem answerCaptureStart_of_open {r : PedalReadings} {s : State} {t : TakeNo} {st : Store} (hs : s.cap.state = .idle)
    (ho : s.store.openTake .capture = some (t, st)) :
    answerCaptureStart r s =
      { status := .ok, body := byte1 t.val ++ byte1 CaptureState.paused.code
        state := if s.running && onBoundary s.clk.position then captureFrame r s.clk.position (s.captureOpened t st)
          else s.captureOpened t st } := by
  simp only [answerCaptureStart, hs, ho, ne_eq, not_true_eq_false, if_false]
  rfl

theorem onBoundary_iff {n : Nat} : onBoundary n = true ↔ n % 200 = 0 := by
  simp [onBoundary, Config.frame]

/-- The state whose capture origin has just been fixed at a boundary, RECORDING (R17). -/
def State.originFixed (s : State) (t : TakeNo) (boundary : Nat) : State :=
  { s with
    store := s.store.setOrigin t boundary
    cap := { s.cap.markFirst with state := .recording, origin := some boundary } }

theorem captureFrame_of_opened (r : PedalReadings) (boundary : Nat) (s : State) (t : TakeNo) (st : Store) :
    captureFrame r boundary (s.captureOpened t st) =
      allPedals.foldl (framePedal r (boundary - boundary)) ((s.captureOpened t st).originFixed t boundary) := by
  have hfix : fixOrigin boundary (s.captureOpened t st) = (s.captureOpened t st).originFixed t boundary := rfl
  rw [captureFrame, if_pos ⟨rfl, rfl⟩, hfix]
  rfl

/-- The state a freshly opened take is sampled from has no record yet, and every pedal at its first frame. -/
theorem firstSampled_originFixed (s : State) (t : TakeNo) (boundary b : Nat) (h : (s.store.entry t).blocks = [b])
    (hl : (s.store.entry t).length = 0) :
    FirstSampled t b (s.originFixed t boundary) (s.originFixed t boundary) 0 allPedals where
  shape := rfl
  blocks := by simp [State.originFixed, Store.setOrigin, h]
  length := by simp [State.originFixed, Store.setOrigin, hl]
  carried := ⟨rfl, rfl, rfl, rfl⟩
  others _ _ := rfl
  memory w := ⟨w, fun _ _ => rfl⟩
  first p _ := by simp [State.originFixed, Capture.markFirst]

/-- A capture take opened on a boundary the RUNNING clock stands on: RECORDING from it, each undriven pedal written into the
first block. -/
theorem captureFrame_at_start (r : PedalReadings) (boundary : Nat) {s : State} {t : TakeNo} {b : Nat} {rest : List Nat}
    {w : Writer} {st : Store} (hst : st =
      { s.store with
        pool := rest
        dir := bankSet s.store.dir t
          { state := .opened, writer := some w, length := 0, lastTime := 0, blocks := [b], bound := 0, origin := none } }) :
    ∃ u, captureFrame r boundary (s.captureOpened t st) = u ∧
      u = { s with
        store := u.store
        cap := { s.cap with
          state := .recording, target := some t, origin := some boundary
          keys := bankMap (fun _ c => { c with held := false }) s.cap.keys, pedals := u.cap.pedals } } ∧
      (u.store.entry t).state = .opened ∧ (u.store.entry t).writer = some w ∧
      (u.store.entry t).origin = some boundary ∧
      (u.store.entry t).length = (allPedals.filter fun p => !s.pedalDriven p).length ∧
      (∀ v, v ≠ t → u.store.entry v = s.store.entry v) ∧
      (MemoryCanonical s → ∀ a, a < 4096 * b ∨ 4096 * b + 24 ≤ a → memRead u.store.mem a = memRead s.store.mem a) := by
  have hentry : st.entry t =
      { state := .opened, writer := some w, length := 0, lastTime := 0, blocks := [b], bound := 0, origin := none } := by
    simp [hst, Store.entry]
  have hothers : ∀ v, v ≠ t → st.entry v = s.store.entry v := fun v hv => by
    simp [hst, Store.entry, bankGet_bankSet_other _ _ hv]
  have hmem : st.mem = s.store.mem := by rw [hst]
  have hstart := firstSampled_originFixed (s.captureOpened t st) t boundary b (by simp [State.captureOpened, hentry])
    (by simp [State.captureOpened, hentry])
  have hdone := FirstSampled.sampleAll r (boundary - boundary) rfl rfl allPedals hstart (List.nodup_finRange 3) (by decide)
  obtain ⟨hstate, hwriter, -, horigin⟩ := hdone.carried
  refine ⟨_, captureFrame_of_opened r boundary s t st, hdone.shape, ?_, ?_, ?_, ?_, ?_, ?_⟩
  · rw [hstate]; simp [State.originFixed, State.captureOpened, Store.setOrigin, hentry]
  · rw [hwriter]; simp [State.originFixed, State.captureOpened, Store.setOrigin, hentry]
  · rw [horigin]; simp [State.originFixed, State.captureOpened, Store.setOrigin]
  · rw [hdone.length, Nat.zero_add]; rfl
  · intro v hv
    rw [hdone.others v hv, ← hothers v hv]
    exact entry_setEntry_other _ _ hv
  · intro hw a ha
    have hcount : (allPedals.filter fun p => !((s.captureOpened t st).originFixed t boundary).pedalDriven p).length ≤ 3 :=
      List.length_filter_le _ allPedals
    have hread := (hdone.memory (by rw [MemoryCanonical, ← hmem] at hw; exact hw)).2 a (by omega)
    exact hread.trans (congrArg (memRead · a) hmem)

/-- Settles O22: the refusals, the PAUSED capture, and the one that records at once. -/
theorem captureStartOpensTheCaptureTake : Obligations.CaptureStartOpensTheCaptureTake := by
  intro l r s hl
  have hexec : exec (.captureStart l r) s = .next (serve l .captureStart (answerCaptureStart r) s) := rfl
  rw [hexec, serve_standing _ (serves_of_serving hl)]
  refine ⟨fun h => ?_, fun h hnone => ?_, fun t b rest hidle hfree hlow hpool => ?_⟩
  · simp only [answerCaptureStart, if_pos h, refuse]
  · simp [answerCaptureStart, h, openTake_eq_none _ hnone, refuse]
  · have hopen := openTake_of_lowest .capture hfree hlow hpool
    have hbound : (s.running && onBoundary s.clk.position) = true ↔ s.clk.state = .running ∧ s.clk.position % 200 = 0 := by
      rw [Bool.and_eq_true, onBoundary_iff]
      simp [State.running]
    rw [answerCaptureStart_of_open hidle hopen]
    refine ⟨fun h => ?_, fun h => ?_⟩
    · simp only [if_neg (mt hbound.mp h), byte1_eq]
      rfl
    · obtain ⟨u, hu, hshape, hstate, hwriter, horigin, hlength, hothers, hread⟩ :=
        captureFrame_at_start r s.clk.position (s := s) (t := t) (b := b) (rest := rest) (w := .capture) rfl
      simp only [if_pos (hbound.mpr h), hu]
      refine ⟨_, rfl, ?_⟩
      simp only [replied_cap, replied_store, replied_layer0, replied_layer1, replied_drive, replied_sched, replied_clk,
        replied_map, replied_run, replied_wall]
      refine ⟨by rw [hshape], by rw [hshape], by rw [hshape], hstate, hwriter, horigin, hlength, fun k => ?_, ?_, hothers, hread,
        ?_, by rw [hshape], by rw [hshape], by rw [hshape], by rw [hshape], by rw [hshape], by rw [hshape], by rw [hshape],
        by rw [hshape]⟩
      · have hkeys : u.cap.keys = bankMap (fun _ c => { c with held := false }) s.cap.keys := by rw [hshape]
        simp [State.capKey, replied_cap, hkeys]
      · simp [replied_link, byte1_eq, Request.kind, CaptureState.code]
      · rw [replied_otherLink _ _ _ _ (by cases l <;> decide), hshape]
        cases l <;> rfl

end Sys2Proof.Machine
end

section
/-! SUPPORT. The strike arithmetic: the bounds each formula keeps and the values it takes at its ends (R7, R93 to R103). -/

namespace Sys2Proof.Machine

/-! ### Velocities (R7, R93, R94) -/

theorem lt_div_succ_mul {x d : Nat} (h : 0 < d) : x < (x / d + 1) * d := by
  rw [Nat.mul_comm]
  exact Nat.lt_mul_div_succ x h

theorem le_of_lt_clampNat {lo hi x : Nat} (h : lo < clampNat lo hi x) : clampNat lo hi x ≤ x := by
  unfold clampNat at h ⊢
  split at h
  · omega
  · rw [if_neg ‹_›]
    split
    · exact Nat.le_of_lt ‹_›
    · exact Nat.le_refl _

theorem le_of_clampNat_lt {lo hi x : Nat} (h : clampNat lo hi x < hi) : x ≤ clampNat lo hi x := by
  unfold clampNat at h ⊢
  split at h
  · rw [if_pos ‹_›]; omega
  · rw [if_neg ‹_›]
    split at h
    · omega
    · rw [if_neg ‹_›]

theorem clampNat_of_mem {lo hi x : Nat} (h : lo ≤ x) (h' : x ≤ hi) : clampNat lo hi x = x := by
  rw [clampNat, if_neg (by omega), if_neg (by omega)]

theorem clampInt_of_mem {lo hi x : Int} (h : lo ≤ x) (h' : x ≤ hi) : clampInt lo hi x = x := by
  rw [clampInt, if_neg (by omega), if_neg (by omega)]

theorem hammerVelocity_bounds (spacing dt : Nat) : 1 ≤ hammerVelocity spacing dt ∧ hammerVelocity spacing dt ≤ 1023 :=
  clampNat_bounds (lo := 1) (hi := 1023) (by decide) _

theorem hammerVelocity_of_pos {spacing dt : Nat} (h : 0 < dt) :
    hammerVelocity spacing dt = clampNat 1 1023 ((400 * spacing + dt) / (2 * dt)) := by
  simp only [hammerVelocity, if_neg (Nat.ne_of_gt h)]

theorem hammerVelocity_mul_le {spacing dt : Nat} (hdt : 0 < dt) (h : 1 < hammerVelocity spacing dt) :
    hammerVelocity spacing dt * (2 * dt) ≤ 400 * spacing + dt := by
  rw [hammerVelocity_of_pos hdt] at h ⊢
  have hle := le_of_lt_clampNat h
  exact (Nat.mul_le_mul_right _ hle).trans (Nat.div_mul_le_self _ _)

theorem lt_hammerVelocity_succ_mul {spacing dt : Nat} (hdt : 0 < dt) (h : hammerVelocity spacing dt < 1023) :
    400 * spacing + dt < (hammerVelocity spacing dt + 1) * (2 * dt) := by
  rw [hammerVelocity_of_pos hdt] at h ⊢
  have hle := le_of_clampNat_lt h
  exact (lt_div_succ_mul (by omega)).trans_le (Nat.mul_le_mul_right _ (Nat.succ_le_succ hle))

theorem layerVelocity_bounds (v scale : Nat) (offset : Int) :
    1 ≤ layerVelocity v scale offset ∧ layerVelocity v scale offset ≤ 1023 := by
  have h := clampInt_bounds (lo := 1) (hi := 1023) (x := ((v * scale + 8) / 16 : Nat) + offset) (by decide)
  unfold layerVelocity
  omega

theorem layerVelocity_unit {v : Nat} (h : 1 ≤ v) (h' : v ≤ 1023) : layerVelocity v 16 0 = v := by
  have hv : (v * 16 + 8) / 16 = v := by omega
  rw [layerVelocity, hv, clampInt_of_mem (by omega) (by omega)]
  omega

theorem gainVelocity_bounds (v g : Nat) : 1 ≤ gainVelocity v g ∧ gainVelocity v g ≤ 1023 :=
  clampNat_bounds (lo := 1) (hi := 1023) (by decide) _

theorem gainVelocity_unit {v : Nat} (h : 1 ≤ v) (h' : v ≤ 1023) : gainVelocity v 16384 = v := by
  have hv : (v * 16384 + 8192) / 16384 = v := by omega
  rw [gainVelocity, hv, clampNat_of_mem h h']

/-- The greatest gain takes the upper half of the velocities to the top. -/
theorem gainVelocity_top {v : Nat} (h : 512 ≤ v) : gainVelocity v 32767 = 1023 := by
  have hv : 1023 ≤ (v * 32767 + 8192) / 16384 := by omega
  rw [gainVelocity, clampNat_eq (by decide)]
  omega

/-! ### The curve and the demand (R95, R96) -/

theorem knotAt_castSucc (e : KeyEntry) (k : Fin 8) : e.knotAt k.val = e.knot k.castSucc := by
  rw [KeyEntry.knotAt, dif_pos (by omega)]
  rfl

theorem knotAt_succ (e : KeyEntry) (k : Fin 8) : e.knotAt (k.val + 1) = e.knot k.succ := by
  rw [KeyEntry.knotAt, dif_pos (by omega)]
  rfl

/-- The curve on the segment from knot `k`. -/
theorem curveAt_segment (e : KeyEntry) (k : Fin 8) {frac : Nat} (h : frac < 128) :
    curveAt e (128 * k.val + frac) =
      e.knot k.castSucc + (((e.knot k.succ : Int) - e.knot k.castSucc) * frac + 64) / 128 := by
  have hdiv : (128 * k.val + frac) / 128 = k.val := by omega
  have hfrac : 128 * k.val + frac - 128 * k.val = frac := by omega
  simp only [curveAt, hdiv, hfrac, knotAt_castSucc, knotAt_succ]

/-- The rounded share of a rise stays within it. -/
theorem share_bounds {d : Int} {frac : Nat} (hd : 0 ≤ d) (h : frac < 128) :
    0 ≤ (d * frac + 64) / 128 ∧ (d * frac + 64) / 128 ≤ d := by
  have hlow : 0 ≤ d * frac := Int.mul_nonneg hd (by omega)
  have hhigh : d * frac ≤ d * 127 := Int.mul_le_mul_of_nonneg_left (by omega) hd
  omega

theorem curveAt_bounds {e : KeyEntry} (hset : e.isSet = true) (hsound : e.Sound) (k : Fin 8) {frac : Nat} (h : frac < 128) :
    (e.knot k.castSucc : Int) ≤ curveAt e (128 * k.val + frac) ∧
      curveAt e (128 * k.val + frac) ≤ (e.knot k.succ : Int) := by
  obtain ⟨-, -, -, -, -, hmono⟩ := hsound hset
  have hrise := hmono k.castSucc k.succ (by rw [Fin.le_def]; simp)
  have hshare := share_bounds (d := (e.knot k.succ : Int) - e.knot k.castSucc) (by omega) h
  rw [curveAt_segment e k h]
  omega

theorem curveAt_knot (e : KeyEntry) (k : Fin 8) : curveAt e (128 * k.val) = (e.knot k.castSucc : Int) := by
  have h := curveAt_segment e k (frac := 0) (by decide)
  simpa using h

theorem demandAt_bounds {e : KeyEntry} (hset : e.isSet = true) (hsound : e.Sound) {v : Nat} (hv : v ≤ 1023) :
    e.t.toNat ≤ demandAt e v ∧ demandAt e v ≤ 4095 := by
  obtain ⟨-, ht, -, -, hknots, -⟩ := hsound hset
  have hcurve := curveAt_bounds hset hsound ⟨v / 128, by omega⟩ (frac := v % 128) (Nat.mod_lt _ (by decide))
  have hknot := hknots (Fin.succ ⟨v / 128, by omega⟩)
  simp only [Nat.div_add_mod] at hcurve
  unfold demandAt
  omega

/-! ### The lead and the flight (R98) -/

theorem flightAt_le_of_lead {e : KeyEntry} {v : Nat} (hv : 0 < v) (h : leadAt e v < 4000) :
    flightAt e v ≤ 50 * leadAt e v := by
  have hle : (e.lfix.toNat * v + e.dtravel + 50 * v - 1) / (50 * v) ≤ leadAt e v := le_of_clampNat_lt h
  have hceil : e.lfix.toNat * v + e.dtravel ≤ leadAt e v * (50 * v) := by
    have hlt := lt_div_succ_mul (x := e.lfix.toNat * v + e.dtravel + 50 * v - 1) (d := 50 * v) (by omega)
    have hmul := Nat.mul_le_mul_right (50 * v) (Nat.succ_le_succ hle)
    simp only [Nat.succ_eq_add_one, Nat.add_mul, Nat.one_mul] at hmul hlt
    omega
  have hflight : flightAt e v = (e.lfix.toNat * v + e.dtravel) / v := by
    rw [flightAt, Nat.add_comm (_ * _), Nat.add_mul_div_right _ _ hv, Nat.add_comm]
  rw [hflight]
  refine (Nat.div_le_div_right hceil).trans ?_
  rw [← Nat.mul_assoc, Nat.mul_div_cancel _ hv, Nat.mul_comm]

/-! ### Drives (R101, R103) -/

theorem compensate_mul_le (demand vnom vc : Nat) : compensate demand vnom vc * vc ≤ demand * vnom + vc / 2 :=
  (Nat.mul_le_mul_right _ (Nat.min_le_right _ _)).trans (Nat.div_mul_le_self _ _)

theorem lt_compensate_succ_mul {demand vnom vc : Nat} (hvc : 0 < vc) (h : compensate demand vnom vc < 4095) :
    demand * vnom + vc / 2 < (compensate demand vnom vc + 1) * vc := by
  have heq : compensate demand vnom vc = (demand * vnom + vc / 2) / vc := by
    unfold compensate at h ⊢
    omega
  rw [heq]
  exact lt_div_succ_mul hvc

theorem restDrive_le_fullDrive {e : PedalEntry} (h : e.Sound) : e.restDrive ≤ e.fullDrive := by
  cases hset : e.isSet with
  | true => simpa [PedalEntry.restDrive, PedalEntry.fullDrive, hset] using (h hset).1
  | false => simp [PedalEntry.restDrive, hset]

theorem pedalDrive_zero (e : PedalEntry) : pedalDrive e 0 = e.restDrive := by
  simp [pedalDrive]

theorem pedalDrive_full (e : PedalEntry) : pedalDrive e 255 = e.fullDrive := by
  unfold pedalDrive
  omega

theorem pedalDrive_mono {e : PedalEntry} (h : e.Sound) {p q : Nat} (hpq : p ≤ q) : pedalDrive e p ≤ pedalDrive e q := by
  have hspan : (0 : Int) ≤ (e.fullDrive : Int) - e.restDrive := by have := restDrive_le_fullDrive h; omega
  have hmul : ((e.fullDrive : Int) - e.restDrive) * p ≤ ((e.fullDrive : Int) - e.restDrive) * q :=
    Int.mul_le_mul_of_nonneg_left (by omega) hspan
  unfold pedalDrive
  omega

/-- Settles O48: each formula between its rule's bounds. -/
theorem strikeArithmeticStaysInRange : Obligations.StrikeArithmeticStaysInRange := by
  refine ⟨fun spacing dt => ?_, fun v scale offset => ?_, fun v g => ?_, fun e k frac hset hsound h => ?_,
    fun e v hset hsound => ?_, fun e v => rfl, fun d demand hvnom hsag => ?_, fun e p q hsound hpq => ?_⟩
  · obtain ⟨hlow, hhigh⟩ := hammerVelocity_bounds spacing dt
    exact ⟨hlow, hhigh, rfl, fun hdt => ⟨hammerVelocity_mul_le hdt, lt_hammerVelocity_succ_mul hdt⟩⟩
  · obtain ⟨hlow, hhigh⟩ := layerVelocity_bounds v scale offset
    exact ⟨hlow, hhigh, layerVelocity_unit⟩
  · obtain ⟨hlow, hhigh⟩ := gainVelocity_bounds v g
    exact ⟨hlow, hhigh, gainVelocity_unit, gainVelocity_top⟩
  · obtain ⟨hlow, hhigh⟩ := curveAt_bounds hset hsound k h
    exact ⟨hlow, hhigh, curveAt_knot e k⟩
  · obtain ⟨hv, hv'⟩ := gainVelocity_bounds v e.g.toNat
    obtain ⟨hlow, hhigh⟩ := demandAt_bounds hset hsound hv'
    obtain ⟨hlead, hlead'⟩ : 1 ≤ leadAt e (gainVelocity v e.g.toNat) ∧ leadAt e (gainVelocity v e.g.toNat) ≤ 4000 :=
      clampNat_bounds (lo := 1) (hi := 4000) (by decide) _
    exact ⟨hlow, hhigh, hlead, hlead', flightAt_le_of_lead hv⟩
  · have hvc : 0 < d.vc := by
      have hpos : 0 < d.vsag := by
        have := Nat.mul_pos hvnom hsag
        simp only [Drive.vsag, vsag]
        omega
      exact hpos.trans_le (Nat.le_max_right _ _)
    exact ⟨Nat.min_le_left _ _, compensate_mul_le _ _ _, lt_compensate_succ_mul hvc⟩
  · exact ⟨pedalDrive_zero e, pedalDrive_full e, pedalDrive_mono hsound hpq⟩

end Sys2Proof.Machine
end

section
/-! SUPPORT. The ends of a strike for a scheduler with nothing to process (R134 to R136), the pulses of a calibration run
(R141, R152, R153), and what working the keys of a run leaves (R151, R161). -/

namespace Sys2Proof.Machine

@[simp] theorem setDriveKey_setDriveKey (s : State) (k : Key) (r q : DriveKey) :
    (s.setDriveKey k r).setDriveKey k q = s.setDriveKey k q := by
  simp [State.setDriveKey, bankSet]

@[simp] theorem setDriveKey_driveKey (s : State) (k : Key) : s.setDriveKey k (s.driveKey k) = s := by
  have h : bankSet s.drive.keys k (bankGet s.drive.keys k) = s.drive.keys := bank_ext fun j => by
    rw [bankGet_bankSet]
    split
    · next e => rw [e]
    · rfl
  simp only [State.setDriveKey, State.driveKey, h]

theorem NothingToSchedule.of_eq {s t : State} (h : NothingToSchedule s) (hq : t.drive.queue = s.drive.queue)
    (hc : t.clk = s.clk) (hp : t.sched.plan = s.sched.plan) (h0 : t.layer0 = s.layer0) (h1 : t.layer1 = s.layer1) :
    NothingToSchedule t := by
  refine ⟨hq.trans h.1, h.2.imp (fun g => by rw [hc]; exact g) fun g => ⟨hp.trans g.1, fun y => ?_⟩⟩
  have hy := g.2 y
  cases y
  · exact (congrArg Layer.ring h0).trans hy
  · exact (congrArg Layer.ring h1).trans hy

theorem NothingToSchedule.setDriveKey {s : State} (h : NothingToSchedule s) (k : Key) (d : DriveKey) :
    NothingToSchedule (s.setDriveKey k d) := h.of_eq rfl rfl rfl rfl rfl

theorem NothingToSchedule.setCapKey {s : State} (h : NothingToSchedule s) (k : Key) (c : CapKey) :
    NothingToSchedule (s.setCapKey k c) := h.of_eq rfl rfl rfl rfl rfl

theorem NothingToSchedule.addDrop {s : State} (h : NothingToSchedule s) (e : DropEntry) :
    NothingToSchedule (addDrop e s) := h.of_eq rfl rfl rfl rfl rfl

/-- A report and the takings after it, for a scheduler with nothing to process. -/
theorem takeAll_respond_of_nothing {s t : State} (h : NothingToSchedule t) : takeAll (respond s t) = t := by
  rw [respond_of_nothing h, takeAll_of_nothing h]

/-! ### The ends of a strike (R134, R135, R136) -/

/-- A key record whose sustain drive has begun (R102, R136). -/
def DriveKey.sustained (d : DriveKey) (s : State) : DriveKey :=
  { d with sustain := some (s.drive.applied (d.sustainDemand.getD 0)), reboundEnd := none }

theorem beginSustain_setDriveKey (s : State) (k : Key) (d : DriveKey) :
    beginSustain k (s.setDriveKey k d) = s.setDriveKey k (d.sustained s) := by
  simp only [beginSustain, driveKey_setDriveKey_same, setDriveKey_setDriveKey]
  rfl

theorem putDriveKey_driven {k : Key} {d : DriveKey} {s : State} (h : (s.driveKey k).state ≠ .rest) (hd : d.state ≠ .rest) :
    putDriveKey k d s = s.setDriveKey k d := putDriveKey_staying (iff_of_false h hd)

/-- A detection: the sustain drive at once where the rebound gap is 0, the gap before it elsewhere (R134). -/
theorem detect_eq {k : Key} {s : State} (h : (s.driveKey k).state = .strike) :
    detect k s = s.setDriveKey k
      (if (s.driveKey k).reboundGap.getD 0 = 0 then
        DriveKey.sustained { (s.driveKey k) with state := .sustain, fire := none } s
      else
        { (s.driveKey k) with
          state := .sustain, fire := none, sustain := none
          reboundEnd := some (s.now + 50 * (s.driveKey k).reboundGap.getD 0) }) := by
  have hdriven : (s.driveKey k).state ≠ .rest := by simp [h]
  simp only [detect]
  rw [putDriveKey_driven hdriven (by simp)]
  split
  · rw [beginSustain_setDriveKey]
    rfl
  · rfl

theorem gate2_driven {k : Key} {s : State} (h : (s.driveKey k).state ≠ .rest) :
    gate2 k s = takeEcho k (passageVelocity k s) (s.setCapKey k { (s.capKey k) with gate1At := none }) := by
  simp only [gate2, driveOwned_eq_true.mpr h, if_pos]

theorem takeEcho_strike {k : Key} {velocity : Option Nat} {s : State} {fire : Fire} {y : LayerId}
    {event v demand flight intended : Nat} (h : (s.driveKey k).state = .strike) (hf : (s.driveKey k).fire = some fire)
    (hk : fire.kind = .strike y event v demand flight intended) :
    takeEcho k velocity s = takeAll (respond s (detect k s)) := by
  obtain ⟨kind, firedAt, grace, applied⟩ := fire
  cases hk
  simp only [takeEcho, h, hf]

theorem takeEcho_cut {k : Key} {velocity : Option Nat} {s : State}
    (h : (s.driveKey k).state = .letgo ∨ (s.driveKey k).state = .blocked) (hf : (s.driveKey k).fire.isSome = true) :
    takeEcho k velocity s = s.setDriveKey k { (s.driveKey k) with fire := none } := by
  obtain ⟨fire, hf⟩ := Option.isSome_iff_exists.mp hf
  obtain h | h := h <;> simp only [takeEcho, h, hf]

theorem takeEcho_none {k : Key} {velocity : Option Nat} {s : State}
    (h : (s.driveKey k).state = .sustain ∨
      ((s.driveKey k).state = .letgo ∨ (s.driveKey k).state = .blocked) ∧ (s.driveKey k).fire = none) :
    takeEcho k velocity s = s := by
  obtain h | ⟨h | h, hf⟩ := h
  · cases hf : (s.driveKey k).fire <;> simp only [takeEcho, h, hf]
  · simp only [takeEcho, h, hf]
  · simp only [takeEcho, h, hf]

theorem reboundOver_due {k : Key} {s : State} {t : Nat} (h : (s.driveKey k).state = .sustain)
    (hr : (s.driveKey k).reboundEnd = some t) (ht : t ≤ s.now) :
    reboundOver k s = s.setDriveKey k ((s.driveKey k).sustained s) := by
  simp only [reboundOver, h, hr, if_pos ht]
  rfl

theorem reboundOver_early {k : Key} {s : State}
    (h : (s.driveKey k).state ≠ .sustain ∨ (s.driveKey k).reboundEnd = none ∨
      ∃ t, (s.driveKey k).reboundEnd = some t ∧ s.now < t) : reboundOver k s = s := by
  unfold reboundOver
  dsimp only
  split
  · next t hs hr =>
    obtain h | h | ⟨u, hu, hlt⟩ := h
    · exact absurd hs h
    · rw [hr] at h; cases h
    · rw [hr] at hu; cases hu
      rw [if_neg (by omega)]
  · rfl

theorem strikeGrace_of_strike {k : Key} {s : State} {fire : Fire} {y : LayerId} {event v demand flight intended : Nat}
    (hf : (s.driveKey k).fire = some fire) (hk : fire.kind = .strike y event v demand flight intended)
    (hg : fire.grace ≤ s.now) :
    ((s.driveKey k).state = .strike → strikeGrace k s = missStrike k y event v s) ∧
      ((s.driveKey k).state = .letgo ∨ (s.driveKey k).state = .blocked →
        strikeGrace k s = s.setDriveKey k { (s.driveKey k) with fire := none }) := by
  obtain ⟨kind, firedAt, grace, applied⟩ := fire
  cases hk
  refine ⟨fun h => ?_, fun h => ?_⟩
  · simp only [strikeGrace, hf, h, if_pos hg]
  · obtain h | h := h <;> simp only [strikeGrace, hf, h, if_pos hg]

theorem strikeGrace_early {k : Key} {s : State}
    (h : (s.driveKey k).fire = none ∨
      ∃ fire, (s.driveKey k).fire = some fire ∧ (fire.kind = .pulse ∨ s.now < fire.grace)) : strikeGrace k s = s := by
  obtain hf | ⟨⟨kind, firedAt, grace, applied⟩, hf, hk | hk⟩ := h
  · simp only [strikeGrace, hf]
  · cases hk
    simp only [strikeGrace, hf]
  · have hearly : ¬ grace ≤ s.now := not_le.mpr hk
    cases kind <;> simp only [strikeGrace, hf, if_neg hearly]

/-- A missed strike for a scheduler with nothing to process: the drop, and the sustain drive at once (R135). -/
theorem missStrike_of_nothing {k : Key} {y : LayerId} {event v : Nat} {s : State} (h : (s.driveKey k).state = .strike)
    (hn : NothingToSchedule s) :
    missStrike k y event v s =
      addDrop { reason := .missed, target := .key k.val, layer := y, event := event, velocity := some v }
        (s.setDriveKey k (DriveKey.sustained { (s.driveKey k) with state := .sustain, fire := none } s)) := by
  have hdriven : (s.driveKey k).state ≠ .rest := by simp [h]
  have hput := putDriveKey_driven (k := k)
    (d := { (s.driveKey k) with state := .sustain, fire := none, sustain := none, reboundEnd := none })
    (s := addDrop (missedEntry k y event v) s) hdriven (by simp)
  have heq := (congrArg (beginSustain k) hput).trans (beginSustain_setDriveKey _ k _)
  refine (congrArg (fun t => takeAll (respond s t)) heq).trans (takeAll_respond_of_nothing ?_)
  exact (hn.addDrop _).setDriveKey k _

/-- Settles O51: the detection, the end of the rebound gap, and the strike not seen. -/
theorem strikesEndInSustain : Obligations.StrikesEndInSustain := by
  intro k s
  dsimp only
  have hgate (h : (s.driveKey k).state ≠ .rest) : exec (.gate2Event k .toward) s =
      .next (takeEcho k (passageVelocity k s) (s.setCapKey k { (s.capKey k) with gate1At := none })) :=
    congrArg Host.Outcome.next (gate2_driven h)
  refine ⟨fun fire y event v demand flight intended h hf hk hn => ?_, fun h hf => ?_, fun h => ?_, fun t h hr ht => ?_,
    fun h => ?_, fun fire y event v demand flight intended hf hk hg => ⟨fun h hn => ?_, fun h => ?_⟩, fun h => ?_⟩
  · rw [hgate (by simp [h]), takeEcho_strike (s := s.setCapKey k _) h hf hk, detect_eq (s := s.setCapKey k _) h,
      takeAll_respond_of_nothing ((hn.setCapKey k _).setDriveKey k _)]
    rfl
  · rw [hgate (by obtain h | h := h <;> simp [h]), takeEcho_cut (s := s.setCapKey k _) h hf]
    rfl
  · rw [hgate (by obtain h | ⟨h | h, -⟩ := h <;> simp [h]), takeEcho_none (s := s.setCapKey k _) h]
  · exact congrArg Host.Outcome.next (reboundOver_due h hr ht)
  · exact congrArg Host.Outcome.next (reboundOver_early h)
  · refine congrArg Host.Outcome.next (((strikeGrace_of_strike hf hk hg).1 h).trans ?_)
    exact missStrike_of_nothing h hn
  · exact congrArg Host.Outcome.next ((strikeGrace_of_strike hf hk hg).2 h)
  · exact congrArg Host.Outcome.next (strikeGrace_early h)

/-! ### Part writes keep the check word with the sum (R57) -/

/-- A total over a bank after one item is replaced. -/
theorem sum_bankSet {α : Type} {n : Nat} (f : α → Nat) (b : Bank α n) (k : Fin n) (x : α) :
    ((bankSet b k x).toList.map f).sum + f (bankGet b k) = (b.toList.map f).sum + f x := by
  have hk : k.val < (b.toList.map f).length := by simp
  have hset : (bankSet b k x).toList.map f = (b.toList.map f).set k.val (f x) := by
    simp [bankSet, Vector.toList_set, List.map_set]
  have hget : (b.toList.map f)[k.val] = f (bankGet b k) := by simp [bankGet]
  have hsplit : (b.toList.map f).sum =
      ((b.toList.map f).take k.val).sum + (b.toList.map f)[k.val] + ((b.toList.map f).drop (k.val + 1)).sum := by
    conv_lhs => rw [← List.set_getElem_self hk, List.sum_set, if_pos hk]
  rw [hset, List.sum_set, if_pos hk, hsplit, hget]
  omega

theorem sum_sub_check_writeKey (m : CalMap) (k : Key) (e : KeyEntry) :
    (m.writeKey k e).sum - (m.writeKey k e).check = m.sum - m.check := by
  have hsum := sum_bankSet (fun e : KeyEntry => wordSum e.words) m.keys k e
  have hbits : (m.writeKey k e).sum + BitVec.ofNat 32 (wordSum (bankGet m.keys k).words) =
      m.sum + BitVec.ofNat 32 (wordSum e.words) := by
    simp only [CalMap.sum, CalMap.writeKey, ← BitVec.ofNat_add]
    congr 1
    omega
  simp only [CalMap.writeKey, checkAfter] at hbits ⊢
  linear_combination hbits

/-! ### Working the keys of a run (R151, R161) -/

/-- `t` is `s` with run results written to keys below number `n` alone, and the run at none of the keys from `n` on. -/
structure WorkedBelow (n : Nat) (s t : State) : Prop where
  above   : ∀ j : Key, n ≤ j.val → bankGet t.map.keys j = bankGet s.map.keys j
  check   : t.map.sum - t.map.check = s.map.sum - s.map.check
  failed  : s.run.failed = true → t.run.failed = true
  current : ∀ j, t.run.current = some j → j.val < n

theorem finishRun_map (s : State) : (finishRun s).map = s.map := by unfold finishRun; dsimp only; split <;> rfl
theorem finishRun_run (s : State) :
    (finishRun s).run = { s.run with state := .idle, keys := 0, current := none, copy := none, wait := .none } := by
  unfold finishRun; dsimp only; split <;> rfl

theorem finishRun_workedBelow (n : Nat) (s : State) : WorkedBelow n s (finishRun s) where
  above j _ := by rw [finishRun_map]
  check := by rw [finishRun_map]
  failed h := by rw [finishRun_run]; exact h
  current j h := by rw [finishRun_run] at h; cases h

theorem freeForRun_keeps (k : Key) (s : State) : Keeps s (freeForRun k s) := by
  unfold freeForRun
  split
  · exact putDriveKey_keeps ..
  · exact .refl s

theorem WorkedBelow.mono {n m : Nat} {s t : State} (h : WorkedBelow n s t) (hm : n ≤ m) : WorkedBelow m s t :=
  ⟨fun j hj => h.above j (hm.trans hj), h.check, h.failed, fun j hj => (h.current j hj).trans_le hm⟩

/-- Work that goes on from a state whose keys from `n` on, check and failure mark are those of `s`. -/
theorem WorkedBelow.after {n : Nat} {s u t : State} (h : WorkedBelow n u t)
    (ha : ∀ j : Key, n ≤ j.val → bankGet u.map.keys j = bankGet s.map.keys j)
    (hc : u.map.sum - u.map.check = s.map.sum - s.map.check) (hf : s.run.failed = true → u.run.failed = true) :
    WorkedBelow n s t :=
  ⟨fun j hj => (h.above j hj).trans (ha j hj), h.check.trans hc, fun g => h.failed (hf g), h.current⟩

theorem writeResult_map (k : Key) (r : RunResult) (f : KeyEntry → KeyEntry) (s : State) :
    (writeResult k r f s).map = s.map.writeKey k ((f (bankGet s.map.keys k)).withResult r) := rfl

theorem writeResult_run (k : Key) (r : RunResult) (f : KeyEntry → KeyEntry) (s : State) :
    (writeResult k r f s).run = { s.run with failed := s.run.failed || r.fails, wait := .none } := rfl

theorem keyOf_eq_some {n : Nat} {k : Key} (h : keyOf n = some k) : k.val = n := by
  unfold keyOf at h
  split at h
  · cases h; rfl
  · cases h

theorem prepareKey_current (e : KeyEntry) (i : Integrity) (r : RunController) : (prepareKey e i r).current = r.current := by
  unfold prepareKey; split <;> rfl

theorem prepareKey_failed (e : KeyEntry) (i : Integrity) (r : RunController) : (prepareKey e i r).failed = r.failed := by
  unfold prepareKey; split <;> rfl

theorem workBelow_worked (n : Nat) : ∀ s, WorkedBelow n s (workBelow n s) := by
  induction n with
  | zero => exact finishRun_workedBelow 0
  | succ n ih =>
    intro s
    unfold workBelow
    cases hk : keyOf n with
    | none => exact (ih s).mono (Nat.le_succ n)
    | some k =>
      have hval := keyOf_eq_some hk
      dsimp only
      split
      · have hfree := freeForRun_keeps k (copyKey k s)
        have hmap : (freeForRun k (copyKey k s)).map = s.map := hfree.map
        have hfailed : (freeForRun k (copyKey k s)).run.failed = s.run.failed := by
          rw [hfree.run]; rfl
        split
        · have hwritten : ∀ j : Key, n + 1 ≤ j.val →
              bankGet (writeResult k .noStrike id (freeForRun k (copyKey k s))).map.keys j = bankGet s.map.keys j :=
            fun j hj => by
              rw [writeResult_map, hmap]
              exact bankGet_bankSet_other _ _ (fun e => by rw [e] at hj; omega)
          have hcheck := sum_sub_check_writeKey (freeForRun k (copyKey k s)).map k
            (KeyEntry.withResult (id (bankGet (freeForRun k (copyKey k s)).map.keys k)) .noStrike)
          rw [hmap] at hcheck
          have hdone : ∀ t, WorkedBelow (n + 1) (writeResult k .noStrike id (freeForRun k (copyKey k s))) t →
              WorkedBelow (n + 1) s t := fun t h => by
            refine h.after hwritten ?_ fun hf => ?_
            · rw [writeResult_map, hmap]; exact hcheck
            · rw [writeResult_run, hfailed, hf]; rfl
          split
          · exact hdone _ (finishRun_workedBelow _ _)
          · exact hdone _ ((ih _).mono (Nat.le_succ n))
        · refine ⟨fun j _ => congrArg (fun m : CalMap => bankGet m.keys j) hmap, ?_, fun hf => ?_, fun j hj => ?_⟩
          · change (freeForRun k (copyKey k s)).map.sum - (freeForRun k (copyKey k s)).map.check = _
            rw [hmap]
          · exact (prepareKey_failed _ _ _).trans (hfailed.trans hf)
          · have hcur : (freeForRun k (copyKey k s)).run.current = some k := by
              rw [hfree.run]; rfl
            have hj := ((prepareKey_current _ _ _).trans hcur).symm.trans hj
            cases hj
            omega
      · exact (ih s).mono (Nat.le_succ n)

/-- A key that ends with a failing result: its entry, the map's sum, the failure mark, and where the run has gone (R161). -/
theorem endKey_failing (k : Key) {r : RunResult} (hr : r.fails = true) (f : KeyEntry → KeyEntry) (s : State) :
    bankGet (endKey k r f s).map.keys k = (f (bankGet s.map.keys k)).withResult r ∧
      (∀ j, k < j → bankGet (endKey k r f s).map.keys j = bankGet s.map.keys j) ∧
      (endKey k r f s).map.sum - (endKey k r f s).map.check = s.map.sum - s.map.check ∧
      (endKey k r f s).run.failed = true ∧ (endKey k r f s).run.current ≠ some k ∧
      (s.run.stopOnFault = true → endKey k r f s = finishRun (writeResult k r f s)) := by
  have hworked : WorkedBelow k.val (writeResult k r f s) (endKey k r f s) := by
    unfold endKey
    dsimp only
    split
    · exact finishRun_workedBelow _ _
    · exact workBelow_worked _ _
  refine ⟨?_, fun j hj => ?_, ?_, ?_, fun h => absurd (hworked.current k h) (Nat.lt_irrefl _), fun hstop => ?_⟩
  · rw [hworked.above k (Nat.le_refl _), writeResult_map]
    exact bankGet_bankSet_same _ _ _
  · rw [hworked.above j (Fin.le_def.mp hj.le), writeResult_map]
    exact bankGet_bankSet_other _ _ hj.ne'
  · rw [hworked.check, writeResult_map]
    exact sum_sub_check_writeKey _ _ _
  · exact hworked.failed (by rw [writeResult_run, hr]; exact Bool.or_true _)
  · have hcond : (writeResult k r f s).run.stopOnFault && r.fails := by
      rw [writeResult_run, hr]; exact (Bool.and_true _).trans hstop
    exact if_pos hcond

end Sys2Proof.Machine
end

section
/-! SUPPORT. The pulses of a calibration run (R141, R152, R153), the end of STOPPING (R162), and keys put into BLOCKED and
cleared for a scheduler with nothing to process (R139, R140, R144). -/

namespace Sys2Proof.Machine

/-! ### Requesting and firing a pulse (R141, R152, R153) -/

theorem touched_eq_false {d : DriveKey} : d.touched = false ↔ d.lastPos.val < d.repetitionAt := by
  simp [DriveKey.touched]

theorem atRest_iff {k : Key} {s : State} :
    atRest k s = true ↔ (s.driveKey k).state = .rest ∧ (s.driveKey k).lastPos.val < (s.driveKey k).repetitionAt := by
  simp [atRest, touched_eq_false]

theorem pulseBusy_eq_false {s : State} :
    s.pulseBusy = false ↔ s.drive.pulse = none ∧ ∀ j, (s.driveKey j).state ≠ .probe := by
  simp [State.pulseBusy, allKeys]

/-- What a run's wait for rest asks for before the next pulse (R152). -/
def State.pulseReady (s : State) (k : Key) : Prop :=
  (s.driveKey k).state = .rest ∧ (s.driveKey k).lastPos.val < (s.driveKey k).repetitionAt ∧
    (∀ t, s.run.lastFire = some t → t + 150000 ≤ s.now) ∧ s.drive.pulse = none ∧ ∀ j, (s.driveKey j).state ≠ .probe

theorem requestPulse_cases {k : Key} {deadline : Nat} {s : State} (h : s.run.state = .running)
    (hw : s.run.wait = .rest deadline) (hk : s.run.current = some k) :
    (s.pulseReady k → requestPulse s =
      { s with
        run := { s.run with wait := .pending }, drive := { s.drive with pulse := some (PendingPulse.mk k s.run.level) } }) ∧
    (¬ s.pulseReady k → requestPulse s = s) := by
  have hspaced : (match s.run.lastFire with
      | some t => decide (t + Config.pulseSpacingMicros ≤ s.now)
      | none => true) = true ↔ ∀ t, s.run.lastFire = some t → t + 150000 ≤ s.now := by
    cases s.run.lastFire <;> simp [Config.pulseSpacingMicros]
  have hcond : (atRest k s && (match s.run.lastFire with
      | some t => decide (t + Config.pulseSpacingMicros ≤ s.now)
      | none => true) && !s.pulseBusy) = true ↔ s.pulseReady k := by
    rw [Bool.and_eq_true, Bool.and_eq_true, atRest_iff, hspaced, Bool.not_eq_true', pulseBusy_eq_false, State.pulseReady]
    simp only [and_assoc]
  simp only [requestPulse, h, hw, hk]
  exact ⟨fun g => if_pos (hcond.mpr g), fun g => if_neg (mt hcond.mp g)⟩

theorem requestPulse_idle {s : State}
    (h : s.run.state ≠ .running ∨ s.run.current = none ∨ ∀ deadline, s.run.wait ≠ .rest deadline) : requestPulse s = s := by
  unfold requestPulse
  split
  · next deadline k hs hw hk =>
    obtain h | h | h := h
    · exact absurd hs h
    · rw [h] at hk; cases hk
    · exact absurd hw (h deadline)
  · rfl

/-- A key record in PROBE with its pulse in flight and its heat risen (R104, R141, R142). -/
def DriveKey.probing (d : DriveKey) (now applied : Nat) : DriveKey :=
  let heat := min 65535 (d.heat + applied / 16)
  { d with
    state := .probe, owner := none, heat := heat
    fire := some { kind := .pulse, firedAt := now, grace := now + 120000, applied := applied }
    warm := if 24000 ≤ heat then true else if heat < 20000 then false else d.warm
    hot := if 48000 ≤ heat then true else if heat < 40000 then false else d.hot }

theorem firePulse_of_nothing_written {k : Key} {level : Nat} {s : State} (h : (s.driveKey k).state = .rest)
    (hw : (s.capKey k).held = false ∨ s.cap.state ≠ .recording) :
    firePulse k level s =
      (s.setDriveKey k ((s.driveKey k).probing s.now (s.drive.applied level))).setCapKey k
        { (s.capKey k) with state := .up, gate1At := none, held := false } := by
  refine (putDriveKey_leaving h (by simp [DriveKey.withHeat])).trans ?_
  exact ownKey_of_nothing_written (s := s.setDriveKey k _) hw

theorem firePending_none {s : State} (h : s.drive.pulse = none) : firePending s = s := by simp only [firePending, h]

/-- A pending pulse can fire (R141). -/
def State.pulseFree (s : State) (k : Key) : Prop :=
  (s.driveKey k).state = .rest ∧ (s.driveKey k).hot = false ∧ s.drive.sag = false ∧ s.slotsHeld < s.drive.slots

theorem firePending_cond {s : State} {k : Key} :
    ((s.driveKey k).state = .rest ∧ ¬ (s.driveKey k).hot = true ∧ ¬ s.drive.sag = true ∧ s.slotFree = true) ↔
      s.pulseFree k := by
  simp [State.pulseFree, State.slotFree]

theorem firePending_refused {s : State} {p : PendingPulse} (hp : s.drive.pulse = some p) (h : ¬ s.pulseFree p.key) :
    firePending s = s := by
  simp only [firePending, hp]
  exact if_neg (mt firePending_cond.mp h)

theorem firePending_fires {s : State} {p : PendingPulse} (hp : s.drive.pulse = some p) (h : s.pulseFree p.key)
    (hw : (s.capKey p.key).held = false ∨ s.cap.state ≠ .recording) :
    let t := ({ s with drive := { s.drive with pulse := none } } : State).setDriveKey p.key
        ((s.driveKey p.key).probing s.now (s.drive.applied p.level)) |>.setCapKey p.key
          { (s.capKey p.key) with state := .up, gate1At := none, held := false }
    firePending s =
      if s.run.wait = .pending ∧ s.run.current = some p.key then
        { t with run := { s.run with probes := s.run.probes + 1, lastFire := some s.now, wait := .inFlight } }
      else t := by
  have hfire := firePulse_of_nothing_written (k := p.key) (level := p.level)
    (s := { s with drive := { s.drive with pulse := none } }) h.1 hw
  simp only [firePending, hp]
  refine (if_pos (firePending_cond.mpr h)).trans ?_
  simp only [hfire]
  rfl

/-! ### The rest deadline (R152, R161) -/

theorem restDeadlineReached_cases {k : Key} {deadline : Nat} {s : State} (h : s.run.state = .running)
    (hw : s.run.wait = .rest deadline) (hk : s.run.current = some k) :
    (s.now < deadline ∨ atRest k s = true → restDeadlineReached s = s) ∧
      (deadline ≤ s.now → ¬ atRest k s = true → restDeadlineReached s = endKey k .disturbed id s) := by
  simp only [restDeadlineReached, h, hw, hk]
  refine ⟨fun g => if_neg fun c => ?_, fun hd hr => if_pos ⟨hd, hr⟩⟩
  obtain g | g := g
  · exact absurd c.1 (not_le.mpr g)
  · exact c.2 g

theorem restDeadlineReached_idle {s : State}
    (h : s.run.state ≠ .running ∨ s.run.current = none ∨ ∀ deadline, s.run.wait ≠ .rest deadline) :
    restDeadlineReached s = s := by
  unfold restDeadlineReached
  split
  · next deadline k hs hw hk =>
    obtain h | h | h := h
    · exact absurd hs h
    · rw [h] at hk; cases hk
    · exact absurd hw (h deadline)
  · rfl

/-- The end of a run at which a key failed raises both its notices (R161). -/
theorem finishRun_noticed {s : State} (h : s.run.failed = true) (l : Link) :
    (finishRun s).noticed l .calDone = true ∧ (finishRun s).noticed l .keyFault = true := by
  have heq : finishRun s = raiseBoth .keyFault (raiseBoth .calDone
      (setRun { s.run with state := .idle, keys := 0, current := none, copy := none, wait := .none } s)) := if_pos h
  rw [heq]
  simp [State.noticed, link_raiseBoth, Notice.flag, Notice.position]

/-- Settles O56: the request, the fire and the rest deadline of a pulse. -/
theorem calibrationPulses : Obligations.CalibrationPulses := by
  intro s
  refine ⟨fun k deadline h hw hk => ?_, fun h => congrArg Host.Outcome.next (requestPulse_idle h), ⟨fun h => ?_, fun p hp => ?_⟩,
    fun k deadline h hw hk => ?_, fun h => congrArg Host.Outcome.next (restDeadlineReached_idle h)⟩
  · obtain ⟨hready, hnot⟩ := requestPulse_cases h hw hk
    exact ⟨fun g => congrArg Host.Outcome.next (hready g), fun g => congrArg Host.Outcome.next (hnot g)⟩
  · exact congrArg Host.Outcome.next (firePending_none h)
  · exact ⟨fun h => congrArg Host.Outcome.next (firePending_refused hp h),
      fun h hheld => congrArg Host.Outcome.next (firePending_fires hp h hheld)⟩
  · dsimp only
    rw [← atRest_iff]
    obtain ⟨hearly, hlate⟩ := restDeadlineReached_cases h hw hk
    refine ⟨fun g => congrArg Host.Outcome.next (hearly g), fun hd hr => ⟨_, congrArg Host.Outcome.next (hlate hd hr), ?_⟩⟩
    obtain ⟨hentry, habove, hcheck, hfailed, hcurrent, hstop⟩ := endKey_failing k (r := .disturbed) rfl id s
    refine ⟨hentry, habove, hcheck, hfailed, hcurrent, fun g => ?_⟩
    rw [hstop g]
    refine ⟨by rw [finishRun_run], finishRun_noticed ?_⟩
    exact Bool.or_true _

end Sys2Proof.Machine
end

section
/-! SUPPORT. Keys put into BLOCKED and cleared, and the end of STOPPING, for a scheduler with nothing to process (R139, R140,
R144, R162). -/

namespace Sys2Proof.Machine

/-! ### The let-go window runs out (R139) -/

theorem letGoOver_idle {k : Key} {s : State}
    (h : (s.driveKey k).state ≠ .letgo ∨ ∃ t, (s.driveKey k).letGoAt = some t ∧ s.now < t) : letGoOver k s = s := by
  unfold letGoOver
  dsimp only
  split
  · next t hs ht =>
    obtain h | ⟨u, hu, hlt⟩ := h
    · exact absurd hs h
    · rw [ht] at hu; cases hu
      rw [if_neg (by omega)]
  · rfl

/-- A key record put into BLOCKED. -/
def DriveKey.blocking (d : DriveKey) : DriveKey := { d with state := .blocked, letGoAt := none }

theorem NothingToSchedule.raiseBoth {s : State} (h : NothingToSchedule s) (n : Notice) : NothingToSchedule (raiseBoth n s) :=
  h.of_eq rfl rfl rfl rfl rfl

theorem finishRun_of_failed (s : State) :
    finishRun s =
      let v := raiseBoth .calDone
        { s with run := { s.run with state := .idle, keys := 0, current := none, copy := none, wait := .none } }
      if s.run.failed then Machine.raiseBoth .keyFault v else v := rfl

theorem NothingToSchedule.finishRun {s : State} (h : NothingToSchedule s) : NothingToSchedule (finishRun s) := by
  rw [finishRun_of_failed]
  dsimp only
  split <;> exact h.of_eq rfl rfl rfl rfl rfl

/-- The expiry of a let-go window: the key in BLOCKED, KEY_FAULT, and the end of STOPPING where it is that key's (R139, R162). -/
theorem letGoOver_due {k : Key} {s : State} {t : Nat} (h : (s.driveKey k).state = .letgo)
    (hl : (s.driveKey k).letGoAt = some t) (ht : t ≤ s.now) (hn : NothingToSchedule s) :
    letGoOver k s =
      if s.run.state = .stopping ∧ s.run.current = some k then
        finishRun (raiseBoth .keyFault (s.setDriveKey k (s.driveKey k).blocking))
      else raiseBoth .keyFault (s.setDriveKey k (s.driveKey k).blocking) := by
  have hput : putDriveKey k (s.driveKey k).blocking s = s.setDriveKey k (s.driveKey k).blocking :=
    putDriveKey_driven (by simp [h]) (by simp [DriveKey.blocking])
  have hblocked := (hn.setDriveKey k (s.driveKey k).blocking).raiseBoth .keyFault
  have hstate : ((raiseBoth .keyFault (s.setDriveKey k (s.driveKey k).blocking)).driveKey k).state ≠ .letgo := by
    have hkey : (raiseBoth .keyFault (s.setDriveKey k (s.driveKey k).blocking)).driveKey k = (s.driveKey k).blocking :=
      driveKey_setDriveKey_same s k _
    rw [hkey]
    simp [DriveKey.blocking]
  have hexpiry : letGoOver k s =
      takeAll (endStopping k (reportKey k (raiseBoth .keyFault (putDriveKey k (s.driveKey k).blocking s)))) := by
    simp only [letGoOver, h, hl, if_pos ht]
    rfl
  rw [hexpiry, hput, reportKey_of_nothing hblocked]
  by_cases hend : s.run.state = .stopping ∧ s.run.current = some k
  · rw [if_pos hend, endStopping, if_pos ⟨hend.1, hend.2, hstate⟩, takeAll_of_nothing hblocked.finishRun]
  · rw [if_neg hend, endStopping, if_neg fun c => hend ⟨c.1, c.2.1⟩, takeAll_of_nothing hblocked]

/-! ### Keys cleared (R140, R144) -/

theorem settleRest_of_nothing {k : Key} {s : State} (hn : NothingToSchedule s) (h : (s.driveKey k).state ≠ .rest) :
    settleRest k s =
      quietIfAtRest ((s.setDriveKey k (s.driveKey k).resting).setCapKey k
        { (s.capKey k) with state := .up, gate1At := none, held := false }) := by
  have hrest : enterRest k s = (s.setDriveKey k (s.driveKey k).resting).setCapKey k
      { (s.capKey k) with state := .up, gate1At := none, held := false } := putDriveKey_returning h rfl
  have hquiet : NothingToSchedule (quietIfAtRest (enterRest k s)) := by
    rw [hrest]
    unfold quietIfAtRest
    split <;> exact hn.of_eq rfl rfl rfl rfl rfl
  rw [← hrest]
  simp only [settleRest]
  split
  · exact reportKey_of_nothing hquiet
  · exact reportSupply_of_nothing hquiet

theorem quietIfAtRest_of_rest {s : State} (h : s.drive.power = .quietPending ∧ s.allRest = true) :
    quietIfAtRest s = enterQuiet s := if_pos h

theorem quietIfAtRest_of_driven {s : State} (h : ¬ (s.drive.power = .quietPending ∧ s.allRest = true)) :
    quietIfAtRest s = s := if_neg h

theorem allRest_iff {s : State} : s.allRest = true ↔ ∀ k, (s.driveKey k).state = .rest := by
  simp [State.allRest, allKeys]

/-- `t` is `s` with the keys `ks` returned to REST, the capture unit taking them back, and QUIET_PENDING left for QUIET with
the last key not in REST. -/
structure Rested (ks : List Key) (s t : State) : Prop where
  drive  : ∀ k, t.driveKey k = if k ∈ ks then (s.driveKey k).resting else s.driveKey k
  cap    : ∀ k, t.capKey k =
    if k ∈ ks then { (s.capKey k) with state := .up, gate1At := none, held := false } else s.capKey k
  store  : t.store = s.store
  sched  : t.sched = s.sched
  layer0 : t.layer0 = s.layer0
  layer1 : t.layer1 = s.layer1
  queue  : t.drive.queue = s.drive.queue
  clk    : t.clk = s.clk
  power  : t.drive.power =
    if s.drive.power = .quietPending ∧ ks ≠ [] ∧ ∀ k, (t.driveKey k).state = .rest then .quiet else s.drive.power

theorem Rested.nil (s : State) : Rested [] s s :=
  ⟨fun k => by simp, fun k => by simp, rfl, rfl, rfl, rfl, rfl, rfl, by simp⟩

theorem Rested.nothing {ks : List Key} {s t : State} (h : Rested ks s t) (hn : NothingToSchedule s) : NothingToSchedule t :=
  hn.of_eq h.queue h.clk (congrArg Scheduler.plan h.sched) h.layer0 h.layer1

/-- One more key cleared. -/
theorem Rested.settle {ks : List Key} {k : Key} {s t : State} (h : Rested ks s t) (hn : NothingToSchedule s)
    (hk : (s.driveKey k).state ≠ .rest) (hnew : k ∉ ks) : Rested (ks ++ [k]) s (settleRest k t) := by
  have htk : t.driveKey k = s.driveKey k := by rw [h.drive, if_neg hnew]
  have hck : t.capKey k = s.capKey k := by rw [h.cap, if_neg hnew]
  have hpower : t.drive.power = s.drive.power := by
    rw [h.power, if_neg]
    rintro ⟨-, -, hall⟩
    exact hk (htk ▸ hall k)
  rw [settleRest_of_nothing (h.nothing hn) (htk ▸ hk), htk, hck]
  generalize hu : (t.setDriveKey k _).setCapKey k _ = u
  have hdrive : ∀ j, u.driveKey j = if j ∈ ks ++ [k] then (s.driveKey j).resting else s.driveKey j := fun j => by
    rw [← hu, driveKey_setCapKey]
    by_cases hj : j = k
    · subst hj; simp
    · rw [driveKey_setDriveKey_other _ _ hj, h.drive]
      simp [hj]
  have hcap : ∀ j, u.capKey j =
      if j ∈ ks ++ [k] then { (s.capKey j) with state := .up, gate1At := none, held := false } else s.capKey j := fun j => by
    rw [← hu]
    by_cases hj : j = k
    · subst hj; simp
    · rw [capKey_setCapKey_other _ _ hj, capKey_setDriveKey, h.cap]
      simp [hj]
  have hupower : u.drive.power = s.drive.power := by rw [← hu]; exact hpower
  by_cases hq : u.drive.power = .quietPending ∧ u.allRest = true
  · rw [quietIfAtRest_of_rest hq]
    refine ⟨hdrive, hcap, ?_, ?_, ?_, ?_, ?_, ?_, ?_⟩
    case refine_7 => exact (if_pos ⟨hupower ▸ hq.1, by simp, allRest_iff.mp hq.2⟩).symm
    all_goals rw [← hu]
    · exact h.store
    · exact h.sched
    · exact h.layer0
    · exact h.layer1
    · exact h.queue
    · exact h.clk
  · rw [quietIfAtRest_of_driven hq]
    refine ⟨hdrive, hcap, ?_, ?_, ?_, ?_, ?_, ?_, ?_⟩
    case refine_7 =>
      rw [hupower, if_neg]
      exact fun c => hq ⟨hupower.trans c.1, allRest_iff.mpr c.2.2⟩
    all_goals rw [← hu]
    · exact h.store
    · exact h.sched
    · exact h.layer0
    · exact h.layer1
    · exact h.queue
    · exact h.clk

@[simp] theorem driveKey_replied (s : State) (l : Link) (q : Request) (st : Status) (body : List Byte) (k : Key) :
    (s.replied l q st body).driveKey k = s.driveKey k := driveKey_setLink ..

@[simp] theorem capKey_replied (s : State) (l : Link) (q : Request) (st : Status) (body : List Byte) (k : Key) :
    (s.replied l q st body).capKey k = s.capKey k := capKey_setLink ..

/-- Keys cleared one after the other, each named once. -/
theorem rested_foldl {s : State} (hn : NothingToSchedule s) (ks : List Key) (hks : ks.Nodup)
    (hdriven : ∀ k ∈ ks, (s.driveKey k).state ≠ .rest) : Rested ks s (ks.foldl (fun s k => settleRest k s) s) := by
  induction ks using List.reverseRecOn with
  | nil => exact .nil s
  | append_singleton ks k ih =>
    obtain ⟨hks, -, hdisjoint⟩ := List.nodup_append.mp hks
    rw [List.foldl_append]
    exact (ih hks fun j hj => hdriven j (List.mem_append_left _ hj)).settle hn (hdriven k (by simp))
      fun hk => hdisjoint k hk k (by simp) rfl

/-- A named key stands BLOCKED below its repetition threshold. -/
theorem clearable_eq {s : State} {keys : BitVec 88} {k : Key} :
    (inKeySet keys k && clearable s k) =
      ((keys.getLsbD k.val && decide ((s.driveKey k).state = .blocked)) &&
        decide ((s.driveKey k).lastPos.val < (s.driveKey k).repetitionAt)) := by
  have hlow : (!(s.driveKey k).touched) = decide ((s.driveKey k).lastPos.val < (s.driveKey k).repetitionAt) := by
    simp only [DriveKey.touched, ← decide_not, not_le]
  rw [clearable, hlow, Bool.and_assoc]
  rfl

/-- The keys a KEYS CLEAR clears: the named keys BLOCKED below their repetition threshold. -/
def clearedKeys (keys : BitVec 88) (s : State) : List Key :=
  allKeys.filter fun k => (keys.getLsbD k.val && decide ((s.driveKey k).state = .blocked)) &&
    decide ((s.driveKey k).lastPos.val < (s.driveKey k).repetitionAt)

theorem keysOf_filter_clearable (keys : BitVec 88) (s : State) : (keysOf keys).filter (clearable s) = clearedKeys keys s := by
  rw [keysOf, List.filter_filter, clearedKeys]
  refine List.filter_congr fun k _ => ?_
  rw [← clearable_eq, Bool.and_comm]

theorem mem_clearedKeys {keys : BitVec 88} {s : State} {k : Key} :
    k ∈ clearedKeys keys s ↔ ((keys.getLsbD k.val && decide ((s.driveKey k).state = .blocked)) &&
      decide ((s.driveKey k).lastPos.val < (s.driveKey k).repetitionAt)) = true := by
  simp [clearedKeys, allKeys]

theorem clearedKeys_ne_nil {keys : BitVec 88} {s : State} :
    clearedKeys keys s ≠ [] ↔ ∃ k : Key, ((keys.getLsbD k.val && decide ((s.driveKey k).state = .blocked)) &&
      decide ((s.driveKey k).lastPos.val < (s.driveKey k).repetitionAt)) = true := by
  simp only [← mem_clearedKeys]
  exact ⟨List.exists_mem_of_ne_nil _, fun ⟨_, hk⟩ => List.ne_nil_of_mem hk⟩

/-- A key is still BLOCKED after the clearing exactly where it was and was not cleared. -/
theorem Rested.stillBlocked {keys : BitVec 88} {s t : State} (h : Rested (clearedKeys keys s) s t) (k : Key) :
    (inKeySet keys k && decide ((t.driveKey k).state = .blocked)) =
      ((keys.getLsbD k.val && decide ((s.driveKey k).state = .blocked)) &&
        !decide ((s.driveKey k).lastPos.val < (s.driveKey k).repetitionAt)) := by
  rw [h.drive k]
  have hmem := mem_clearedKeys (keys := keys) (s := s) (k := k)
  split
  · next hk =>
    have hk := hmem.mp hk
    simp only [Bool.and_eq_true] at hk
    simp [DriveKey.resting, hk.2]
  · next hk =>
    have hk := (Bool.not_eq_true _).mp (mt hmem.mpr hk)
    simp only [inKeySet]
    cases hnamed : (keys.getLsbD k.val && decide ((s.driveKey k).state = .blocked))
    · simp
    · rw [hnamed, Bool.true_and] at hk
      simp [hk]

theorem answerKeysClear_of_nothing {keys : BitVec 88} {s : State} (hn : NothingToSchedule s) :
    ∃ t, Rested (clearedKeys keys s) s t ∧ answerKeysClear keys s =
      { status := .ok
        body := byte4 (clearedKeys keys s).length ++ keySetBytes (keySetOf fun k =>
          (keys.getLsbD k.val && decide ((s.driveKey k).state = .blocked)) &&
            !decide ((s.driveKey k).lastPos.val < (s.driveKey k).repetitionAt))
        state := t } := by
  have hrested := rested_foldl hn (clearedKeys keys s) ((List.nodup_finRange 88).filter _) fun k hk => by
    have hk := mem_clearedKeys.mp hk
    simp only [Bool.and_eq_true, decide_eq_true_eq] at hk
    simp [hk.1.2]
  refine ⟨_, hrested, ?_⟩
  simp only [answerKeysClear, keysOf_filter_clearable, takeAll_of_nothing (hrested.nothing hn), hrested.stillBlocked]

/-- Settles O52: the key put into BLOCKED, the events that change nothing, and KEYS CLEAR. -/
theorem blockedKeysAreEnteredAndCleared : Obligations.BlockedKeysAreEnteredAndCleared := by
  refine ⟨fun k s t h hl => ⟨fun ht hn => ?_, fun ht => congrArg Host.Outcome.next (letGoOver_idle (.inr ⟨t, hl, ht⟩))⟩,
    fun k s h => congrArg Host.Outcome.next (letGoOver_idle (.inl h)), fun l keys s hl => ?_⟩
  · have hdue := letGoOver_due h hl ht hn
    refine ⟨fun hend => ?_, fun hend => ?_⟩
    · exact congrArg Host.Outcome.next (hdue.trans (if_neg hend))
    · exact congrArg Host.Outcome.next ((hdue.trans (if_pos hend)).trans (finishRun_of_failed _))
  · have hexec : exec (.keysClear l keys) s = .next (serve l (.keysClear keys) (answerKeysClear keys) s) := rfl
    have hkeeps := answerKeysClear_keeps keys s
    refine ⟨_, (answerKeysClear keys s).body,
      hexec.trans (congrArg Host.Outcome.next (serve_standing _ (serves_of_serving hl))), ?_⟩
    refine ⟨by rw [replied_link]; rfl, by rw [replied_clk, hkeeps.clk], by rw [replied_map, hkeeps.map],
      by rw [replied_run, hkeeps.run], by rw [replied_wall, hkeeps.wall], fun hn => ?_⟩
    obtain ⟨t, hrested, heq⟩ := answerKeysClear_of_nothing (keys := keys) hn
    rw [heq]
    simp only [replied_store, replied_sched, replied_layer0, replied_layer1, replied_drive, driveKey_replied, capKey_replied]
    refine ⟨?_, fun k => ?_, fun k => ?_, hrested.store, hrested.sched, hrested.layer0, hrested.layer1, ?_⟩
    · rw [byte4_eq]
      rfl
    · refine (hrested.drive k).trans ?_
      simp only [mem_clearedKeys]
      rfl
    · refine (hrested.cap k).trans ?_
      simp only [mem_clearedKeys]
    · refine hrested.power.trans (if_congr (and_congr_right fun _ => and_congr_left fun _ => ?_) rfl rfl)
      rw [clearedKeys_ne_nil]
      simp only [Bool.and_eq_true, decide_eq_true_eq]

end Sys2Proof.Machine
end

section
/-! SUPPORT. What the scheduler's operations leave: the outputs a layer's demands reach, the capture unit's part of a drive
state change, and the plan, the wait queue and the drop list after an action leaves, waits or is dropped (R118, R121, R122). -/

namespace Sys2Proof.Machine

/-! ### Demands, outputs and layers -/

/-- `t` is `s` but for the layers, the pedal outputs and notices raised. -/
structure OutputsOnly (s t : State) : Prop where
  sched : t.sched = s.sched
  drive : t.drive = { s.drive with pedals := t.drive.pedals }
  cap   : t.cap = s.cap
  store : t.store = s.store
  keeps : Keeps s t

theorem OutputsOnly.refl (s : State) : OutputsOnly s s := ⟨rfl, rfl, rfl, rfl, .refl s⟩

theorem OutputsOnly.trans {s t u : State} (h : OutputsOnly s t) (g : OutputsOnly t u) : OutputsOnly s u :=
  ⟨g.sched.trans h.sched, by rw [g.drive, h.drive], g.cap.trans h.cap, g.store.trans h.store, h.keeps.trans g.keeps⟩

theorem OutputsOnly.foldl {α : Type} {f : State → α → State} (h : ∀ s x, OutputsOnly s (f s x)) (xs : List α) (s : State) :
    OutputsOnly s (xs.foldl f s) := by
  induction xs generalizing s with
  | nil => exact .refl s
  | cons x xs ih => exact (h s x).trans (ih _)

theorem OutputsOnly.setLayer (s : State) (y : LayerId) (l : Layer) : OutputsOnly s (s.setLayer y l) := by
  cases y <;> exact ⟨rfl, rfl, rfl, rfl, Keeps.setLayer ..⟩

theorem OutputsOnly.keys {s t : State} (h : OutputsOnly s t) : t.drive.keys = s.drive.keys := by rw [h.drive]
theorem OutputsOnly.queue {s t : State} (h : OutputsOnly s t) : t.drive.queue = s.drive.queue := by rw [h.drive]
theorem OutputsOnly.driveKey {s t : State} (h : OutputsOnly s t) (k : Key) : t.driveKey k = s.driveKey k := by
  rw [State.driveKey, State.driveKey, h.keys]

theorem drivePedal_outputs (p : Pedal) (s : State) : OutputsOnly s (drivePedal p s) := by
  have hput (r : PedalDrive) :
      OutputsOnly s { s with drive := { s.drive with pedals := bankSet s.drive.pedals p r } } :=
    ⟨rfl, rfl, rfl, rfl, Keeps.inner ..⟩
  unfold drivePedal
  dsimp only
  split
  · split
    · exact hput _
    · exact hput _
    · split <;> exact hput _
  · exact hput _

theorem setDemand_outputs (y : LayerId) (p : Pedal) (v : Option Nat) (s : State) : OutputsOnly s (setDemand y p v s) := by
  unfold setDemand
  split
  · exact .refl s
  · exact (OutputsOnly.setLayer ..).trans (drivePedal_outputs ..)

theorem dropDemands_outputs (y : LayerId) (s : State) : OutputsOnly s (dropDemands y s) :=
  .foldl (fun s p => setDemand_outputs y p none s) _ s

theorem endIfDone_outputs (y : LayerId) (s : State) : OutputsOnly s (endIfDone y s) := by
  unfold endIfDone
  dsimp only
  split
  · exact ((OutputsOnly.setLayer ..).trans (dropDemands_outputs ..)).trans ⟨rfl, rfl, rfl, rfl, Keeps.raiseBoth ..⟩
  · exact .refl s

/-- A demand changed leaves every layer's other fields. -/
theorem drivePedal_layer (p : Pedal) (s : State) (y : LayerId) : (drivePedal p s).layer y = s.layer y := by
  have h : (drivePedal p s).layer0 = s.layer0 ∧ (drivePedal p s).layer1 = s.layer1 := by
    unfold drivePedal
    dsimp only
    split
    · split
      · exact ⟨rfl, rfl⟩
      · exact ⟨rfl, rfl⟩
      · split <;> exact ⟨rfl, rfl⟩
    · exact ⟨rfl, rfl⟩
  cases y
  · exact h.1
  · exact h.2

theorem setDemand_of_same {y : LayerId} {p : Pedal} {v : Option Nat} {s : State}
    (h : bankGet (s.layer y).demands p = v) : setDemand y p v s = s := if_pos h

theorem setDemand_of_other {y : LayerId} {p : Pedal} {v : Option Nat} {s : State}
    (h : bankGet (s.layer y).demands p ≠ v) :
    setDemand y p v s = drivePedal p (s.setLayer y { (s.layer y) with demands := bankSet (s.layer y).demands p v }) :=
  if_neg h

theorem setDemand_layer (y z : LayerId) (p : Pedal) (v : Option Nat) (s : State) :
    (setDemand y p v s).layer z =
      if z = y then { (s.layer y) with demands := bankSet (s.layer y).demands p v } else s.layer z := by
  by_cases h : bankGet (s.layer y).demands p = v
  · rw [setDemand_of_same h]
    split
    · next hz =>
      subst hz
      have hset : bankSet (s.layer z).demands p v = (s.layer z).demands := bank_ext fun q => by
        rw [bankGet_bankSet]; split
        · next hq => rw [hq, h]
        · rfl
      rw [hset]
    · rfl
  · rw [setDemand_of_other h, drivePedal_layer]
    split
    · next hz => subst hz; simp
    · next hz => rw [layer_setLayer_other _ _ hz]

/-- A layer whose demands all become absent keeps its other fields. -/
theorem dropDemands_layer_same (y : LayerId) (s : State) :
    ∃ b, (dropDemands y s).layer y = { (s.layer y) with demands := b } := by
  have hfold : ∀ (ps : List Pedal) (s : State), ∃ b,
      (ps.foldl (fun s p => setDemand y p none s) s).layer y = { (s.layer y) with demands := b } := by
    intro ps
    induction ps with
    | nil => exact fun s => ⟨_, rfl⟩
    | cons p ps ih =>
      intro s
      obtain ⟨b, hb⟩ := ih (setDemand y p none s)
      refine ⟨b, hb.trans ?_⟩
      rw [setDemand_layer, if_pos rfl]
  exact hfold allPedals s

/-- A layer that is looked at for its end either stays as it is, or leaves PLAYING for ENDED. -/
theorem endIfDone_cases (y : LayerId) (s : State) :
    endIfDone y s = s ∨ (s.layer y).state = .playing ∧ ((endIfDone y s).layer y).state = .ended := by
  by_cases h : (s.layer y).state = .playing ∧ (s.layer y).endFetched = true ∧ ¬ s.planHolds y = true
  · refine .inr ⟨h.1, ?_⟩
    have heq : endIfDone y s = raiseBoth .layerEnd (dropDemands y (s.setLayer y { (s.layer y) with state := .ended })) :=
      if_pos h
    obtain ⟨b, hb⟩ := dropDemands_layer_same y (s.setLayer y { (s.layer y) with state := .ended })
    have hlayer : (endIfDone y s).layer y = (dropDemands y (s.setLayer y { (s.layer y) with state := .ended })).layer y := by
      rw [heq]; cases y <;> rfl
    rw [hlayer, hb]
    simp
  · exact .inl (if_neg h)

/-! ### The capture unit's part of a drive state change (R12, R13) -/

/-- `t` is `s` but for the capture unit, the take store and notices raised. -/
structure CaptureOnly (s t : State) : Prop where
  sched  : t.sched = s.sched
  drive  : t.drive = s.drive
  layer0 : t.layer0 = s.layer0
  layer1 : t.layer1 = s.layer1
  keeps  : Keeps s t

theorem CaptureOnly.trans {s t u : State} (h : CaptureOnly s t) (g : CaptureOnly t u) : CaptureOnly s u :=
  ⟨g.sched.trans h.sched, g.drive.trans h.drive, g.layer0.trans h.layer0, g.layer1.trans h.layer1, h.keeps.trans g.keeps⟩

theorem CaptureOnly.layer {s t : State} (h : CaptureOnly s t) (y : LayerId) : t.layer y = s.layer y := by
  cases y
  · exact h.layer0
  · exact h.layer1

theorem CaptureOnly.setCapKey (s : State) (k : Key) (c : CapKey) : CaptureOnly s (s.setCapKey k c) :=
  ⟨rfl, rfl, rfl, rfl, Keeps.inner ..⟩

theorem captureWrite_only (kind target value time : Nat) (s : State) :
    CaptureOnly s (captureWrite kind target value time s) := by
  have hclose : CaptureOnly s (closeCapture time s) := by
    unfold closeCapture
    split <;> exact ⟨rfl, rfl, rfl, rfl, Keeps.inner ..⟩
  unfold captureWrite
  split
  · split
    · exact ⟨rfl, rfl, rfl, rfl, Keeps.inner ..⟩
    · exact hclose.trans ⟨rfl, rfl, rfl, rfl, Keeps.raiseBoth ..⟩
  · exact ⟨rfl, rfl, rfl, rfl, .refl s⟩

theorem ownKey_only (k : Key) (s : State) : CaptureOnly s (ownKey k s) := by
  unfold ownKey
  dsimp only
  split
  · exact (CaptureOnly.setCapKey ..).trans (captureWrite_only ..)
  · exact .setCapKey ..

/-- Whatever a key's drive record becomes, the rest is the capture unit's. -/
theorem putDriveKey_only (k : Key) (d : DriveKey) (s : State) : CaptureOnly (s.setDriveKey k d) (putDriveKey k d s) := by
  unfold putDriveKey
  dsimp only
  split
  · exact ownKey_only ..
  · split
    · exact .setCapKey ..
    · exact ⟨rfl, rfl, rfl, rfl, .refl _⟩

/-! ### Notices that stand (R169) -/

theorem Keeps.noticed {s t : State} (h : Keeps s t) {l : Link} {n : Notice} (hn : s.noticed l n = true) :
    t.noticed l n = true := by
  cases l
  · exact h.linkA.notices _ hn
  · exact h.linkB.notices _ hn

theorem noticed_raiseBoth (n : Notice) (s : State) (l : Link) : (raiseBoth n s).noticed l n = true := by
  cases n <;> simp [State.noticed, link_raiseBoth, Notice.flag, Notice.position]

/-! ### Actions leaving the plan (R121, R122) -/

theorem leavePlan_outputs (a : Action) (s : State) : OutputsOnly (removeAction a.serial s) (leavePlan a s) :=
  endIfDone_outputs ..

theorem leavePlan_plan (a : Action) (s : State) :
    (leavePlan a s).sched.plan = s.sched.plan.filter fun b => b.serial ≠ a.serial :=
  congrArg Scheduler.plan (leavePlan_outputs a s).sched

theorem leavePlan_queue (a : Action) (s : State) :
    (leavePlan a s).drive.queue = s.drive.queue.filter fun n => n ≠ a.serial := (leavePlan_outputs a s).queue

theorem leavePlan_keys (a : Action) (s : State) : (leavePlan a s).drive.keys = s.drive.keys := (leavePlan_outputs a s).keys

theorem leavePlan_drops (a : Action) (s : State) : (leavePlan a s).sched.drops = s.sched.drops := by
  rw [(leavePlan_outputs a s).sched]; rfl

theorem leavePlan_memory (a : Action) (s : State) : (leavePlan a s).sched.memory = s.sched.memory := by
  rw [(leavePlan_outputs a s).sched]; rfl

/-- A strike dropped: its entry, and its leaving. -/
theorem dropStrike_eq {a : Action} {k : Key} {v d f : Nat} {w : Option WaitReason} (reason : DropReason) (s : State)
    (h : a.body = .strike k v d f w) :
    dropStrike reason a s = leavePlan a (addDrop (DropEntry.mk reason (.key k.val) a.layer a.event (some v)) s) := by
  simp only [dropStrike, h]

theorem pushDrop_eq (e : DropEntry) (l : List DropEntry) : pushDrop e l = (l ++ [e]).drop (l.length + 1 - 16) := by
  simp [pushDrop, Config.dropPlaces]

/-- What a dropped strike leaves: the plan, the queue and the drop list, with DROPS in both sets. -/
structure Dropped (reason : DropReason) (a : Action) (k : Key) (v : Nat) (s t : State) : Prop where
  plan    : t.sched.plan = s.sched.plan.filter fun b => b.serial ≠ a.serial
  queue   : t.drive.queue = s.drive.queue.filter fun n => n ≠ a.serial
  keys    : t.drive.keys = s.drive.keys
  store   : t.store = s.store
  cap     : t.cap = s.cap
  memory  : t.sched.memory = s.sched.memory
  late    : t.sched.late = s.sched.late
  drops   : t.sched.drops = pushDrop (DropEntry.mk reason (.key k.val) a.layer a.event (some v)) s.sched.drops
  notices : ∀ l, t.noticed l .drops = true
  keeps   : Keeps s t

theorem dropped_dropStrike {a : Action} {k : Key} {v d f : Nat} {w : Option WaitReason} (reason : DropReason) (s : State)
    (h : a.body = .strike k v d f w) : Dropped reason a k v s (dropStrike reason a s) := by
  rw [dropStrike_eq reason s h]
  generalize hu : addDrop (DropEntry.mk reason (.key k.val) a.layer a.event (some v)) s = u
  have hout := leavePlan_outputs a u
  have hleave : Keeps (removeAction a.serial u) (leavePlan a u) := hout.keeps
  have hadd : Keeps s u := hu ▸ addDrop_keeps _ s
  exact {
    plan := by rw [leavePlan_plan, ← hu]; rfl
    queue := by rw [leavePlan_queue, ← hu]; rfl
    keys := by rw [leavePlan_keys, ← hu]; rfl
    store := hout.store.trans (by rw [← hu]; rfl)
    cap := hout.cap.trans (by rw [← hu]; rfl)
    memory := by rw [leavePlan_memory, ← hu]; rfl
    late := (congrArg Scheduler.late hout.sched).trans (by rw [← hu]; rfl)
    drops := by rw [leavePlan_drops, ← hu]; rfl
    notices := fun l => hleave.noticed ((removeAction_keeps a.serial u).noticed (hu ▸ noticed_raiseBoth .drops _ l))
    keeps := hadd.trans ((removeAction_keeps _ u).trans hleave) }

theorem waitStrike_eq (w : WaitReason) (a : Action) (s : State) :
    waitStrike w a s =
      { s with
        sched := { s.sched with plan := s.sched.plan.map fun b => if b.serial = a.serial then b.withWait w else b }
        drive := { s.drive with
          queue := (s.drive.queue.filter fun n => n ≠ a.serial) ++ if w = .slot then [a.serial] else [] } } := by
  unfold waitStrike
  split <;> simp

/-! ### A strike fired (R133) -/

theorem takeStrike_eq {a : Action} {k : Key} {v d f : Nat} {w : Option WaitReason} (s : State)
    (h : a.body = .strike k v d f w) :
    takeStrike a s = leavePlan a (fireStrike k a.layer a.event v d f s) := by
  simp only [takeStrike, h]

/-- A key's record with a strike of an action's layer in flight (R101, R104, R133, R142). -/
def DriveKey.struck (d : DriveKey) (s : State) (k : Key) (y : LayerId) (event velocity demand flight : Nat) : DriveKey :=
  let e := bankGet s.map.keys k
  let applied := s.drive.applied demand
  let heat := min 65535 (d.heat + applied / 16)
  { state := .strike, owner := some y, lastPos := d.lastPos, lastFire := some s.clk.position
    fire := some
      { kind := .strike y event velocity demand flight (s.now + flight), firedAt := s.now, grace := s.now + flight + 10000
        applied := applied }
    sustainDemand := some (if e.state = 1 then e.sd.toNat else 0)
    reboundGap := some (if e.state = 1 then e.rebound.toNat else 10), sustain := none, reboundEnd := none
    letGoAt := d.letGoAt, repetitionAt := d.repetitionAt, heat := heat
    warm := if 24000 ≤ heat then true else if heat < 20000 then false else d.warm
    hot := if 48000 ≤ heat then true else if heat < 40000 then false else d.hot }

theorem sustainDrive_eq (e : KeyEntry) : e.sustainDrive = if e.state = 1 then e.sd.toNat else 0 := by
  by_cases h : e.state = 1 <;> simp [KeyEntry.sustainDrive, KeyEntry.isSet, h]

theorem reboundGap_eq (e : KeyEntry) : e.reboundGap = if e.state = 1 then e.rebound.toNat else 10 := by
  by_cases h : e.state = 1 <;> simp [KeyEntry.reboundGap, KeyEntry.isSet, h, Config.standInRebound]

theorem repetitionMin_eq (e : KeyEntry) : e.repetitionMin = if e.state = 1 then e.rm.toNat else 1000 := by
  by_cases h : e.state = 1 <;> simp [KeyEntry.repetitionMin, KeyEntry.isSet, h, Config.standInRepetition]

theorem fireStrike_only (k : Key) (y : LayerId) (event velocity demand flight : Nat) (s : State) :
    CaptureOnly (s.setDriveKey k ((s.driveKey k).struck s k y event velocity demand flight))
      (fireStrike k y event velocity demand flight s) := by
  have h := putDriveKey_only k ((s.driveKey k).struck s k y event velocity demand flight) s
  have heq : fireStrike k y event velocity demand flight s =
      putDriveKey k ((s.driveKey k).struck s k y event velocity demand flight) s := by
    simp only [fireStrike, sustainDrive_eq, reboundGap_eq]
    rfl
  rw [heq]
  exact h

theorem takeStrike_plan {a : Action} {k : Key} {v d f : Nat} {w : Option WaitReason} (s : State)
    (h : a.body = .strike k v d f w) :
    (takeStrike a s).sched.plan = s.sched.plan.filter fun b => b.serial ≠ a.serial := by
  rw [takeStrike_eq s h, leavePlan_plan, (fireStrike_only ..).sched]
  rfl

theorem takeStrike_queue {a : Action} {k : Key} {v d f : Nat} {w : Option WaitReason} (s : State)
    (h : a.body = .strike k v d f w) :
    (takeStrike a s).drive.queue = s.drive.queue.filter fun n => n ≠ a.serial := by
  rw [takeStrike_eq s h, leavePlan_queue, (fireStrike_only ..).drive]
  rfl

theorem takeStrike_keys {a : Action} {k : Key} {v d f : Nat} {w : Option WaitReason} (s : State)
    (h : a.body = .strike k v d f w) :
    (takeStrike a s).drive.keys = bankSet s.drive.keys k ((s.driveKey k).struck s k a.layer a.event v d f) := by
  rw [takeStrike_eq s h, leavePlan_keys, (fireStrike_only ..).drive]
  rfl

end Sys2Proof.Machine
end

section
/-! SUPPORT. The offer of a strike row by row (R118, R131), a due action carried out (R117, R137), and the waiting strikes that
pass the tolerance (R120). -/

namespace Sys2Proof.Machine

/-! ### The offer (R118, R131) -/

theorem touched_iff {d : DriveKey} : d.touched = true ↔ d.repetitionAt ≤ d.lastPos.val := by simp [DriveKey.touched]

theorem firedTooSoon_iff {k : Key} {s : State} :
    firedTooSoon k s = true ↔ ∃ tick, (s.driveKey k).lastFire = some tick ∧
      (s.clk.position : Int) - tick <
        ((if (bankGet s.map.keys k).state = 1 then (bankGet s.map.keys k).rm.toNat else 1000 : Nat) : Int) := by
  rw [← repetitionMin_eq]
  unfold firedTooSoon
  cases (s.driveKey k).lastFire with
  | none => simp
  | some f => simp

theorem yieldsNow_iff {a : Action} {k : Key} {s : State} :
    yieldsNow a k s = true ↔ (s.layer a.layer).latched.yieldKeys = true ∧ (s.driveKey k).state = .rest ∧
      (s.driveKey k).repetitionAt ≤ (s.driveKey k).lastPos.val := by
  simp [yieldsNow, touched_iff, and_assoc]

theorem offerStrike_yields {a : Action} {k : Key} {s : State} (h : yieldsNow a k s = true) :
    offerStrike a k s = dropStrike .yielded a s := if_pos h

theorem offerStrike_answered {a : Action} {k : Key} {s : State} (h : ¬ yieldsNow a k s = true) :
    offerStrike a k s = applyAnswer (offerAnswer k s) a s := if_neg h

/-- Row 5 of the offer test: the key is not at rest, is touched, or was fired too lately (R131). -/
def State.keyWaits (s : State) (k : Key) : Prop :=
  (s.driveKey k).state ≠ .rest ∨ (s.driveKey k).touched = true ∨ firedTooSoon k s = true

theorem offerAnswer_of_test {k : Key} {s : State} {ans : OfferAnswer} (h : offerTest k s = some ans) :
    offerAnswer k s = ans := by simp only [offerAnswer, h]

theorem offerTest_quiet {k : Key} {s : State} (h : s.drive.power = .quiet ∨ s.drive.power = .quietPending) :
    offerTest k s = some (.refused .quiet) := by
  obtain h | h := h <;> simp only [offerTest, h]

theorem offerTest_waking {k : Key} {s : State} (h : s.drive.power = .waking) : offerTest k s = some (.wait .waking) := by
  simp only [offerTest, h]

theorem offerTest_blocked {k : Key} {s : State} (h : s.drive.power = .active) (hb : (s.driveKey k).state = .blocked) :
    offerTest k s = some (.refused .blocked) := by
  simp only [offerTest, h, if_pos hb]

theorem offerTest_hot {k : Key} {s : State} (h : s.drive.power = .active) (hb : (s.driveKey k).state ≠ .blocked)
    (hh : (s.driveKey k).hot = true) : offerTest k s = some (.refused .hot) := by
  simp only [offerTest, h, if_neg hb, if_pos hh]

theorem offerTest_key {k : Key} {s : State} (h : s.drive.power = .active) (hb : (s.driveKey k).state ≠ .blocked)
    (hh : (s.driveKey k).hot = false) (hw : s.keyWaits k) : offerTest k s = some (.wait .key) := by
  simp only [offerTest, h, if_neg hb, hh, Bool.false_eq_true, if_false]
  exact if_pos hw

theorem not_blocked_of_not_keyWaits {k : Key} {s : State} (hw : ¬ s.keyWaits k) : (s.driveKey k).state ≠ .blocked := by
  intro hb
  exact hw (.inl (by simp [hb]))

theorem offerTest_sag {k : Key} {s : State} (h : s.drive.power = .active) (hh : (s.driveKey k).hot = false)
    (hw : ¬ s.keyWaits k) (hs : s.drive.sag = true) : offerTest k s = some (.wait .sag) := by
  simp only [offerTest, h, if_neg (not_blocked_of_not_keyWaits hw), hh, Bool.false_eq_true, if_false, hs, if_true]
  exact if_neg hw

theorem offerTest_free {k : Key} {s : State} (h : s.drive.power = .active) (hh : (s.driveKey k).hot = false)
    (hw : ¬ s.keyWaits k) (hs : s.drive.sag = false) : offerTest k s = none := by
  simp only [offerTest, h, if_neg (not_blocked_of_not_keyWaits hw), hh, Bool.false_eq_true, if_false, hs]
  exact if_neg hw

theorem slotFree_iff {s : State} : s.slotFree = true ↔ s.slotsHeld < s.drive.slots := by simp [State.slotFree]

theorem offerAnswer_slot {k : Key} {s : State} (h : offerTest k s = none) (hs : s.drive.slots ≤ s.slotsHeld) :
    offerAnswer k s = .wait .slot := by
  simp only [offerAnswer, h]
  exact if_neg (mt slotFree_iff.mp (not_lt.mpr hs))

theorem offerAnswer_taken {k : Key} {s : State} (h : offerTest k s = none) (hs : s.slotsHeld < s.drive.slots) :
    offerAnswer k s = .taken := by
  simp only [offerAnswer, h]
  exact if_pos (slotFree_iff.mpr hs)

/-! ### Pedals under a changed demand (R146) -/

theorem actDeadband_eq (e : PedalEntry) : e.actDeadband = if e.state = 1 then e.deadband.toNat else 1 := by
  by_cases h : e.state = 1 <;> simp [PedalEntry.actDeadband, PedalEntry.isSet, h]

/-- The drive record the drive unit's judgement gives a pedal (R146). -/
def State.judgedPedal (s : State) (p : Pedal) : PedalDrive :=
  let merged := s.mergedDemand p
  let r := bankGet s.drive.pedals p
  let e := bankGet s.map.pedals p
  if s.drive.power.drivesPedals then
    match merged, r.applied with
    | none, _ => { merged := none, applied := none, output := 0 }
    | some m, none => { merged := merged, applied := some m, output := s.drive.applied (pedalDrive e m) }
    | some m, some a =>
      if m = 0 ∨ m = 255 ∨ e.actDeadband ≤ max m a - min m a then
        { merged := merged, applied := some m, output := s.drive.applied (pedalDrive e m) }
      else { r with merged := merged }
  else { merged := merged, applied := none, output := 0 }

theorem drivePedal_pedals (p : Pedal) (s : State) :
    (drivePedal p s).drive.pedals = bankSet s.drive.pedals p (s.judgedPedal p) := by
  cases hm : s.mergedDemand p with
  | none => simp only [drivePedal, State.judgedPedal, hm]; split <;> rfl
  | some m =>
    cases ha : (bankGet s.drive.pedals p).applied with
    | none => simp only [drivePedal, State.judgedPedal, hm, ha]; split <;> rfl
    | some a =>
      simp only [drivePedal, State.judgedPedal, hm, ha]
      split
      · split <;> rfl
      · rfl

theorem judgedPedal_undriven {s : State} {p : Pedal} (h : s.drive.power = .quiet ∨ s.drive.power = .waking) :
    s.judgedPedal p = { merged := s.mergedDemand p, applied := none, output := 0 } := by
  obtain h | h := h <;> simp [State.judgedPedal, h, Power.drivesPedals]

theorem judgedPedal_none {s : State} {p : Pedal} (hm : s.mergedDemand p = none) :
    s.judgedPedal p = { merged := none, applied := none, output := 0 } := by
  unfold State.judgedPedal
  simp only [hm]
  split <;> rfl

/-- The pedal's new drive where none is applied, at the ends of the scale, and from the deadband on; else the output held. -/
theorem judgedPedal_some {s : State} {p : Pedal} {m : Nat} (h : s.drive.power = .active ∨ s.drive.power = .quietPending)
    (hm : s.mergedDemand p = some m) :
    s.judgedPedal p =
      if ∀ a, (bankGet s.drive.pedals p).applied = some a →
          m = 0 ∨ m = 255 ∨ (bankGet s.map.pedals p).actDeadband ≤ max m a - min m a then
        { merged := some m, applied := some m, output := s.drive.applied (pedalDrive (bankGet s.map.pedals p) m) }
      else { (bankGet s.drive.pedals p) with merged := some m } := by
  have hdrives : s.drive.power.drivesPedals = true := by obtain h | h := h <;> rw [h] <;> rfl
  cases ha : (bankGet s.drive.pedals p).applied with
  | none => simp [State.judgedPedal, hdrives, hm, ha]
  | some a => simp [State.judgedPedal, hdrives, hm, ha]

/-- The judged record follows R146. -/
theorem judgedPedal_follows (p : Pedal) (s : State) :
    PedalFollows s s.drive.power p (s.mergedDemand p) (s.judgedPedal p) := by
  refine ⟨judgedPedal_undriven, fun h => ⟨fun hm => judgedPedal_none hm, fun m hm => ?_⟩⟩
  have hiff : (∀ a, (bankGet s.drive.pedals p).applied = some a →
        m = 0 ∨ m = 255 ∨ (bankGet s.map.pedals p).actDeadband ≤ max m a - min m a) ↔
      ∀ a, (bankGet s.drive.pedals p).applied = some a → m = 0 ∨ m = 255 ∨
        a + (if (bankGet s.map.pedals p).state = 1 then (bankGet s.map.pedals p).deadband.toNat else 1) ≤ m ∨
        m + (if (bankGet s.map.pedals p).state = 1 then (bankGet s.map.pedals p).deadband.toNat else 1) ≤ a := by
    rw [actDeadband_eq]
    refine forall_congr' fun a => imp_congr_right fun _ => ?_
    omega
  have heq := judgedPedal_some h hm
  exact ⟨fun c => heq.trans (if_pos (hiff.mpr c)), fun c => heq.trans (if_neg (mt hiff.mp c))⟩

/-- A layer's demand set to a new value: the pedal judged by its new merged demand, every other pedal as it was (R86, R146). -/
theorem setDemand_follows {y : LayerId} {p : Pedal} {v : Option Nat} {s : State}
    (h : bankGet (s.layer y).demands p ≠ v) :
    PedalFollows s s.drive.power p ((setDemand y p v s).mergedDemand p) (bankGet (setDemand y p v s).drive.pedals p) ∧
      ∀ q, q ≠ p → bankGet (setDemand y p v s).drive.pedals q = bankGet s.drive.pedals q := by
  rw [setDemand_of_other h]
  generalize hu : s.setLayer y { (s.layer y) with demands := bankSet (s.layer y).demands p v } = u
  have hdrive : u.drive = s.drive := by rw [← hu, setLayer_drive]
  have hmap : u.map = s.map := by rw [← hu, setLayer_map]
  have hmerged : (drivePedal p u).mergedDemand p = u.mergedDemand p := by
    have h0 := drivePedal_layer p u .l0
    have h1 := drivePedal_layer p u .l1
    simp only [layer_l0, layer_l1] at h0 h1
    simp only [State.mergedDemand, h0, h1]
  rw [hmerged, drivePedal_pedals, hdrive]
  refine ⟨?_, fun q hq => bankGet_bankSet_other _ _ hq⟩
  rw [bankGet_bankSet_same]
  have hfollows := judgedPedal_follows p u
  simpa only [PedalFollows, hdrive, hmap] using hfollows

/-! ### A due action carried out (R117, R137) -/

/-- What a PEDAL action leaves once it is carried out. -/
theorem carryOut_pedal_outputs {a : Action} {p : Pedal} {v : Nat} {s : State} (h : a.body = .pedal p v) :
    OutputsOnly (removeAction a.serial s) (carryOut a s) := by
  rw [carryOut_pedal h]
  have hset : OutputsOnly s (if (s.layer a.layer).latched.passes p then setDemand a.layer p (some v) s else s) := by
    split
    · exact setDemand_outputs ..
    · exact .refl s
  generalize (if (s.layer a.layer).latched.passes p then setDemand a.layer p (some v) s else s) = u at hset
  have hremoved : OutputsOnly (removeAction a.serial s) (removeAction a.serial u) := by
    have hdrive := hset.drive
    have hk := hset.keeps
    refine ⟨?_, ?_, hset.cap, hset.store, hk.pending, hk.wall, hk.resetLow, hk.cause, hk.clk, hk.map, hk.run, hk.linkA,
      hk.linkB⟩
    · simp only [removeAction, hset.sched]
    · simp only [removeAction]
      rw [hdrive]
  exact hremoved.trans (leavePlan_outputs a u)

/-- What is left by an action that leaves the plan after the drive unit's part of it. -/
theorem leavePlan_quietly {a : Action} {s u : State} (h : u.sched = s.sched) :
    (leavePlan a u).sched.plan = (s.sched.plan.filter fun b => b.serial ≠ a.serial) ∧
      (leavePlan a u).sched.drops = s.sched.drops ∧ (leavePlan a u).sched.memory = s.sched.memory := by
  rw [leavePlan_plan, leavePlan_drops, leavePlan_memory, h]
  exact ⟨rfl, rfl, rfl⟩

/-- The PEDAL action's demand, where its layer does not end with it. -/
theorem carryOut_pedal_demand {a : Action} {p : Pedal} {v : Nat} {s : State} (h : a.body = .pedal p v)
    (hstate : ((carryOut a s).layer a.layer).state = (s.layer a.layer).state) :
    carryOut a s =
      removeAction a.serial (if (s.layer a.layer).latched.passes p then setDemand a.layer p (some v) s else s) := by
  rw [carryOut_pedal h] at hstate ⊢
  have hu : ((removeAction a.serial
      (if (s.layer a.layer).latched.passes p then setDemand a.layer p (some v) s else s)).layer a.layer).state =
        (s.layer a.layer).state := by
    have hremove : ∀ u : State, (removeAction a.serial u).layer a.layer = u.layer a.layer := fun u => by
      cases a.layer <;> rfl
    rw [hremove]
    split
    · rw [setDemand_layer, if_pos rfl]
    · rfl
  obtain hc | ⟨hplaying, hended⟩ := endIfDone_cases a.layer (removeAction a.serial
    (if (s.layer a.layer).latched.passes p then setDemand a.layer p (some v) s else s))
  · exact hc
  · rw [hu] at hplaying
    have hcontra := hended.symm.trans (hstate.trans hplaying)
    cases hcontra

theorem holdsKey_iff {d : DriveState} : d.holdsKey = true ↔ d = .strike ∨ d = .sustain := by
  cases d <;> simp [DriveState.holdsKey]

theorem enterLetGo_driven {k : Key} {s : State} (h : (s.driveKey k).state ≠ .rest) :
    enterLetGo k s = s.setDriveKey k ((s.driveKey k).lettingGo s.now) :=
  putDriveKey_driven h (by simp [DriveKey.lettingGo])

/-- A key is held for a layer: in STRIKE or SUSTAIN with the layer its owner. -/
def State.ownedBy (s : State) (k : Key) (y : LayerId) : Prop :=
  ((s.driveKey k).state = .strike ∨ (s.driveKey k).state = .sustain) ∧ (s.driveKey k).owner = some y

theorem handRelease_of_owned {k : Key} {y : LayerId} {s : State} (h : s.ownedBy k y) :
    handRelease k y s =
      if (s.driveKey k).state = .strike then arbiter (s.setDriveKey k ((s.driveKey k).lettingGo s.now))
      else s.setDriveKey k ((s.driveKey k).lettingGo s.now) := by
  have hdriven : (s.driveKey k).state ≠ .rest := by obtain ⟨h | h, -⟩ := h <;> simp [h]
  obtain ⟨hn, -⟩ | ⟨-, -, heq⟩ := handRelease_cases k y s
  · exact absurd ⟨holdsKey_iff.mpr h.1, h.2⟩ hn
  · rw [heq, enterLetGo_driven hdriven]
    obtain ⟨hs | hs, -⟩ := h <;> simp [hs, DriveState.holdsSlot]

theorem handRelease_of_not_owned {k : Key} {y : LayerId} {s : State} (h : ¬ s.ownedBy k y) : handRelease k y s = s := by
  obtain ⟨-, heq⟩ | ⟨hs, ho, -⟩ := handRelease_cases k y s
  · exact heq
  · exact absurd ⟨holdsKey_iff.mp hs, ho⟩ h

theorem handRelease_sched {k : Key} {y : LayerId} {s : State} (hq : s.drive.queue = []) :
    (handRelease k y s).sched = s.sched := by
  by_cases h : s.ownedBy k y
  · rw [handRelease_of_owned h, arbiter_of_queue_nil (s := s.setDriveKey k _) hq]
    split <;> rfl
  · rw [handRelease_of_not_owned h]

/-- A key's record held by a DEPRESS (R137). -/
def DriveKey.depressed (d : DriveKey) (s : State) (y : LayerId) (demand : Nat) : DriveKey :=
  { d with
    state := .sustain, owner := some y, sustainDemand := some demand, reboundGap := some 0
    sustain := some (s.drive.applied demand), reboundEnd := none }

theorem handDepress_frame (k : Key) (y : LayerId) (demand : Nat) (s : State) :
    (handDepress k y demand s).sched = s.sched ∧ (handDepress k y demand s).drive.keys =
      if (s.driveKey k).state = .rest ∧ s.drive.power = .active then
        bankSet s.drive.keys k ((s.driveKey k).depressed s y demand)
      else s.drive.keys := by
  unfold handDepress
  split
  · have hput := putDriveKey_only k
      { (s.driveKey k) with
        state := .sustain, owner := some y, sustainDemand := some demand, reboundGap := some 0, sustain := none
        reboundEnd := none } s
    unfold depressKey
    generalize putDriveKey k _ s = u at hput
    have hkey : u.driveKey k = _ := (congrArg (fun d : Drive => bankGet d.keys k) hput.drive).trans
      (driveKey_setDriveKey_same s k _)
    refine ⟨hput.sched, ?_⟩
    simp only [beginSustain, State.setDriveKey, hkey]
    rw [hput.drive]
    simp [State.setDriveKey, bankSet, DriveKey.depressed, Drive.applied, Drive.vc, Drive.vsag]
  · exact ⟨rfl, rfl⟩

end Sys2Proof.Machine
end

section
/-! SUPPORT. The slot arbiter's looks (R132), and the strikes that have waited beyond the tolerance (R120). -/

namespace Sys2Proof.Machine

/-! ### The arbiter's looks (R132) -/

theorem offerTest_ne_slot (k : Key) (s : State) : offerTest k s ≠ some (.wait .slot) := by
  unfold offerTest
  dsimp only
  split
  · simp
  · simp
  · simp
  · split
    · simp
    · split
      · simp
      · split
        · simp
        · split <;> simp

/-- Each of the arbiter's answers takes its strike out of the wait queue. -/
theorem applyAnswer_queue {ans : OfferAnswer} {a : Action} {k : Key} {s : State} (hk : a.strikeKey? = some k)
    (hans : ans ≠ .wait .slot) : (applyAnswer ans a s).drive.queue = s.drive.queue.filter fun n => n ≠ a.serial := by
  obtain ⟨v, d, f, w, hb⟩ := body_of_strikeKey hk
  cases ans with
  | taken => exact takeStrike_queue s hb
  | wait w' =>
    have hw : w' ≠ .slot := fun e => hans (by rw [e])
    change (waitStrike w' a s).drive.queue = _
    rw [waitStrike_eq]
    simp [hw]
  | refused r => exact (dropped_dropStrike r s hb).queue

theorem arbiterAnswer_ne_slot (k : Key) (s : State) : (offerTest k s).getD .taken ≠ .wait .slot := by
  cases h : offerTest k s with
  | none => simp
  | some ans => exact fun e => offerTest_ne_slot k s (by rw [h]; exact congrArg some e)

theorem arbiterLoop_of_pick_none {fuel : Nat} {s : State} (h : arbiterPick s = none) : arbiterLoop fuel s = s := by
  cases fuel with
  | zero => rfl
  | succ n => simp [arbiterLoop, h]

theorem arbiterLoop_of_no_slot {fuel : Nat} {s : State} (h : s.slotFree = false) : arbiterLoop fuel s = s := by
  cases fuel with
  | zero => rfl
  | succ n => simp [arbiterLoop, h]

theorem arbiterLoop_look {fuel : Nat} {s : State} {a : Action} {k : Key} (hs : s.slotFree = true)
    (ha : arbiterPick s = some a) (hk : a.strikeKey? = some k) :
    arbiterLoop (fuel + 1) s = arbiterLoop fuel (applyAnswer ((offerTest k s).getD .taken) a s) := by
  simp only [arbiterLoop, hs, if_true, ha, hk]

/-- A look leaves the wait queue shorter. -/
theorem look_queue_lt {s : State} {a : Action} {k : Key} (ha : arbiterPick s = some a) (hk : a.strikeKey? = some k) :
    (applyAnswer ((offerTest k s).getD .taken) a s).drive.queue.length < s.drive.queue.length := by
  rw [applyAnswer_queue hk (arbiterAnswer_ne_slot k s)]
  exact List.length_filter_lt_length_iff_exists.mpr ⟨a.serial, (arbiterPick_mem ha).2.1, by simp⟩

/-- Looks beyond the wait queue's length change nothing. -/
theorem arbiterLoop_fuel {n : Nat} : ∀ {m : Nat} {s : State}, s.drive.queue.length ≤ n → s.drive.queue.length ≤ m →
    arbiterLoop n s = arbiterLoop m s := by
  induction n with
  | zero =>
    intro m s hn _
    have hnone : arbiterPick s = none := by
      have hq : s.drive.queue = [] := List.eq_nil_of_length_eq_zero (Nat.le_zero.mp hn)
      simp [arbiterPick, hq]
    rw [arbiterLoop_of_pick_none hnone, arbiterLoop_of_pick_none hnone]
  | succ n ih =>
    intro m s hn hm
    cases hs : s.slotFree with
    | false => rw [arbiterLoop_of_no_slot hs, arbiterLoop_of_no_slot hs]
    | true =>
      cases ha : arbiterPick s with
      | none => rw [arbiterLoop_of_pick_none ha, arbiterLoop_of_pick_none ha]
      | some a =>
        obtain ⟨k, hk⟩ := Option.isSome_iff_exists.mp (arbiterPick_mem ha).2.2
        have hlt := look_queue_lt ha hk
        obtain ⟨m, rfl⟩ : ∃ m', m = m' + 1 := ⟨m - 1, by omega⟩
        rw [arbiterLoop_look hs ha hk, arbiterLoop_look hs ha hk]
        exact ih (by omega) (by omega)

/-- One look, and the arbiter looks again (R132). -/
theorem arbiter_look {s : State} {a : Action} {k : Key} (hs : s.slotFree = true) (ha : arbiterPick s = some a)
    (hk : a.strikeKey? = some k) : arbiter s = arbiter (applyAnswer ((offerTest k s).getD .taken) a s) := by
  have hlt := look_queue_lt ha hk
  obtain ⟨n, hn⟩ : ∃ n, s.drive.queue.length = n + 1 := ⟨s.drive.queue.length - 1, by omega⟩
  rw [arbiter, hn, arbiterLoop_look hs ha hk]
  exact arbiterLoop_fuel (by omega) (Nat.le_refl _)

theorem arbiter_of_pick_none {s : State} (h : arbiterPick s = none) : arbiter s = s := arbiterLoop_of_pick_none h

/-! ### The drop list (R122) -/

/-- Entries added one after another: the last 16 of all of them stand. -/
theorem foldl_pushDrop {l : List DropEntry} (h : l.length ≤ 16) (es : List DropEntry) :
    es.foldl (fun l e => pushDrop e l) l = (l ++ es).drop ((l ++ es).length - 16) := by
  induction es using List.reverseRecOn with
  | nil =>
    have hzero : (l ++ []).length - 16 = 0 := by rw [List.append_nil]; omega
    rw [hzero, List.append_nil]
    rfl
  | append_singleton es e ih =>
    rw [List.foldl_append, ih, List.foldl_cons, List.foldl_nil, pushDrop_eq, ← List.append_assoc]
    have hle : (l ++ es).length - 16 ≤ (l ++ es).length := Nat.sub_le _ _
    rw [← List.drop_append_of_le_length hle, List.drop_drop]
    congr 1
    simp only [List.length_drop, List.length_append, List.length_singleton]
    omega

/-! ### Overdue strikes (R120) -/

/-- A waiting strike whose lateness exceeds the tolerance. -/
def State.overdue (s : State) (a : Action) : Bool :=
  a.wait.isSome && decide ((s.sched.late : Int) < (s.clk.position : Int) - a.due)

/-- The drop list entry of an overdue strike: LATE, SAG or QUIET by what it waits for. -/
def Action.lateEntry (a : Action) : Option DropEntry :=
  match a.body with
  | .strike k v _ _ (some w) => some (DropEntry.mk w.lateDrop (.key k.val) a.layer a.event (some v))
  | _ => none

theorem body_of_wait {a : Action} {w : WaitReason} (h : a.wait = some w) :
    ∃ k v d f, a.body = .strike k v d f (some w) := by
  unfold Action.wait at h
  split at h
  · next k v d f _ hb => exact ⟨k, v, d, f, by rw [hb, h]⟩
  · cases h

/-- `t` is `s` with the overdue strikes of a list of actions dropped in its order. -/
structure OverdueDropped (as : List Action) (s t : State) : Prop where
  plan    : t.sched.plan = s.sched.plan.filter fun b => as.all fun a => !(s.overdue a && decide (a.serial = b.serial))
  queue   : t.drive.queue = s.drive.queue.filter fun n => as.all fun a => !(s.overdue a && decide (a.serial = n))
  keys    : t.drive.keys = s.drive.keys
  memory  : t.sched.memory = s.sched.memory
  late    : t.sched.late = s.sched.late
  drops   : t.sched.drops = ((as.filter s.overdue).filterMap Action.lateEntry).foldl (fun l e => pushDrop e l) s.sched.drops
  notices : (∃ a ∈ as, s.overdue a = true) → ∀ l, t.noticed l .drops = true
  keeps   : Keeps s t

theorem OverdueDropped.nil (s : State) : OverdueDropped [] s s :=
  ⟨by simp, by simp, rfl, rfl, rfl, rfl, by simp, .refl s⟩

/-- The step of `judgeLateness` for one serial number. -/
def judgeOne (s : State) (n : Nat) : State :=
  match s.action n with
  | some a =>
    match a.wait with
    | some w => if (s.sched.late : Int) < s.lateness a then dropStrike w.lateDrop a s else s
    | none => s
  | none => s

theorem judgeLateness_eq (s : State) : judgeLateness s = s.planSerials.foldl judgeOne s := rfl

theorem judgeOne_of_current {s : State} {a : Action} (ha : s.action a.serial = some a) (h : s.overdue a = false) :
    judgeOne s a.serial = s := by
  simp only [judgeOne, ha]
  cases hw : a.wait with
  | none => rfl
  | some w =>
    have hlate : ¬ (s.sched.late : Int) < s.lateness a := by simpa [State.overdue, hw, State.lateness] using h
    simp only [if_neg hlate]

theorem judgeOne_of_overdue {s : State} {a : Action} (ha : s.action a.serial = some a) (h : s.overdue a = true) :
    ∃ w k v d f, a.body = .strike k v d f (some w) ∧ judgeOne s a.serial = dropStrike w.lateDrop a s := by
  simp only [State.overdue, Bool.and_eq_true, decide_eq_true_eq] at h
  obtain ⟨w, hw⟩ := Option.isSome_iff_exists.mp h.1
  obtain ⟨k, v, d, f, hb⟩ := body_of_wait hw
  refine ⟨w, k, v, d, f, hb, ?_⟩
  simp only [judgeOne, ha, hw]
  exact if_pos h.2

/-- With serial numbers of their own, an action of the plan is found under its number. -/
theorem action_of_mem {s : State} {a : Action} (h : a ∈ s.sched.plan) (hn : s.planSerials.Nodup) :
    s.action a.serial = some a := by
  unfold State.action
  cases hf : s.sched.plan.find? fun b => decide (b.serial = a.serial) with
  | none => simpa using List.find?_eq_none.mp hf a h
  | some b =>
    have hb := List.mem_of_find?_eq_some hf
    have hs : b.serial = a.serial := by simpa using List.find?_some hf
    rw [List.inj_on_of_nodup_map hn hb h hs]

theorem judgeOne_dropped {s : State} {a : Action} (ha : s.action a.serial = some a) :
    OverdueDropped [a] s (judgeOne s a.serial) := by
  cases h : s.overdue a with
  | false =>
    rw [judgeOne_of_current ha h]
    exact ⟨by simp [h], by simp [h], rfl, rfl, rfl, by simp [h], by simp [h], .refl s⟩
  | true =>
    obtain ⟨w, k, v, d, f, hb, heq⟩ := judgeOne_of_overdue ha h
    have hd := dropped_dropStrike w.lateDrop s hb
    rw [heq]
    refine ⟨?_, ?_, hd.keys, hd.memory, hd.late, ?_, fun _ => hd.notices, hd.keeps⟩
    · rw [hd.plan]
      exact List.filter_congr fun b _ => by simp [h, eq_comm]
    · rw [hd.queue]
      exact List.filter_congr fun n _ => by simp [h, eq_comm]
    · rw [hd.drops]
      simp [h, Action.lateEntry, hb]

theorem OverdueDropped.overdue {as : List Action} {s t : State} (h : OverdueDropped as s t) : t.overdue = s.overdue := by
  funext a
  simp only [State.overdue, h.late, h.keeps.clk]

theorem OverdueDropped.append {as bs : List Action} {s t u : State} (h : OverdueDropped as s t) (g : OverdueDropped bs t u) :
    OverdueDropped (as ++ bs) s u := by
  have ho := h.overdue
  refine ⟨?_, ?_, g.keys.trans h.keys, g.memory.trans h.memory, g.late.trans h.late, ?_, ?_, h.keeps.trans g.keeps⟩
  · rw [g.plan, h.plan, List.filter_filter, ho]
    exact List.filter_congr fun b _ => by rw [List.all_append, Bool.and_comm]
  · rw [g.queue, h.queue, List.filter_filter, ho]
    exact List.filter_congr fun b _ => by rw [List.all_append, Bool.and_comm]
  · rw [g.drops, h.drops, ho, List.filter_append, List.filterMap_append, List.foldl_append]
  · rintro ⟨a, ha, hlate⟩ l
    obtain ha | ha := List.mem_append.mp ha
    · exact g.keeps.noticed (h.notices ⟨a, ha, hlate⟩ l)
    · exact g.notices ⟨a, ha, by rw [ho]; exact hlate⟩ l

/-- The judging of a part of the plan, each action once. -/
theorem judged_foldl (as : List Action) : ∀ s : State, s.planSerials.Nodup → (as.map Action.serial).Nodup →
    (∀ a ∈ as, a ∈ s.sched.plan) → OverdueDropped as s ((as.map Action.serial).foldl judgeOne s) := by
  induction as with
  | nil => exact fun s _ _ _ => .nil s
  | cons a as ih =>
    intro s hn has hmem
    obtain ⟨ha, has⟩ := List.nodup_cons.mp has
    have hstep := judgeOne_dropped (action_of_mem (hmem a List.mem_cons_self) hn)
    have hplan : (judgeOne s a.serial).sched.plan.Sublist s.sched.plan := by
      rw [hstep.plan]; exact List.filter_sublist
    refine hstep.append (ih _ (hn.sublist (hplan.map _)) has fun b hb => ?_)
    rw [hstep.plan, List.mem_filter]
    refine ⟨hmem b (List.mem_cons_of_mem _ hb), ?_⟩
    have hne : a.serial ≠ b.serial := fun e => ha (e ▸ List.mem_map_of_mem hb)
    simp [hne]

theorem judgeLateness_dropped {s : State} (h : SerialsSound s) : OverdueDropped s.sched.plan s (judgeLateness s) := by
  rw [judgeLateness_eq]
  exact judged_foldl s.sched.plan s h.1 h.1 fun _ ha => ha

/-- An action of the plan is left where it is not overdue itself. -/
theorem kept_iff_not_overdue {s : State} (h : s.planSerials.Nodup) {b : Action} (hb : b ∈ s.sched.plan) :
    (s.sched.plan.all fun a => !(s.overdue a && decide (a.serial = b.serial))) = !s.overdue b := by
  cases ho : s.overdue b with
  | true =>
    refine List.all_eq_false.mpr ⟨b, hb, by simp [ho]⟩
  | false =>
    refine List.all_eq_true.mpr fun a ha => ?_
    by_cases he : a.serial = b.serial
    · rw [List.inj_on_of_nodup_map h ha hb he, ho]
      rfl
    · simp [he]

end Sys2Proof.Machine
end

section
/-! SUPPORT. The offer's rows, a due action's effect, the overdue strikes and the arbiter, as R118, R120, R131, R132 and R137 have
them. -/

namespace Sys2Proof.Machine

theorem noticed_both {t : State} {n : Notice} (h : ∀ l, t.noticed l n = true) :
    t.noticed .a n = true ∧ t.noticed .b n = true := ⟨h .a, h .b⟩

/-- The rows of an offer (R118, R131). -/
theorem offer_rows (s : State) (a : Action) (k : Key) (v d f : Nat) (w : Option WaitReason) (hb : a.body = .strike k v d f w) :
    let key := s.driveKey k
    let e := bankGet s.map.keys k
    let touched := key.repetitionAt ≤ key.lastPos.val
    let dropped (reason : DropReason) : Prop := Dropped reason a k v s (offerStrike a k s)
    let waits (reason : WaitReason) : Prop := offerStrike a k s = waitStrike reason a s
    let tooSoon := ∃ tick, key.lastFire = some tick ∧
      (s.clk.position : Int) - tick < ((if e.state = 1 then e.rm.toNat else 1000 : Nat) : Int)
    let yields := (s.layer a.layer).latched.yieldKeys = true ∧ key.state = .rest ∧ touched
    let row5 := key.state ≠ .rest ∨ touched ∨ tooSoon
    (yields → dropped .yielded) ∧
    (¬ yields → s.drive.power = .quiet ∨ s.drive.power = .quietPending → dropped .quiet) ∧
    (¬ yields → s.drive.power = .waking → waits .waking) ∧
    (¬ yields → s.drive.power = .active →
      (key.state = .blocked → dropped .blocked) ∧
      (key.state ≠ .blocked → key.hot = true → dropped .hot) ∧
      (key.state ≠ .blocked → key.hot = false → row5 → waits .key) ∧
      (key.state ≠ .blocked → key.hot = false → ¬ row5 → s.drive.sag = true → waits .sag) ∧
      (key.hot = false → ¬ row5 → s.drive.sag = false → s.drive.slots ≤ s.slotsHeld → waits .slot) ∧
      (key.hot = false → ¬ row5 → s.drive.sag = false → s.slotsHeld < s.drive.slots →
        offerStrike a k s = takeStrike a s)) := by
  dsimp only
  rw [← yieldsNow_iff, ← firedTooSoon_iff, ← touched_iff]
  have hdrop {r : DropReason} (h : ¬ yieldsNow a k s = true) (ht : offerTest k s = some (.refused r)) :
      Dropped r a k v s (offerStrike a k s) := by
    rw [offerStrike_answered h, offerAnswer_of_test ht]
    exact dropped_dropStrike r s hb
  have hwait {r : WaitReason} (h : ¬ yieldsNow a k s = true) (ht : offerTest k s = some (.wait r)) :
      offerStrike a k s = waitStrike r a s := by
    rw [offerStrike_answered h, offerAnswer_of_test ht]
    rfl
  refine ⟨fun h => ?_, fun h hp => hdrop h (offerTest_quiet hp), fun h hp => hwait h (offerTest_waking hp), fun h hp =>
    ⟨fun hbl => hdrop h (offerTest_blocked hp hbl), fun hbl hh => hdrop h (offerTest_hot hp hbl hh),
      fun hbl hh hr => hwait h (offerTest_key hp hbl hh hr), fun _ hh hr hs => hwait h (offerTest_sag hp hh hr hs),
      fun hh hr hs hslot => ?_, fun hh hr hs hslot => ?_⟩⟩
  · rw [offerStrike_yields h]
    exact dropped_dropStrike .yielded s hb
  · rw [offerStrike_answered h, offerAnswer_slot (offerTest_free hp hh hr hs) hslot]
    rfl
  · rw [offerStrike_answered h, offerAnswer_taken (offerTest_free hp hh hr hs) hslot]
    rfl

/-- A strike whose first processing comes beyond the tolerance is dropped before it is offered (R117, R118). -/
theorem carryOut_strike_cases {s : State} {a : Action} {k : Key} {v d f : Nat} {w : Option WaitReason}
    (hb : a.body = .strike k v d f w) :
    (w = none → (s.sched.late : Int) < (s.clk.position : Int) - a.due → carryOut a s = dropStrike .late a s) ∧
      (w ≠ none ∨ (s.clk.position : Int) - a.due ≤ s.sched.late → carryOut a s = offerStrike a k s) := by
  have hw : a.wait = w := by simp [Action.wait, hb]
  obtain ⟨hn, hlate, heq⟩ | ⟨hn, heq⟩ := carryOut_strike (s := s) hb
  · refine ⟨fun _ _ => heq, fun h => ?_⟩
    rw [hw] at hn
    exact absurd hlate (not_lt.mpr (h.resolve_left (fun c => c hn)))
  · exact ⟨fun h hlate => absurd ⟨hw.trans h, hlate⟩ hn, fun _ => heq⟩

/-- A PEDAL action carried out (R86, R117). -/
theorem carryOut_pedal_effect {s : State} {a : Action} {p : Pedal} {v : Nat} (hb : a.body = .pedal p v) :
    (carryOut a s).sched.plan = (s.sched.plan.filter fun b => b.serial ≠ a.serial) ∧
      (carryOut a s).sched.drops = s.sched.drops ∧ (carryOut a s).sched.memory = s.sched.memory ∧
      (carryOut a s).drive.keys = s.drive.keys := by
  have hout := carryOut_pedal_outputs (s := s) hb
  rw [hout.sched, hout.keys]
  exact ⟨rfl, rfl, rfl, rfl⟩

theorem layer_removeAction (n : Nat) (s : State) (y : LayerId) : (removeAction n s).layer y = s.layer y := by
  cases y <;> rfl

/-- The demand a PEDAL action hands to a layer that does not end with it, and the pedal's judgement (R86, R146). -/
theorem carryOut_pedal_demands {s : State} {a : Action} {p : Pedal} {v : Nat} (hb : a.body = .pedal p v)
    (hstate : ((carryOut a s).layer a.layer).state = (s.layer a.layer).state) :
    bankGet ((carryOut a s).layer a.layer).demands p =
        (if bankGet (s.layer a.layer).latched.pass p = true then some v else bankGet (s.layer a.layer).demands p) ∧
      (¬ bankGet (s.layer a.layer).latched.pass p = true ∨ bankGet (s.layer a.layer).demands p = some v →
        (carryOut a s).drive.pedals = s.drive.pedals) ∧
      (bankGet (s.layer a.layer).latched.pass p = true → bankGet (s.layer a.layer).demands p ≠ some v →
        PedalFollows s s.drive.power p ((carryOut a s).mergedDemand p) (bankGet (carryOut a s).drive.pedals p) ∧
          ∀ q, q ≠ p → bankGet (carryOut a s).drive.pedals q = bankGet s.drive.pedals q) := by
  rw [carryOut_pedal_demand hb hstate, layer_removeAction]
  by_cases hpass : (s.layer a.layer).latched.passes p = true
  · rw [if_pos hpass, setDemand_layer, if_pos rfl]
    refine ⟨?_, fun h => ?_, fun _ h => setDemand_follows h⟩
    · rw [if_pos (show bankGet (s.layer a.layer).latched.pass p = true from hpass)]
      simp
    · rw [setDemand_of_same (h.resolve_left fun c => c hpass)]
      rfl
  · rw [if_neg hpass]
    exact ⟨(if_neg hpass).symm, fun _ => rfl, fun h => absurd h hpass⟩

/-- Settles O49: the offer, the due action, the overdue strikes and the arbiter. -/
theorem offeredStrikeFollowsTheTable : Obligations.OfferedStrikeFollowsTheTable := by
  refine ⟨fun s a k v d f w hb => ?_, fun s a => ⟨fun k v d f w hb => ?_, fun p v hb => ?_, fun k auto hb => ?_,
    fun k d hb => ?_⟩, fun s hs hdrops => ?_, fun s => ⟨arbiterPick_eq_none, fun h => ?_, fun a ha k hk => ?_⟩⟩
  · obtain ⟨hyield, hquiet, hwaking, hactive⟩ := offer_rows s a k v d f w hb
    have hdropped {r : DropReason} (h : Dropped r a k v s (offerStrike a k s)) :
        ((offerStrike a k s).sched.plan = (s.sched.plan.filter fun b => b.serial ≠ a.serial) ∧
          (offerStrike a k s).drive.queue = s.drive.queue.filter fun n => n ≠ a.serial) ∧
        (offerStrike a k s).drive.keys = s.drive.keys ∧ (offerStrike a k s).store = s.store ∧
        (offerStrike a k s).cap = s.cap ∧ (offerStrike a k s).noticed .a .drops = true ∧
        (offerStrike a k s).noticed .b .drops = true ∧
        (offerStrike a k s).sched.drops =
          (s.sched.drops ++ [DropEntry.mk r (.key k.val) a.layer a.event (some v)]).drop (s.sched.drops.length + 1 - 16) :=
      ⟨⟨h.plan, h.queue⟩, h.keys, h.store, h.cap, h.notices .a, h.notices .b, h.drops.trans (pushDrop_eq _ _)⟩
    refine ⟨fun h => hdropped (hyield h), fun h hp => hdropped (hquiet h hp),
      fun h hp => (hwaking h hp).trans (waitStrike_eq ..), fun h hp => ?_⟩
    obtain ⟨hblocked, hhot, hkey, hsag, hslot, htaken⟩ := hactive h hp
    refine ⟨fun h => hdropped (hblocked h), fun h h' => hdropped (hhot h h'),
      fun h h' h'' => (hkey h h' h'').trans (waitStrike_eq ..), fun h h' h'' g => (hsag h h' h'' g).trans (waitStrike_eq ..),
      fun h h' h'' g => (hslot h h' h'' g).trans (waitStrike_eq ..), fun h h' h'' g => ?_⟩
    rw [htaken h h' h'' g]
    refine ⟨fun b hmem => ?_, ?_, fun j hj => ?_, ?_⟩
    · rw [takeStrike_plan s hb] at hmem
      simpa using (List.mem_filter.mp hmem).2
    · rw [takeStrike_queue s hb]
      simp
    · rw [State.driveKey, takeStrike_keys s hb, bankGet_bankSet_other _ _ hj]
      rfl
    · rw [State.driveKey, takeStrike_keys s hb, bankGet_bankSet_same]
      rfl
  · obtain ⟨hlate, hoffered⟩ := carryOut_strike_cases (s := s) hb
    refine ⟨fun hw h => ?_, hoffered⟩
    rw [hlate hw h]
    have hd := dropped_dropStrike .late s hb
    exact ⟨hd.plan, hd.keys, hd.notices .a, hd.notices .b, hd.drops.trans (pushDrop_eq _ _)⟩
  · obtain ⟨hplan, hdrops, hmemory, hkeys⟩ := carryOut_pedal_effect (s := s) hb
    exact ⟨⟨hplan, hdrops, hmemory⟩, hkeys, carryOut_pedal_demands hb⟩
  · dsimp only
    refine ⟨fun ho hstrike => ?_, fun ho hsustain => ?_, handRelease_of_not_owned, fun hq => ?_⟩
    · rw [handRelease_of_owned ho, if_pos hstrike]
      rfl
    · rw [handRelease_of_owned ho, if_neg (by simp [hsustain])]
      rfl
    · rw [carryOut_release hb, leavePlan_keys]
      refine ⟨leavePlan_quietly (handRelease_sched hq), ?_⟩
      split
      · next ho =>
        rw [handRelease_of_owned ho, arbiter_of_queue_nil (s := s.setDriveKey k _) hq]
        split <;> rfl
      · next ho => rw [handRelease_of_not_owned ho]
  · dsimp only
    obtain ⟨hsched, hkeys⟩ := handDepress_frame k a.layer d s
    rw [carryOut_depress hb, leavePlan_keys, hkeys]
    exact ⟨leavePlan_quietly hsched, rfl⟩
  · intro overdue entry t all
    have hd := judgeLateness_dropped hs
    have hentry : entry = Action.lateEntry := by
      funext a
      simp only [entry, Action.lateEntry]
      rcases a.body with ⟨k, v, d, f, _ | w⟩ | ⟨k, d⟩ | ⟨k, auto⟩ | ⟨p, v⟩
      · rfl
      · cases w <;> rfl
      · rfl
      · rfl
      · rfl
    have hover : overdue = s.overdue := rfl
    refine ⟨?_, hd.keys, ?_, hd.memory, ?_, fun h => noticed_both (hd.notices h)⟩
    · rw [hover]
      exact hd.plan.trans (List.filter_congr fun b hb => kept_iff_not_overdue hs.1 hb)
    · refine hd.queue.trans (List.filter_congr fun n _ => ?_)
      congr 1
      funext a
      rw [hover]
      by_cases hn : a.serial = n <;> simp [hn]
    · exact hd.drops.trans ((foldl_pushDrop hdrops _).trans (by simp only [all, hentry, hover]))
  · obtain h | h := h
    · exact arbiter_of_no_slot ((Bool.not_eq_true _).mp (mt slotFree_iff.mp (not_lt.mpr h)))
    · exact arbiter_of_pick_none h
  · obtain ⟨hplan, hqueued⟩ := arbiterPick_mem ha
    refine ⟨hplan, hqueued, fun b hb hq j hj => arbiterPick_first ha hk hb hq.1 hj, fun hslot => ?_⟩
    rw [arbiter_look (slotFree_iff.mpr hslot) ha hk]
    cases offerTest k s with
    | none => rfl
    | some ans => cases ans <;> rfl

end Sys2Proof.Machine
end

section
/-! SUPPORT. An instant's work part by part: what every part leaves, what the one that is named for it does, whatever the order
(R17, R40, R41, R77, R82). -/

namespace Sys2Proof.Machine

open Relation (ReflTransGen)

/-! ### What chains of acts leave of a layer and of a capture that awaits its origin -/

theorem Takings.keep {P : State → Prop} (hP : ∀ s t, Taking s t → P s → P t) {s t : State} (h : Takings s t) (hs : P s) :
    P t := by
  induction h with
  | refl => exact hs
  | tail _ h ih => exact hP _ _ h ih

/-- What acts and takings keep of a layer: its state but for PLAYING turning to ENDED, its settings, its origin, its cue and
its source. -/
structure Layer.Later (l m : Layer) : Prop where
  state   : m.state = l.state ∨ l.state = .playing ∧ m.state = .ended
  source  : m.source = l.source
  cue     : m.cue = l.cue
  origin  : m.origin = l.origin
  staged  : m.staged = l.staged
  latched : m.latched = l.latched

theorem Layer.Later.refl (l : Layer) : l.Later l := ⟨.inl rfl, rfl, rfl, rfl, rfl, rfl⟩

theorem Layer.Later.trans {l m n : Layer} (h : l.Later m) (g : m.Later n) : l.Later n := by
  refine ⟨?_, g.source.trans h.source, g.cue.trans h.cue, g.origin.trans h.origin, g.staged.trans h.staged,
    g.latched.trans h.latched⟩
  obtain hs | ⟨hl, hm⟩ := h.state
  · rw [← hs]; exact g.state
  · obtain gs | ⟨gl, -⟩ := g.state
    · exact .inr ⟨hl, gs.trans hm⟩
    · rw [hm] at gl; cases gl

theorem Layer.Onward.later {l m : Layer} (h : l.Onward m) : l.Later m :=
  ⟨h.state, h.source, h.cue, h.origin, h.staged, h.latched⟩

theorem layer_later_setLayer {s : State} {y : LayerId} {l : Layer} (h : (s.layer y).Later l) (z : LayerId) :
    (s.layer z).Later ((s.setLayer y l).layer z) := by
  by_cases hz : z = y
  · subst hz; rw [layer_setLayer_same]; exact h
  · rw [layer_setLayer_other _ _ hz]; exact .refl _

theorem layer_eq_of_fields {s t : State} (h0 : t.layer0 = s.layer0) (h1 : t.layer1 = s.layer1) (y : LayerId) :
    t.layer y = s.layer y := by
  cases y
  · exact h0
  · exact h1

theorem closeCapture_layer (e : Nat) (s : State) (y : LayerId) : (closeCapture e s).layer y = s.layer y := by
  unfold closeCapture
  split <;> cases y <;> rfl

theorem Act.later {s t : State} (h : Act s t) (y : LayerId) : (s.layer y).Later (t.layer y) := by
  cases h with
  | layer z l h => exact layer_later_setLayer h.later y
  | close time hrec => rw [closeCapture_layer]; exact .refl _
  | _ => rw [layer_eq_of_fields rfl rfl]; exact .refl _

/-- A layer's ring, its cursor, its high mark and its end fetched replaced leave what `Layer.Later` speaks of. -/
theorem Layer.Later.ring (l : Layer) (ring : List Record) (cursor : Nat) (fetched high low : Bool) :
    l.Later { l with ring := ring, cursor := cursor, endFetched := fetched, highArmed := high, lowArmed := low } :=
  ⟨.inl rfl, rfl, rfl, rfl, rfl, rfl⟩

theorem refill_later (y z : LayerId) (s : State) : (s.layer z).Later ((refill y s).layer z) := by
  unfold refill
  dsimp only
  split
  · split
    · exact layer_later_setLayer (.ring (s.layer y) _ _ (s.layer y).endFetched (s.layer y).highArmed (s.layer y).lowArmed) z
    · exact .refl _
  · exact .refl _

theorem raise_layer (l : Link) (n : Notice) (s : State) (y : LayerId) : (raise l n s).layer y = s.layer y :=
  layer_setLink ..

theorem popRing_later (y z : LayerId) (s : State) : (s.layer z).Later ((popRing y s).layer z) := by
  have hset (high low : Bool) := layer_later_setLayer
    (.ring (s.layer y) (s.layer y).ring.tail (s.layer y).cursor (s.layer y).endFetched high low) z
  unfold popRing
  dsimp only
  split
  · split
    · rw [raise_layer]; exact hset _ false
    · exact hset _ (s.layer y).lowArmed
  · exact (hset (s.layer y).highArmed (s.layer y).lowArmed).trans (refill_later y z _)

theorem Taking.later {s t : State} (h : Taking s t) (y : LayerId) : (s.layer y).Later (t.layer y) := by
  cases h with
  | act h => exact h.later y
  | fetched z =>
    exact layer_later_setLayer
      (.ring (s.layer z) (s.layer z).ring (s.layer z).cursor true (s.layer z).highArmed (s.layer z).lowArmed) y
  | pop z => exact popRing_later z y s
  | _ => rw [layer_eq_of_fields rfl rfl]; exact .refl _

theorem Takings.later {s t : State} (h : Takings s t) (y : LayerId) : (s.layer y).Later (t.layer y) :=
  h.keep (P := fun t => (s.layer y).Later (t.layer y)) (fun _ _ g hs => hs.trans (g.later y)) (.refl _)

theorem popRing_frame (y : LayerId) (s : State) :
    (popRing y s).cap = s.cap ∧ (popRing y s).store = s.store ∧ (popRing y s).sched = s.sched ∧
      (popRing y s).drive = s.drive := by
  have hrefill (s : State) : (refill y s).cap = s.cap ∧ (refill y s).store = s.store ∧ (refill y s).sched = s.sched ∧
      (refill y s).drive = s.drive := by
    unfold refill
    dsimp only
    split
    · split
      · simp
      · simp
    · simp
  unfold popRing
  dsimp only
  split
  · split <;> simp
  · obtain ⟨hc, hst, hsc, hd⟩ := hrefill (s.setLayer y { (s.layer y) with ring := (s.layer y).ring.tail })
    rw [hc, hst, hsc, hd]
    simp

/-- The capture unit awaits its origin for take `n` (R16, R17). -/
def AwaitsOrigin (n : TakeNo) (s : State) : Prop :=
  s.cap.state = .paused ∧ s.cap.target = some n ∧ s.cap.origin = none

/-- Take `n` has its origin, and the capture unit, where it still writes that take, keeps it. -/
def HasOrigin (n : TakeNo) (b : Nat) (s : State) : Prop :=
  (s.store.entry n).origin = some b ∧ (s.cap.target = some n → s.cap.origin.isSome = true)

theorem AwaitsOrigin.act {n : TakeNo} {s t : State} (h : AwaitsOrigin n s) (g : Act s t) : AwaitsOrigin n t := by
  obtain ⟨hs, ht, ho⟩ := h
  cases g with
  | append hrec => exact nomatch hs.symm.trans hrec
  | close time hrec => exact nomatch hs.symm.trans hrec
  | layer y l h => exact ⟨by simpa using hs, by simpa using ht, by simpa using ho⟩
  | _ => exact ⟨hs, ht, ho⟩

theorem AwaitsOrigin.taking {n : TakeNo} {s t : State} (g : Taking s t) (h : AwaitsOrigin n s) : AwaitsOrigin n t := by
  cases g with
  | act g => exact h.act g
  | fetched y => exact ⟨by simpa using h.1, by simpa using h.2.1, by simpa using h.2.2⟩
  | pop y => rw [AwaitsOrigin, (popRing_frame y s).1]; exact h
  | _ => exact h

theorem HasOrigin.closeCapture {n : TakeNo} {b time : Nat} {s : State} (h : HasOrigin n b s) :
    HasOrigin n b (closeCapture time s) := by
  obtain ⟨he, ho⟩ := h
  cases ht : s.cap.target with
  | none =>
    rw [closeCapture_of_no_target time ht]
    exact ⟨he, fun g => nomatch g⟩
  | some t =>
    rw [closeCapture_eq time ht]
    refine ⟨?_, fun g => nomatch g⟩
    by_cases hn : n = t
    · subst hn
      obtain ⟨o, ho⟩ := Option.isSome_iff_exists.mp (ho ht)
      simp only [ho, Store.withOrigin, entry_closeTake_same]
      exact he
    · refine (congrArg TakeEntry.origin (entry_closeTake_other _ _ hn)).trans ?_
      cases s.cap.origin with
      | some o => exact he
      | none => exact (congrArg TakeEntry.origin (entry_setEntry_other _ _ hn)).trans he

theorem HasOrigin.act {n : TakeNo} {b : Nat} {s t : State} (h : HasOrigin n b s) (g : Act s t) : HasOrigin n b t := by
  cases g with
  | append hrec ht hst => exact ⟨(appendRecord_carried hst n).origin.trans h.1, h.2⟩
  | close time hrec => exact h.closeCapture
  | layer y l hl => exact ⟨by simpa using h.1, by simpa using h.2⟩
  | _ => exact h

theorem HasOrigin.taking {n : TakeNo} {b : Nat} {s t : State} (g : Taking s t) (h : HasOrigin n b s) : HasOrigin n b t := by
  cases g with
  | act g => exact h.act g
  | fetched y => exact ⟨by simpa using h.1, by simpa using h.2⟩
  | pop y =>
    obtain ⟨hc, hst, -, -⟩ := popRing_frame y s
    rw [HasOrigin, hc, hst]
    exact h
  | _ => exact h

theorem HasOrigin.acts {n : TakeNo} {b : Nat} {s t : State} (h : HasOrigin n b s) (g : Acts s t) : HasOrigin n b t :=
  g.takings.keep (fun _ _ => HasOrigin.taking) h

/-! ### The capture unit's part of an instant -/

theorem HasOrigin.framePedal {n : TakeNo} {b : Nat} {r : PedalReadings} {time : Nat} {p : Pedal} {s : State}
    (h : HasOrigin n b s) : HasOrigin n b (framePedal r time s p) := by
  have hset (c : CapPedal) : HasOrigin n b (s.setCapPedal p c) := h
  by_cases hs : s.cap.state = .recording
  · cases hd : s.pedalDriven p with
    | true => rw [framePedal_driven hs hd]; exact hset _
    | false =>
      by_cases hm : s.pedalMoved r p
      · rw [framePedal_written hs hd hm]; exact (hset _).acts (captureWrite_acts ..)
      · rw [framePedal_held hs hd hm]; exact hset _
  · rw [framePedal_of_not_recording hs]; exact h

theorem HasOrigin.frameSample {n : TakeNo} {b b' : Nat} {r : PedalReadings} {s : State} (h : HasOrigin n b s) :
    HasOrigin n b (frameSample r b' s) := by
  have hfold : ∀ (ps : List Pedal) (time : Nat) (s : State), HasOrigin n b s →
      HasOrigin n b (ps.foldl (Machine.framePedal r time) s) := by
    intro ps time
    induction ps with
    | nil => exact fun s h => h
    | cons p ps ih => exact fun s h => ih _ h.framePedal
  exact hfold _ _ s h

theorem fixOrigin_eq {s : State} {t : TakeNo} (b : Nat) (h : s.cap.target = some t) :
    fixOrigin b s =
      { s with
        store := s.store.setOrigin t b
        cap := { s.cap.markFirst with state := .recording, origin := some b } } := by
  simp only [fixOrigin, h]

theorem fixOrigin_of_no_target {s : State} (b : Nat) (h : s.cap.target = none) : fixOrigin b s = s := by
  simp only [fixOrigin, h]

theorem HasOrigin.captureFrame {n : TakeNo} {b b' : Nat} {r : PedalReadings} {s : State} (h : HasOrigin n b s) :
    HasOrigin n b (captureFrame r b' s) := by
  unfold Machine.captureFrame
  refine HasOrigin.frameSample ?_
  split
  · next hawait =>
    cases ht : s.cap.target with
    | none => rw [fixOrigin_of_no_target b' ht]; exact h
    | some t =>
      rw [fixOrigin_eq b' ht]
      have hne : n ≠ t := fun e => by
        have hsome := h.2 (e ▸ ht)
        rw [hawait.2] at hsome
        cases hsome
      exact ⟨(congrArg TakeEntry.origin (entry_setEntry_other _ _ hne)).trans h.1, fun _ => rfl⟩
  · exact h

theorem AwaitsOrigin.captureFrame {n : TakeNo} {b : Nat} {r : PedalReadings} {s : State} (h : AwaitsOrigin n s) :
    HasOrigin n b (captureFrame r b s) := by
  obtain ⟨hs, ht, ho⟩ := h
  unfold Machine.captureFrame
  rw [if_pos ⟨hs, ho⟩, fixOrigin_eq b ht]
  refine HasOrigin.frameSample ⟨?_, fun _ => rfl⟩
  simp [Store.setOrigin]

theorem captureReenter_of_no_origin {s : State} (h : s.cap.origin = none) : captureReenter s = s :=
  if_neg fun c => c.2 h

theorem HasOrigin.captureReenter {n : TakeNo} {b : Nat} {s : State} (h : HasOrigin n b s) :
    HasOrigin n b (captureReenter s) := by
  unfold Machine.captureReenter
  split
  · have hfold := Acts.foldl (f := fun s k => if s.releasedUnseen k then captureRelease k s else s)
      (fun s k => by
        split
        · exact captureRelease_acts k s
        · exact .refl) allKeys
      { s with cap := { s.cap.markFirst with state := .recording } }
    exact HasOrigin.acts (s := { s with cap := { s.cap.markFirst with state := .recording } }) h hfold
  · exact h

/-- The capture unit's part of an instant touches neither the scheduler, the drive unit nor the layers. -/
theorem captureFrame_only (r : PedalReadings) (b : Nat) (s : State) : CaptureOnly s (captureFrame r b s) := by
  have hset (s : State) (cap : Capture) (st : Store) : CaptureOnly s { s with cap := cap, store := st } :=
    ⟨rfl, rfl, rfl, rfl, Keeps.inner ..⟩
  have hpedal (time : Nat) (s : State) (p : Pedal) : CaptureOnly s (framePedal r time s p) := by
    by_cases hs : s.cap.state = .recording
    · cases hd : s.pedalDriven p with
      | true => rw [framePedal_driven hs hd]; exact hset ..
      | false =>
        by_cases hm : s.pedalMoved r p
        · rw [framePedal_written hs hd hm]; exact (hset s _ s.store).trans (captureWrite_only ..)
        · rw [framePedal_held hs hd hm]; exact hset ..
    · rw [framePedal_of_not_recording hs]; exact ⟨rfl, rfl, rfl, rfl, .refl s⟩
  have hsample (b : Nat) (s : State) : CaptureOnly s (frameSample r b s) := by
    have hfold : ∀ (ps : List Pedal) (time : Nat) (s : State), CaptureOnly s (ps.foldl (framePedal r time) s) := by
      intro ps time
      induction ps with
      | nil => exact fun s => ⟨rfl, rfl, rfl, rfl, .refl s⟩
      | cons p ps ih => exact fun s => (hpedal time s p).trans (ih _)
    exact hfold _ _ s
  unfold captureFrame
  refine CaptureOnly.trans ?_ (hsample b _)
  split
  · unfold fixOrigin
    split
    · exact ⟨rfl, rfl, rfl, rfl, .refl s⟩
    · exact hset ..
  · exact ⟨rfl, rfl, rfl, rfl, .refl s⟩

theorem captureReenter_only (s : State) : CaptureOnly s (captureReenter s) := by
  unfold captureReenter
  split
  · have hrelease (s : State) (k : Key) : CaptureOnly s (if s.releasedUnseen k then captureRelease k s else s) := by
      split
      · unfold captureRelease
        split
        · exact (CaptureOnly.setCapKey ..).trans (captureWrite_only ..)
        · exact ⟨rfl, rfl, rfl, rfl, .refl s⟩
      · exact ⟨rfl, rfl, rfl, rfl, .refl s⟩
    have hfold : ∀ (ks : List Key) (s : State),
        CaptureOnly s (ks.foldl (fun s k => if s.releasedUnseen k then captureRelease k s else s) s) := by
      intro ks
      induction ks with
      | nil => exact fun s => ⟨rfl, rfl, rfl, rfl, .refl s⟩
      | cons k ks ih => exact fun s => (hrelease s k).trans (ih _)
    exact CaptureOnly.trans (t := { s with cap := { s.cap.markFirst with state := .recording } })
      ⟨rfl, rfl, rfl, rfl, Keeps.inner ..⟩ (hfold allKeys _)
  · exact ⟨rfl, rfl, rfl, rfl, .refl s⟩

theorem capturePhase_only (r : PedalReadings) (kind : InstantKind) (frame : Option Nat) (s : State) :
    CaptureOnly s (phaseWork r kind frame s .capture) := by
  have hre : CaptureOnly s (if kind = .advance then s else captureReenter s) := by
    split
    · exact ⟨rfl, rfl, rfl, rfl, .refl s⟩
    · exact captureReenter_only s
  unfold phaseWork
  dsimp only
  split
  · exact hre.trans (captureFrame_only ..)
  · exact hre

/-! ### The scheduler's part of an instant -/

theorem schedulePhase_takings (r : PedalReadings) (kind : InstantKind) (frame : Option Nat) (s : State) :
    Takings s (phaseWork r kind frame s .schedule) := by
  have hlate : Takings s (if kind = .advance then judgeLateness s else s) := by
    split
    · exact (judgeLateness_acts s).takings
    · exact .refl
  exact (hlate.trans (processDue_acts ..).takings).trans (takeAll_takings _)

/-! ### The layers' parts of an instant (R77, R82) -/

theorem latch_outputs (y : LayerId) (s : State) : OutputsOnly s (latch y s) := by
  unfold latch
  split
  · exact .refl s
  · refine (OutputsOnly.setLayer ..).trans (.foldl (fun s p => ?_) _ _)
    split
    · exact .refl s
    · exact setDemand_outputs ..

theorem enterPlaying_outputs (y : LayerId) (s : State) : OutputsOnly s (enterPlaying y s) := by
  unfold enterPlaying
  dsimp only
  split
  · split
    · refine ((OutputsOnly.setLayer ..).trans (.foldl (fun s p => ?_) _ _)).trans (endIfDone_outputs ..)
      split
      · split
        · exact setDemand_outputs ..
        · exact .refl s
      · exact .refl s
    · exact .refl s
  · exact .refl s

/-- A chain of changed demands keeps every layer but for its demands. -/
theorem setDemands_layer {f : State → Pedal → State} (hf : ∀ s p, f s p = s ∨ ∃ y v, f s p = setDemand y p v s)
    (ps : List Pedal) : ∀ (s : State) (z : LayerId), ∃ b, (ps.foldl f s).layer z = { (s.layer z) with demands := b } := by
  induction ps with
  | nil => exact fun s z => ⟨_, rfl⟩
  | cons p ps ih =>
    intro s z
    obtain ⟨b, hb⟩ := ih (f s p) z
    refine ⟨b, hb.trans ?_⟩
    obtain h | ⟨y, v, h⟩ := hf s p
    · rw [h]
    · rw [h, setDemand_layer]
      split
      · next hz => rw [hz]
      · rfl

theorem latch_of_none {y : LayerId} {s : State} (h : (s.layer y).staged = none) : latch y s = s := by
  simp only [latch, h]

theorem latch_layer (y z : LayerId) (s : State) :
    ∃ b, (latch y s).layer z = if z = y then
      { (s.layer z) with
        latched := ((s.layer z).staged).getD (s.layer z).latched, staged := none, demands := b }
    else { (s.layer z) with demands := b } := by
  cases hst : (s.layer y).staged with
  | none =>
    rw [latch_of_none hst]
    refine ⟨(s.layer z).demands, ?_⟩
    split
    · next hz =>
      subst hz
      simp only [hst, Option.getD_none]
      rw [← hst]
    · rfl
  | some st =>
    obtain ⟨b, hb⟩ := setDemands_layer (f := fun s p => if st.passes p then s else setDemand y p none s)
      (fun s p => by
        split
        · exact .inl rfl
        · exact .inr ⟨y, none, rfl⟩) allPedals
      (s.setLayer y { (s.layer y) with latched := st, staged := none }) z
    have heq : latch y s = allPedals.foldl (fun s p => if st.passes p then s else setDemand y p none s)
        (s.setLayer y { (s.layer y) with latched := st, staged := none }) := by simp only [latch, hst]
    refine ⟨b, ?_⟩
    rw [heq, hb]
    split
    · next hz => subst hz; simp [hst]
    · next hz => rw [layer_setLayer_other _ _ hz]

/-- A layer CUED at or below the clock's position leaves CUED; any other stays. -/
theorem enterPlaying_entered {y : LayerId} {s : State} {o : Nat} (hs : (s.layer y).state = .cued)
    (ho : (s.layer y).origin = some o) (hr : s.clk.state = .running) (hle : o ≤ s.clk.position) :
    ((enterPlaying y s).layer y).state = .playing ∨ ((enterPlaying y s).layer y).state = .ended := by
  have hrun : s.running = true := by simp [State.running, hr]
  unfold enterPlaying
  dsimp only
  have hlayer := setDemands_layer (f := fun t p =>
      match bankGet (s.layer y).chase p with
      | some v => if (s.layer y).latched.passes p then setDemand y p (some v) t else t
      | none => t)
    (fun t p => by
      split
      · split
        · exact .inr ⟨y, _, rfl⟩
        · exact .inl rfl
      · exact .inl rfl) allPedals
    (s.setLayer y { (s.layer y) with state := .playing, chase := Vector.replicate 3 none }) y
  obtain ⟨b, hb⟩ := hlayer
  split
  · next hst ho' =>
    cases ho.symm.trans ho'
    rw [if_pos ⟨hrun, hle⟩]
    generalize allPedals.foldl _ _ = u at hb ⊢
    have hplaying : (u.layer y).state = .playing := by rw [hb, layer_setLayer_same]
    obtain h | ⟨-, h⟩ := endIfDone_cases y u
    · rw [h]; exact .inl hplaying
    · exact .inr h
  · next hne => exact absurd ho (hne o hs)

theorem enterPlaying_of_not_cued {y : LayerId} {s : State} (h : (s.layer y).state ≠ .cued) : enterPlaying y s = s := by
  unfold enterPlaying
  dsimp only
  split
  · next hc _ => exact absurd hc h
  · rfl

end Sys2Proof.Machine
end

section
/-! SUPPORT. The parts of an instant's work taken together: what one part establishes whatever the order (R17, R77, R82), the
instant that has nothing to do, and the entry into RUNNING, as R42 has it. -/

namespace Sys2Proof.Machine

open Relation (ReflTransGen)

/-! ### Every part is in the order, once the parts a command leaves out are added -/

theorem mem_firstOnly {p : Phase} {ps : List Phase} : p ∈ firstOnly ps ↔ p ∈ ps := by
  induction ps with
  | nil => exact Iff.rfl
  | cons q ps ih =>
    simp only [firstOnly, List.mem_cons, List.mem_filter, decide_eq_true_eq, ih]
    by_cases h : p = q <;> simp [h]

theorem mem_phaseOrder (named : List Phase) (p : Phase) : p ∈ phaseOrder named := by
  have hall : p ∈ firstOnly (named ++ defaultPhases) := by
    rw [mem_firstOnly, List.mem_append]
    refine .inr ?_
    obtain _ | ⟨_ | _⟩ | ⟨_ | _⟩ | _ := p <;> decide
  unfold phaseOrder
  dsimp only
  split
  · exact hall
  · by_cases h : p = .capture
    · exact h ▸ List.mem_cons_self ..
    · exact List.mem_cons_of_mem _ (List.mem_filter.mpr ⟨hall, by simpa using h⟩)

theorem nodup_firstOnly (ps : List Phase) : (firstOnly ps).Nodup := by
  induction ps with
  | nil => exact List.nodup_nil
  | cons q ps ih => exact List.nodup_cons.mpr ⟨by simp, ih.filter _⟩

theorem nodup_phaseOrder (named : List Phase) : (phaseOrder named).Nodup := by
  have hall := nodup_firstOnly (named ++ defaultPhases)
  unfold phaseOrder
  dsimp only
  split
  · exact hall
  · exact List.nodup_cons.mpr ⟨by simp, hall.filter _⟩

theorem foldl_keeps {α : Type} {f : State → α → State} {Q : State → Prop} {xs : List α}
    (hQ : ∀ s y, y ∈ xs → Q s → Q (f s y)) : ∀ s, Q s → Q (xs.foldl f s) := by
  induction xs with
  | nil => exact fun s h => h
  | cons y xs ih =>
    exact fun s h => ih (fun s z hz => hQ s z (List.mem_cons_of_mem _ hz)) _ (hQ s y List.mem_cons_self h)

/-- What one item of a list establishes, out of what the items before it keep, holds at the end where the items after it keep
it. -/
theorem foldl_establishes {α : Type} {f : State → α → State} {P Q : State → Prop} {x : α}
    (hP : ∀ s y, y ≠ x → P s → P (f s y)) (hx : ∀ s, P s → Q (f s x)) (hQ : ∀ s y, y ≠ x → Q s → Q (f s y)) {xs : List α}
    (hmem : x ∈ xs) (hnodup : xs.Nodup) : ∀ s, P s → Q (xs.foldl f s) := by
  induction xs with
  | nil => cases hmem
  | cons y xs ih =>
    intro s h
    obtain ⟨hnot, hnodup⟩ := List.nodup_cons.mp hnodup
    by_cases hy : y = x
    · subst hy
      exact foldl_keeps (fun s z hz => hQ s z fun e => hnot (e ▸ hz)) _ (hx s h)
    · exact ih ((List.mem_cons.mp hmem).resolve_left (Ne.symm hy)) hnodup _ (hP s y hy h)

/-- What part `x` of an instant establishes holds after it, whatever the order. -/
theorem instantWork_establishes {r : PedalReadings} {kind : InstantKind} {frame : Option Nat} {P Q : State → Prop} (x : Phase)
    (hP : ∀ s y, y ≠ x → P s → P (phaseWork r kind frame s y)) (hx : ∀ s, P s → Q (phaseWork r kind frame s x))
    (hQ : ∀ s y, y ≠ x → Q s → Q (phaseWork r kind frame s y)) (hT : ∀ s, Q s → Q (takeAll s)) {order : List Phase} {s : State}
    (h : P s) : Q (instantWork r order kind frame s) :=
  hT _ (foldl_establishes hP hx hQ (mem_phaseOrder order x) (nodup_phaseOrder order) s h)

/-- What every part keeps, an instant's work keeps. -/
theorem instantWork_maintains {r : PedalReadings} {kind : InstantKind} {frame : Option Nat} {Q : State → Prop}
    (hQ : ∀ s y, Q s → Q (phaseWork r kind frame s y)) (hT : ∀ s, Q s → Q (takeAll s)) {order : List Phase} {s : State}
    (h : Q s) : Q (instantWork r order kind frame s) :=
  instantWork_establishes .schedule (fun s y _ => hQ s y) (fun s => hQ s .schedule) (fun s y _ => hQ s y) hT h

/-! ### What each part leaves of a layer -/

/-- A layer of the entry into PLAYING: as it was or, for the layer that enters, PLAYING with no chase values, and then what acts
leave of it. -/
theorem enterPlaying_layer (y z : LayerId) (s : State) :
    ∃ l, (l = s.layer z ∨ z = y ∧ l = { (s.layer z) with state := .playing, chase := Vector.replicate 3 none }) ∧
      l.Later ((enterPlaying y s).layer z) := by
  unfold enterPlaying
  dsimp only
  split
  · split
    · obtain ⟨b, hb⟩ := setDemands_layer (f := fun t p =>
          match bankGet (s.layer y).chase p with
          | some v => if (s.layer y).latched.passes p then setDemand y p (some v) t else t
          | none => t)
        (fun t p => by
          split
          · split
            · exact .inr ⟨y, _, rfl⟩
            · exact .inl rfl
          · exact .inl rfl) allPedals
        (s.setLayer y { (s.layer y) with state := .playing, chase := Vector.replicate 3 none }) z
      generalize allPedals.foldl _ _ = u at hb ⊢
      have hend := (endIfDone_acts y u).takings.later z
      by_cases hz : z = y
      · subst hz
        rw [layer_setLayer_same] at hb
        refine ⟨{ (s.layer z) with state := .playing, chase := Vector.replicate 3 none }, .inr ⟨rfl, rfl⟩,
          Layer.Later.trans ?_ hend⟩
        rw [hb]
        exact ⟨.inl rfl, rfl, rfl, rfl, rfl, rfl⟩
      · rw [layer_setLayer_other _ _ hz] at hb
        refine ⟨_, .inl rfl, Layer.Later.trans ?_ hend⟩
        rw [hb]
        exact ⟨.inl rfl, rfl, rfl, rfl, rfl, rfl⟩
    · exact ⟨_, .inl rfl, .refl _⟩
  · exact ⟨_, .inl rfl, .refl _⟩

/-- Every part but the one that latches a layer, and no taking, touches the layer's settings. -/
theorem phaseWork_settings (r : PedalReadings) (kind : InstantKind) (frame : Option Nat) (s : State) {p : Phase} {y : LayerId}
    (h : p ≠ .latch y) :
    ((phaseWork r kind frame s p).layer y).staged = (s.layer y).staged ∧
      ((phaseWork r kind frame s p).layer y).latched = (s.layer y).latched := by
  cases p with
  | capture => rw [(capturePhase_only ..).layer]; exact ⟨rfl, rfl⟩
  | latch z =>
    have hz : y ≠ z := fun e => h (e ▸ rfl)
    unfold phaseWork
    dsimp only
    split
    · obtain ⟨b, hb⟩ := latch_layer z y s
      rw [hb, if_neg hz]
      exact ⟨rfl, rfl⟩
    · exact ⟨rfl, rfl⟩
  | enter z =>
    obtain ⟨l, hl, hlater⟩ := enterPlaying_layer z y s
    refine ⟨hlater.staged.trans ?_, hlater.latched.trans ?_⟩ <;> obtain rfl | ⟨-, rfl⟩ := hl <;> rfl
  | schedule =>
    have hlater := (schedulePhase_takings r kind frame s).later y
    exact ⟨hlater.staged, hlater.latched⟩

/-- A part of an instant leaves a layer in its state, or takes it from PLAYING to ENDED, but for the entry into PLAYING. -/
theorem phaseWork_replay (r : PedalReadings) (kind : InstantKind) (frame : Option Nat) (s : State) {p : Phase} {y : LayerId}
    (h : p ≠ .enter y) :
    (((phaseWork r kind frame s p).layer y).state = (s.layer y).state ∨
        (s.layer y).state = .playing ∧ ((phaseWork r kind frame s p).layer y).state = .ended) ∧
      ((phaseWork r kind frame s p).layer y).origin = (s.layer y).origin := by
  cases p with
  | capture => rw [(capturePhase_only ..).layer]; exact ⟨.inl rfl, rfl⟩
  | latch z =>
    unfold phaseWork
    dsimp only
    split
    · obtain ⟨b, hb⟩ := latch_layer z y s
      rw [hb]
      split <;> exact ⟨.inl rfl, rfl⟩
    · exact ⟨.inl rfl, rfl⟩
  | enter z =>
    have hz : y ≠ z := fun e => h (e ▸ rfl)
    obtain ⟨l, hl, hlater⟩ := enterPlaying_layer z y s
    obtain rfl | ⟨e, -⟩ := hl
    · exact ⟨hlater.state, hlater.origin⟩
    · exact absurd e hz
  | schedule =>
    have hlater := (schedulePhase_takings r kind frame s).later y
    exact ⟨hlater.state, hlater.origin⟩

/-! ### What an instant establishes (R17, R77, R82) -/

theorem HasOrigin.of_eq {n : TakeNo} {b : Nat} {s t : State} (h : HasOrigin n b s) (hc : t.cap = s.cap)
    (hst : t.store = s.store) : HasOrigin n b t := by rw [HasOrigin, hc, hst]; exact h

theorem hasOrigin_phaseWork {n : TakeNo} {b : Nat} {r : PedalReadings} {kind : InstantKind} {frame : Option Nat} {s : State}
    {p : Phase} (h : HasOrigin n b s) : HasOrigin n b (phaseWork r kind frame s p) := by
  cases p with
  | capture =>
    have hre : HasOrigin n b (if kind = .advance then s else captureReenter s) := by
      split
      · exact h
      · exact h.captureReenter
    unfold phaseWork
    dsimp only
    split
    · exact hre.captureFrame
    · exact hre
  | latch y =>
    unfold phaseWork
    dsimp only
    split
    · exact h.of_eq (latch_outputs y s).cap (latch_outputs y s).store
    · exact h
  | enter y => exact h.of_eq (enterPlaying_outputs y s).cap (enterPlaying_outputs y s).store
  | schedule => exact (schedulePhase_takings r kind frame s).keep (fun _ _ => HasOrigin.taking) h

theorem awaitsOrigin_phaseWork {n : TakeNo} {r : PedalReadings} {kind : InstantKind} {frame : Option Nat} {s : State}
    {p : Phase} (hp : p ≠ .capture) (h : AwaitsOrigin n s) : AwaitsOrigin n (phaseWork r kind frame s p) := by
  cases p with
  | capture => exact absurd rfl hp
  | latch y =>
    unfold phaseWork
    dsimp only
    split
    · rw [AwaitsOrigin, (latch_outputs y s).cap]; exact h
    · exact h
  | enter y => rw [AwaitsOrigin, phaseWork, (enterPlaying_outputs y s).cap]; exact h
  | schedule => exact (schedulePhase_takings r kind frame s).keep (fun _ _ => AwaitsOrigin.taking) h

/-- A capture take that awaits its origin gets it at the boundary an instant hands out (R17). -/
theorem AwaitsOrigin.instant {n : TakeNo} {b : Nat} {r : PedalReadings} {kind : InstantKind} {order : List Phase} {s : State}
    (h : AwaitsOrigin n s) : HasOrigin n b (instantWork r order kind (some b) s) := by
  refine instantWork_establishes .capture (fun s p hp => awaitsOrigin_phaseWork hp) (fun s h => ?_)
    (fun s p _ h => hasOrigin_phaseWork h) (fun s => (takeAll_takings s).keep fun _ _ => HasOrigin.taking) h
  have hre : (if kind = .advance then s else captureReenter s) = s := by
    split
    · rfl
    · exact captureReenter_of_no_origin h.2.2
  unfold phaseWork
  dsimp only
  rw [hre]
  exact h.captureFrame

/-- Pending settings are latched at the boundary an instant hands out (R77). -/
theorem instantWork_latches (r : PedalReadings) (order : List Phase) (kind : InstantKind) (b : Nat) (s : State) (y : LayerId) :
    ((instantWork r order kind (some b) s).layer y).latched = ((s.layer y).staged).getD (s.layer y).latched ∧
      ((instantWork r order kind (some b) s).layer y).staged = none := by
  refine instantWork_establishes
    (P := fun t => (t.layer y).staged = (s.layer y).staged ∧ (t.layer y).latched = (s.layer y).latched)
    (Q := fun t => (t.layer y).latched = ((s.layer y).staged).getD (s.layer y).latched ∧ (t.layer y).staged = none)
    (.latch y) (fun t p hp ht => ?_) (fun t ht => ?_) (fun t p hp ht => ?_) (fun t ht => ?_) ⟨rfl, rfl⟩
  · obtain ⟨hs, hl⟩ := phaseWork_settings r kind (some b) t hp
    exact ⟨hs.trans ht.1, hl.trans ht.2⟩
  · obtain ⟨bank, hb⟩ := latch_layer y y t
    have hphase : phaseWork r kind (some b) t (.latch y) = latch y t := rfl
    rw [hphase, hb, if_pos rfl]
    exact ⟨by rw [ht.1, ht.2], rfl⟩
  · obtain ⟨hs, hl⟩ := phaseWork_settings r kind (some b) t hp
    exact ⟨hl.trans ht.1, hs.trans ht.2⟩
  · have hlater := (takeAll_takings t).later y
    exact ⟨hlater.latched.trans ht.1, hlater.staged.trans ht.2⟩

/-- A CUED layer whose entry tick is reached leaves CUED (R82). -/
theorem instantWork_enters {r : PedalReadings} {order : List Phase} {kind : InstantKind} {frame : Option Nat} {s : State}
    {y : LayerId} {o : Nat} (hs : (s.layer y).state = .cued) (ho : (s.layer y).origin = some o)
    (hr : s.clk.state = .running) (hle : o ≤ s.clk.position) :
    ((instantWork r order kind frame s).layer y).state = .playing ∨
      ((instantWork r order kind frame s).layer y).state = .ended := by
  have hplays : ∀ t u : State, ((u.layer y).state = (t.layer y).state ∨
      (t.layer y).state = .playing ∧ (u.layer y).state = .ended) →
      ((t.layer y).state = .playing ∨ (t.layer y).state = .ended) →
      (u.layer y).state = .playing ∨ (u.layer y).state = .ended := by
    rintro t u (h | ⟨-, h⟩) ht
    · rw [h]; exact ht
    · exact .inr h
  refine instantWork_establishes
    (P := fun t => t.clk = s.clk ∧ (t.layer y).state = .cued ∧ (t.layer y).origin = some o)
    (Q := fun t => (t.layer y).state = .playing ∨ (t.layer y).state = .ended)
    (.enter y) (fun t p hp ht => ?_) (fun t ht => ?_) (fun t p hp ht => ?_) (fun t ht => ?_) ⟨rfl, hs, ho⟩
  · obtain ⟨hclk, hcued, horigin⟩ := ht
    obtain ⟨hst, hor⟩ := phaseWork_replay r kind frame t hp
    refine ⟨(phaseWork_keeps ..).clk.trans hclk, ?_, hor.trans horigin⟩
    obtain h | ⟨h, -⟩ := hst
    · exact h.trans hcued
    · exact nomatch hcued.symm.trans h
  · obtain ⟨hclk, hcued, horigin⟩ := ht
    exact enterPlaying_entered hcued horigin (by rw [hclk]; exact hr) (by rw [hclk]; exact hle)
  · exact hplays t _ (phaseWork_replay r kind frame t hp).1 ht
  · exact hplays t _ ((takeAll_takings t).later y).state ht

/-! ### The instant that has nothing to do -/

theorem takeAll_of_nextTaking_none {s : State} (h : nextTaking s = none) : takeAll s = s := by
  unfold takeAll
  cases s.recordsLeft .l0 + s.recordsLeft .l1 with
  | zero => rfl
  | succ n => simp [takeLoop, h]

theorem nextTaking_of_none_ready {s : State} (h : ∀ y, readyRecord y s = none) : nextTaking s = none := by
  simp [nextTaking, h]

theorem readyRecord_of_not_replaying {y : LayerId} {s : State}
    (h : (s.layer y).state ≠ .cued ∧ (s.layer y).state ≠ .playing) : readyRecord y s = none := by
  unfold readyRecord
  cases hr : (s.layer y).ring with
  | nil => simp [hr]
  | cons r rest => simp [hr, h.1, h.2]

theorem captureReenter_of_not_paused {s : State} (h : s.cap.state ≠ .paused) : captureReenter s = s :=
  if_neg fun c => h c.1

theorem frameSample_of_not_recording {r : PedalReadings} {b : Nat} {s : State} (h : s.cap.state ≠ .recording) :
    frameSample r b s = s := by
  have hfold : ∀ (ps : List Pedal) (time : Nat), ps.foldl (framePedal r time) s = s := by
    intro ps time
    induction ps with
    | nil => rfl
    | cons p ps ih => rw [List.foldl_cons, framePedal_of_not_recording h, ih]
  exact hfold _ _

theorem captureFrame_of_idle {r : PedalReadings} {b : Nat} {s : State} (h : s.cap.state = .idle) : captureFrame r b s = s := by
  unfold captureFrame
  rw [if_neg (by simp [h])]
  exact frameSample_of_not_recording (by simp [h])

theorem capturePhase_of_idle {r : PedalReadings} {kind : InstantKind} {frame : Option Nat} {s : State}
    (h : s.cap.state = .idle) : phaseWork r kind frame s .capture = s := by
  have hre : (if kind = .advance then s else captureReenter s) = s := by
    split
    · rfl
    · exact captureReenter_of_not_paused (by simp [h])
  simp only [phaseWork, hre]
  split
  · exact captureFrame_of_idle h
  · rfl

/-- Nothing to replay and nothing pending: no action in the plan, no layer CUED or PLAYING, no settings staged. -/
def State.Still (s : State) : Prop :=
  s.sched.plan = [] ∧ ∀ y, (s.layer y).state ≠ .cued ∧ (s.layer y).state ≠ .playing ∧ (s.layer y).staged = none

theorem nextTaking_of_still {s : State} (h : s.Still) : nextTaking s = none :=
  nextTaking_of_none_ready fun y => readyRecord_of_not_replaying ⟨(h.2 y).1, (h.2 y).2.1⟩

theorem judgeLateness_of_plan_nil {s : State} (h : s.sched.plan = []) : judgeLateness s = s := by
  simp [judgeLateness, State.planSerials, h]

theorem phaseWork_of_still {r : PedalReadings} {kind : InstantKind} {frame : Option Nat} {s : State} (h : s.Still)
    {p : Phase} (hp : p ≠ .capture) : phaseWork r kind frame s p = s := by
  cases p with
  | capture => exact absurd rfl hp
  | latch y =>
    unfold phaseWork
    dsimp only
    split
    · exact latch_of_none (h.2 y).2.2
    · rfl
  | enter y => exact enterPlaying_of_not_cued (h.2 y).1
  | schedule =>
    have hlate : (if kind = .advance then judgeLateness s else s) = s := by
      split
      · exact judgeLateness_of_plan_nil h.1
      · rfl
    simp only [phaseWork, hlate]
    rw [processDue_of_plan_nil h.1, takeAll_of_nextTaking_none (nextTaking_of_still h)]

/-- An instant of a still part that captures nothing changes nothing. -/
theorem State.Still.instant {r : PedalReadings} {order : List Phase} {kind : InstantKind} {frame : Option Nat} {s : State}
    (h : s.Still) (hc : s.cap.state = .idle) : instantWork r order kind frame s = s := by
  refine instantWork_maintains (Q := fun t => t = s) (fun t p ht => ?_) (fun t ht => ?_) rfl
  · subst ht
    by_cases hp : p = .capture
    · subst hp; exact capturePhase_of_idle hc
    · exact phaseWork_of_still h hp
  · subst ht
    exact takeAll_of_nextTaking_none (nextTaking_of_still h)

/-- The capture unit in RECORDING again after a pause, every pedal at its first frame (R17). -/
def State.recordingAgain (s : State) : State := { s with cap := { s.cap.markFirst with state := .recording } }

theorem captureReenter_of_none_released {s : State} (hs : s.cap.state = .paused) (ho : s.cap.origin.isSome = true)
    (h : ∀ k, s.releasedUnseen k = false) : captureReenter s = s.recordingAgain := by
  have hne : s.cap.origin ≠ none := by rw [Option.isSome_iff_ne_none] at ho; exact ho
  have hfold : ∀ ks : List Key,
      ks.foldl (fun s k => if s.releasedUnseen k then captureRelease k s else s) s.recordingAgain = s.recordingAgain := by
    intro ks
    induction ks with
    | nil => rfl
    | cons k ks ih =>
      have hk : s.recordingAgain.releasedUnseen k = false := h k
      rw [List.foldl_cons, if_neg (by rw [hk]; decide), ih]
  unfold captureReenter
  rw [if_pos ⟨hs, hne⟩]
  exact hfold allKeys

/-- The re-entry into RUNNING of a still part whose capture was paused with its origin: RECORDING goes on. -/
theorem State.Still.resume {r : PedalReadings} {order : List Phase} {s : State} (h : s.Still) (hs : s.cap.state = .paused)
    (ho : s.cap.origin.isSome = true) (hk : ∀ k, s.releasedUnseen k = false) :
    instantWork r order .resume none s = s.recordingAgain := by
  have hagain : s.recordingAgain.Still := h
  refine instantWork_establishes (P := fun t => t = s) (Q := fun t => t = s.recordingAgain) .capture
    (fun t p hp ht => ?_) (fun t ht => ?_) (fun t p hp ht => ?_) (fun t ht => ?_) rfl
  · subst ht; exact phaseWork_of_still h hp
  · subst ht; exact captureReenter_of_none_released hs ho hk
  · subst ht; exact phaseWork_of_still hagain hp
  · subst ht
    exact takeAll_of_nextTaking_none (nextTaking_of_still hagain)

/-! ### CLOCK RUN -/

/-- The state an instant's work starts from when the clock enters RUNNING: the drop list empties from STOPPED (R126). -/
def State.entering (s : State) : State :=
  { s with
    clk := s.clk.entering s.now
    sched := { s.sched with drops := if s.clk.state = .stopped then [] else s.sched.drops } }

theorem answerClockRun_entering {r : PedalReadings} {order : List Phase} {s : State} (hrun : s.run.state = .idle)
    (hs : s.clk.state ≠ .running) (hl : s.clk.state = .stopped → s.clk.position ≠ Config.clockLimit) :
    ∃ kind frame, answerClockRun r order s = clockAnswer .ok (instantWork r order kind frame s.entering) ∧
      (s.clk.state = .paused → kind = .resume ∧ frame = none) ∧
      (s.clk.state = .stopped → s.clk.position % 200 = 0 → frame = some s.clk.position) := by
  have hidle : s.runActive = false := by simp [State.runActive, hrun]
  cases hc : s.clk.state with
  | running => exact absurd hc hs
  | paused =>
    refine ⟨.resume, none, ?_, fun _ => ⟨rfl, rfl⟩, fun e => by cases e⟩
    simp [answerClockRun, hidle, hc, State.entering]
  | stopped =>
    refine ⟨.start, if onBoundary s.clk.position then some s.clk.position else none, ?_, fun e => ?_, fun _ hb => ?_⟩
    · simp [answerClockRun, hidle, hc, hl hc, State.entering]
    · cases e
    · rw [if_pos (onBoundary_iff.mpr hb)]

/-- Settles O31: the refusals, and the entry into RUNNING with the instant's work in any order. -/
theorem clockRunEntersRunning : Obligations.ClockRunEntersRunning := by
  refine ⟨fun l r order s hl => ?_, fun l r order s hl hrun hs hlimit => ?_⟩
  · have hexec : exec (.clockRun l r order) s = .next (serve l .clockRun (answerClockRun r order) s) := rfl
    rw [hexec, serve_standing _ (serves_of_serving hl)]
    refine ⟨fun h => ?_, fun h hc hp => ?_, fun h hc => ?_⟩
    · simp [answerClockRun, State.runActive, h, clockAnswer]
    · simp [answerClockRun, State.runActive, h, hc, hp, clockAnswer, Config.clockLimit]
    · simp [answerClockRun, State.runActive, h, hc, clockAnswer]
  · intro c still
    have hlayers (h : ∀ y, (s.layer y).state ≠ .cued ∧ (s.layer y).state ≠ .playing ∧ (s.layer y).staged = none) :
        ∀ y, (s.entering.layer y).state ≠ .cued ∧ (s.entering.layer y).state ≠ .playing ∧
          (s.entering.layer y).staged = none
      | .l0 => h .l0
      | .l1 => h .l1
    have hexec : exec (.clockRun l r order) s = .next (serve l .clockRun (answerClockRun r order) s) := rfl
    obtain ⟨kind, frame, hanswer, hpaused, hstart⟩ := answerClockRun_entering (r := r) (order := order) hrun hs hlimit
    rw [hexec, serve_standing _ (serves_of_serving hl), hanswer]
    generalize hu : instantWork r order kind frame s.entering = u
    have hclk : u.clk = c := hu ▸ (instantWork_keeps ..).clk
    refine ⟨_, rfl, by simpa [clockAnswer] using hclk, ?_, fun n hst hb hcap ht ho => ?_, fun y o hcued ho hle => ?_,
      fun hstill hidle => ?_, fun hstill hp hcap ho hk => ?_⟩
    · rw [replied_link]
      simp [clockAnswer, hclk, Request.kind]
    · have hawait : AwaitsOrigin n s.entering := ⟨hcap, ht, ho⟩
      simp only [clockAnswer, replied_store]
      rw [← hu, hstart hst hb]
      exact hawait.instant.1
    · have henters := instantWork_enters (r := r) (order := order) (kind := kind) (frame := frame) (s := s.entering) (y := y)
        (o := o) (by cases y <;> exact hcued) (by cases y <;> exact ho) rfl hle
      have hlayer : ((clockAnswer .ok u).state.replied l .clockRun .ok (clockReport u.clk)).layer y = u.layer y := by
        cases y
        · exact replied_layer0 ..
        · exact replied_layer1 ..
      exact (by rw [hu] at henters; exact hlayer ▸ henters)
    · have hentering : s.entering.Still := ⟨hstill.1, hlayers hstill.2⟩
      have hsame : u = s.entering := hu ▸ hentering.instant hidle
      rw [hsame]
      rfl
    · obtain ⟨rfl, rfl⟩ := hpaused hp
      have hentering : s.entering.Still := ⟨hstill.1, hlayers hstill.2⟩
      have hsame : u = s.entering.recordingAgain := hu ▸ hentering.resume hcap ho hk
      have hdrops : s.entering = { s with clk := c } := by
        simp only [State.entering, if_neg (show s.clk.state ≠ .stopped by rw [hp]; decide)]
        rfl
      rw [hsame, hdrops]
      rfl

end Sys2Proof.Machine
end

section
/-! SUPPORT. The plan through acts, due processing and takings: actions only leave it or wait, a processing leaves none due that it
must act on, and takings leave none either (R109, R111, R112, R117, R119, R120). -/

namespace Sys2Proof.Machine

open Relation (ReflTransGen)

/-! ### Waiting actions -/

theorem withWait_serial (a : Action) (w : WaitReason) : (a.withWait w).serial = a.serial := by
  unfold Action.withWait; split <;> rfl

theorem withWait_layer (a : Action) (w : WaitReason) : (a.withWait w).layer = a.layer := by
  unfold Action.withWait; split <;> rfl

theorem withWait_due (a : Action) (w : WaitReason) : (a.withWait w).due = a.due := by
  unfold Action.withWait; split <;> rfl

/-- A wait reason replaced: a strike that waits for it, and any other action as it was. -/
theorem withWait_cases (a : Action) (w : WaitReason) :
    (∃ k v d f w', a.body = .strike k v d f w' ∧ (a.withWait w).body = .strike k v d f (some w)) ∨ a.withWait w = a := by
  unfold Action.withWait
  split
  · next k v d f w' hb => exact .inl ⟨k, v, d, f, w', hb, rfl⟩
  · exact .inr rfl

theorem withWait_strikeKey (a : Action) (w : WaitReason) : (a.withWait w).strikeKey? = a.strikeKey? := by
  obtain ⟨k, v, d, f, w', ha, hb⟩ | h := withWait_cases a w
  · rw [Action.strikeKey?, Action.strikeKey?, ha, hb]
  · rw [h]

theorem withWait_withWait (a : Action) (w w' : WaitReason) : (a.withWait w).withWait w' = a.withWait w' := by
  cases hb : a.body <;> simp [Action.withWait, hb]

/-! ### What acts leave of the plan -/

/-- `t` has the plan of `s` with actions gone or told to wait, at the same position and with the same next serial number. -/
structure PlanLeft (s t : State) : Prop where
  serials : t.planSerials.Sublist s.planSerials
  old     : ∀ b ∈ t.sched.plan, ∃ a ∈ s.sched.plan, b = a ∨ ∃ w, b = a.withWait w
  next    : t.sched.nextSerial = s.sched.nextSerial
  late    : t.sched.late = s.sched.late
  clk     : t.clk = s.clk

theorem PlanLeft.of_sched {s t : State} (hp : t.sched.plan = s.sched.plan) (hn : t.sched.nextSerial = s.sched.nextSerial)
    (hl : t.sched.late = s.sched.late) (hc : t.clk = s.clk) : PlanLeft s t :=
  ⟨by rw [State.planSerials, State.planSerials, hp], fun b hb => ⟨b, hp ▸ hb, .inl rfl⟩, hn, hl, hc⟩

theorem PlanLeft.refl (s : State) : PlanLeft s s := .of_sched rfl rfl rfl rfl

theorem PlanLeft.trans {s t u : State} (h : PlanLeft s t) (g : PlanLeft t u) : PlanLeft s u := by
  refine ⟨g.serials.trans h.serials, fun c hc => ?_, g.next.trans h.next, g.late.trans h.late, g.clk.trans h.clk⟩
  obtain ⟨b, hb, hcb⟩ := g.old c hc
  obtain ⟨a, ha, hba⟩ := h.old b hb
  refine ⟨a, ha, ?_⟩
  obtain rfl | ⟨w, rfl⟩ := hcb
  · exact hba
  · obtain rfl | ⟨w', rfl⟩ := hba
    · exact .inr ⟨w, rfl⟩
    · exact .inr ⟨w, withWait_withWait a w' w⟩

theorem Act.planLeft {s t : State} (h : Act s t) : PlanLeft s t := by
  cases h with
  | close time hrec =>
    unfold closeCapture
    split <;> exact .of_sched rfl rfl rfl rfl
  | layer y l h => exact .of_sched (by simp) (by simp) (by simp) (by simp)
  | remove n =>
    exact ⟨List.filter_sublist.map _, fun b hb => ⟨b, (List.mem_filter.mp hb).1, .inl rfl⟩, rfl, rfl, rfl⟩
  | wait w a hmem hk htold =>
    rw [waitStrike_eq]
    refine ⟨?_, fun b hb => ?_, rfl, rfl, rfl⟩
    · have hserials : s.planSerials =
          (s.sched.plan.map fun b => if b.serial = a.serial then b.withWait w else b).map Action.serial := by
        rw [State.planSerials, List.map_map]
        refine List.map_congr_left fun b _ => ?_
        dsimp only [Function.comp_apply]
        split
        · exact (withWait_serial b w).symm
        · rfl
      rw [hserials]
      exact List.Sublist.refl _
    · obtain ⟨c, hc, rfl⟩ := List.mem_map.mp hb
      refine ⟨c, hc, ?_⟩
      split
      · exact .inr ⟨w, rfl⟩
      · exact .inl rfl
  | _ => exact .of_sched rfl rfl rfl rfl

theorem Acts.planLeft {s t : State} (h : Acts s t) : PlanLeft s t := by
  induction h with
  | refl => exact .refl s
  | tail _ g ih => exact ih.trans g.planLeft

theorem PlanLeft.length_le {s t : State} (h : PlanLeft s t) : t.sched.plan.length ≤ s.sched.plan.length := by
  have hle := h.serials.length_le
  rwa [State.planSerials, State.planSerials, List.length_map, List.length_map] at hle

/-! ### An action carried out -/

theorem mem_of_action {s : State} {n : Nat} {a : Action} (h : s.action n = some a) : a ∈ s.sched.plan ∧ a.serial = n :=
  ⟨List.mem_of_find?_eq_some h, by simpa using List.find?_some h⟩

theorem not_mem_of_plan_filter {s t : State} {a : Action} (h : t.sched.plan = s.sched.plan.filter fun b => b.serial ≠ a.serial) :
    a.serial ∉ t.planSerials := by
  rw [State.planSerials, h]
  simp

theorem offerStrike_cases {a : Action} {k : Key} (s : State) (hk : a.strikeKey? = some k) :
    (∃ w, offerStrike a k s = waitStrike w a s ∧ (w = .slot ∨ offerTest k s = some (.wait w))) ∨
      a.serial ∉ (offerStrike a k s).planSerials := by
  obtain ⟨v, d, f, w, hb⟩ := body_of_strikeKey hk
  by_cases hy : yieldsNow a k s = true
  · rw [offerStrike_yields hy]
    exact .inr (not_mem_of_plan_filter (dropped_dropStrike _ s hb).plan)
  · rw [offerStrike_answered hy]
    cases hans : offerAnswer k s with
    | taken => exact .inr (not_mem_of_plan_filter (takeStrike_plan s hb))
    | wait w =>
      refine .inl ⟨w, rfl, ?_⟩
      unfold offerAnswer at hans
      split at hans
      · next ans htest => exact .inr (by rw [htest, hans])
      · split at hans
        · cases hans
        · cases hans; exact .inl rfl
    | refused r => exact .inr (not_mem_of_plan_filter (dropped_dropStrike r s hb).plan)

/-- An action carried out leaves the plan or, a strike, waits. -/
theorem carryOut_cases (a : Action) (s : State) :
    (∃ w k, a.strikeKey? = some k ∧ carryOut a s = waitStrike w a s ∧ (w = .slot ∨ offerTest k s = some (.wait w))) ∨
      a.serial ∉ (carryOut a s).planSerials := by
  cases hb : a.body with
  | strike k v d f w =>
    have hk : a.strikeKey? = some k := by rw [Action.strikeKey?, hb]
    obtain ⟨-, -, h⟩ | ⟨-, h⟩ := carryOut_strike (s := s) hb <;> rw [h]
    · exact .inr (not_mem_of_plan_filter (dropped_dropStrike _ s hb).plan)
    · obtain ⟨w, h, htold⟩ | h := offerStrike_cases s hk
      · exact .inl ⟨w, k, hk, h, htold⟩
      · exact .inr h
  | depress k d => rw [carryOut_depress hb]; exact .inr (not_mem_of_plan_filter (leavePlan_plan ..))
  | release k auto => rw [carryOut_release hb]; exact .inr (not_mem_of_plan_filter (leavePlan_plan ..))
  | pedal p v => rw [carryOut_pedal hb]; exact .inr (not_mem_of_plan_filter (leavePlan_plan ..))

/-- An action whose carrying out changes a key's drive state has left the plan. -/
theorem carryOut_shrinks {s : State} {n : Nat} {a : Action} {k : Key} (ha : s.action n = some a)
    (hk : ((carryOut a s).driveKey k).state ≠ (s.driveKey k).state) :
    (carryOut a s).sched.plan.length < s.sched.plan.length := by
  obtain ⟨hmem, rfl⟩ := mem_of_action ha
  obtain ⟨w, j, -, h, -⟩ | hgone := carryOut_cases a s
  · exact absurd (by rw [h]; rfl) hk
  · have hleft := (carryOut_acts hmem).planLeft
    have hne : (carryOut a s).planSerials.length ≠ s.planSerials.length := fun e =>
      hgone (by rw [hleft.serials.eq_of_length e]; exact List.mem_map_of_mem hmem)
    have hlt := lt_of_le_of_ne hleft.serials.length_le hne
    rwa [State.planSerials, State.planSerials, List.length_map, List.length_map] at hlt

/-! ### The processing loop, whole (R117, R119) -/

theorem processLoop_absent {fuel n : Nat} {again todo : List Nat} {s : State} (h : s.action n = none) :
    processLoop (fuel + 1) again (n :: todo) s = processLoop fuel again todo s := by
  simp [processLoop, h]

/-- A processing with looks enough comes to the end of its actions: what each look keeps holds there. -/
theorem processLoop_induction {P : List Nat → List Nat → State → Prop}
    (hskip : ∀ again n todo s, P again (n :: todo) s → (∀ a, s.action n = some a → processable again s a = false) →
      P again todo s)
    (hquiet : ∀ again n todo s a, P again (n :: todo) s → s.action n = some a → processable again s a = true →
      (∀ k, ((carryOut a s).driveKey k).state = (s.driveKey k).state) →
      P (again.filter fun m => m ≠ n) todo (carryOut a s))
    (hrestart : ∀ again n todo s a, P again (n :: todo) s → s.action n = some a → processable again s a = true →
      P ((again.filter fun m => m ≠ n) ++ reoffers (changedKeys s (carryOut a s)) (carryOut a s))
        (carryOut a s).planSerials (carryOut a s)) :
    ∀ (fuel : Nat) (again todo : List Nat) (s : State),
      todo.length + s.sched.plan.length * s.sched.plan.length ≤ fuel → P again todo s →
      ∃ again', P again' [] (processLoop fuel again todo s) := by
  intro fuel
  induction fuel with
  | zero =>
    intro again todo s hfuel h
    have htodo : todo = [] := List.length_eq_zero_iff.mp (by omega)
    subst htodo
    exact ⟨again, by rw [processLoop_nil]; exact h⟩
  | succ fuel ih =>
    intro again todo s hfuel h
    cases todo with
    | nil => exact ⟨again, by rw [processLoop_nil]; exact h⟩
    | cons n todo =>
      rw [List.length_cons] at hfuel
      cases ha : s.action n with
      | none =>
        rw [processLoop_absent ha]
        exact ih again todo s (by omega) (hskip again n todo s h fun a e => nomatch ha.symm.trans e)
      | some a =>
        cases hp : processable again s a with
        | false =>
          rw [processLoop_skip ha hp]
          exact ih again todo s (by omega) (hskip again n todo s h fun b e => by cases ha.symm.trans e; exact hp)
        | true =>
          have hmem := (mem_of_action ha).1
          have hle := (carryOut_acts hmem).planLeft.length_le
          by_cases hc : ∀ k, ((carryOut a s).driveKey k).state = (s.driveKey k).state
          · rw [processLoop_quiet ha hp hc]
            refine ih _ todo _ ?_ (hquiet again n todo s a h ha hp hc)
            have hmul := Nat.mul_le_mul hle hle
            omega
          · obtain ⟨k, hk⟩ := not_forall.mp hc
            rw [processLoop_restart ha hp hk]
            refine ih _ _ _ ?_ (hrestart again n todo s a h ha hp)
            have hlt := carryOut_shrinks ha hk
            generalize hq : (carryOut a s).sched.plan.length = q at hlt
            have hlen : (carryOut a s).planSerials.length = q := by rw [State.planSerials, List.length_map, hq]
            rw [hlen]
            have hmul : q + q * q ≤ s.sched.plan.length * s.sched.plan.length := by
              have h1 := Nat.mul_le_mul (Nat.succ_le_of_lt hlt) (Nat.le_of_lt hlt)
              have h2 : q.succ * q = q * q + q := Nat.succ_mul q q
              have h3 : q.succ * q ≤ s.sched.plan.length * s.sched.plan.length :=
                Nat.mul_le_mul (Nat.succ_le_of_lt hlt) (Nat.le_of_lt hlt)
              omega
            omega

/-- The looks of a whole processing are enough. -/
theorem processDue_induction {P : List Nat → List Nat → State → Prop}
    (hskip : ∀ again n todo s, P again (n :: todo) s → (∀ a, s.action n = some a → processable again s a = false) →
      P again todo s)
    (hquiet : ∀ again n todo s a, P again (n :: todo) s → s.action n = some a → processable again s a = true →
      (∀ k, ((carryOut a s).driveKey k).state = (s.driveKey k).state) →
      P (again.filter fun m => m ≠ n) todo (carryOut a s))
    (hrestart : ∀ again n todo s a, P again (n :: todo) s → s.action n = some a → processable again s a = true →
      P ((again.filter fun m => m ≠ n) ++ reoffers (changedKeys s (carryOut a s)) (carryOut a s))
        (carryOut a s).planSerials (carryOut a s)) {named : Key → Bool} {s : State} (hr : s.clk.state = .running)
    (h : P (reoffers named s) s.planSerials s) : ∃ again', P again' [] (processDue named s) := by
  have heq : processDue named s =
      processLoop ((s.sched.plan.length + 1) * (s.sched.plan.length + 1)) (reoffers named s) s.planSerials s :=
    if_pos (by simp [State.running, hr])
  rw [heq]
  refine processLoop_induction hskip hquiet hrestart _ _ _ _ ?_ h
  have hlen : s.planSerials.length = s.sched.plan.length := by rw [State.planSerials, List.length_map]
  rw [hlen, Nat.add_mul, Nat.mul_add]
  omega

/-! ### Actions a processing must act on (R117) -/

/-- An action that no processing leaves due, as the plan of `s` has it: a PEDAL, a strike never processed, and a RELEASE or
DEPRESS with no earlier STRIKE of its key and layer there. -/
def Action.Urgent (s : State) (a : Action) : Prop :=
  (∃ q v, a.body = .pedal q v) ∨ (∃ k v d f, a.body = .strike k v d f none) ∨
    a.serial < s.sched.nextSerial ∧ ∃ k, ((∃ auto, a.body = .release k auto) ∨ ∃ d, a.body = .depress k d) ∧
      ∀ b ∈ s.sched.plan, b.strikeKey? = some k → b.layer = a.layer → a.serial ≤ b.serial

theorem not_urgent_of_waiting {s : State} {a : Action} {k : Key} {v d f : Nat} {w : WaitReason}
    (h : a.body = .strike k v d f (some w)) : ¬ a.Urgent s := by
  rintro (⟨q, v', hb⟩ | ⟨k', v', d', f', hb⟩ | ⟨-, k', ⟨auto, hb⟩ | ⟨d', hb⟩, -⟩) <;> exact nomatch h.symm.trans hb

theorem Action.Urgent.of_withWait {s : State} {a : Action} {w : WaitReason} (h : (a.withWait w).Urgent s) :
    a.Urgent s ∧ a.withWait w = a := by
  obtain ⟨k, v, d, f, w', -, hb⟩ | heq := withWait_cases a w
  · exact absurd h (not_urgent_of_waiting hb)
  · rw [heq] at h; exact ⟨h, heq⟩

/-- `t` is tended from `s`: serial numbers stay unique and below the next one, and every action from before stood in the plan of
`s`. -/
structure Tended (s t : State) : Prop where
  clk     : t.clk = s.clk
  next    : s.sched.nextSerial ≤ t.sched.nextSerial
  serials : SerialsSound t
  old     : ∀ b ∈ t.sched.plan, b.serial < s.sched.nextSerial →
    ∃ a ∈ s.sched.plan, a.serial = b.serial ∧ a.layer = b.layer ∧ a.strikeKey? = b.strikeKey?

theorem Tended.start {s t : State} (hclk : t.clk = s.clk) (hsched : t.sched = s.sched) (h : SerialsSound s) : Tended s t := by
  refine ⟨hclk, by rw [hsched], ?_, fun b hb _ => ⟨b, by rw [← hsched]; exact hb, rfl, rfl, rfl⟩⟩
  rw [SerialsSound, State.planSerials, hsched]
  exact h

theorem PlanLeft.serialsSound {s t : State} (h : PlanLeft s t) (hs : SerialsSound s) : SerialsSound t := by
  refine ⟨hs.1.sublist h.serials, fun b hb => ?_⟩
  obtain ⟨a, ha, hba⟩ := h.old b hb
  have hserial : b.serial = a.serial := by
    obtain rfl | ⟨w, rfl⟩ := hba
    · rfl
    · exact withWait_serial a w
  rw [hserial, h.next]
  exact hs.2 a ha

theorem Tended.left {s t u : State} (h : Tended s t) (g : PlanLeft t u) : Tended s u := by
  refine ⟨g.clk.trans h.clk, by rw [g.next]; exact h.next, g.serialsSound h.serials, fun c hc hlt => ?_⟩
  obtain ⟨b, hb, hcb⟩ := g.old c hc
  have hfields : c.serial = b.serial ∧ c.layer = b.layer ∧ c.strikeKey? = b.strikeKey? := by
    obtain rfl | ⟨w, rfl⟩ := hcb
    · exact ⟨rfl, rfl, rfl⟩
    · exact ⟨withWait_serial b w, withWait_layer b w, withWait_strikeKey b w⟩
  obtain ⟨hser, hlay, hkey⟩ := hfields
  obtain ⟨a, ha, h1, h2, h3⟩ := h.old b hb (hser ▸ hlt)
  exact ⟨a, ha, h1.trans hser.symm, h2.trans hlay.symm, h3.trans hkey.symm⟩

/-- Due and to be acted on. -/
def Pressing (s t : State) (a : Action) : Prop := a.due ≤ (t.clk.position : Int) ∧ a.Urgent s

/-- What acts leave of the plan holds no pressing action that did not press before. -/
theorem PlanLeft.pressing {s t u : State} (g : PlanLeft t u) {b : Action} (hb : b ∈ u.sched.plan) (hp : Pressing s u b) :
    b ∈ t.sched.plan ∧ Pressing s t b := by
  obtain ⟨a, ha, hba⟩ := g.old b hb
  have hclk : u.clk.position = t.clk.position := congrArg Clock.position g.clk
  obtain rfl | ⟨w, rfl⟩ := hba
  · exact ⟨ha, by rw [← hclk]; exact hp.1, hp.2⟩
  · obtain ⟨hu, heq⟩ := hp.2.of_withWait
    rw [heq]
    refine ⟨ha, ?_, hu⟩
    rw [← hclk, ← withWait_due a w]
    exact hp.1

/-- A pressing action is one a processing acts on. -/
theorem processable_of_pressing {s t : State} (h : Tended s t) {again : List Nat} {a : Action} (hp : Pressing s t a) :
    processable again t a = true := by
  have hdue : decide (a.due ≤ (t.clk.position : Int)) = true := decide_eq_true hp.1
  obtain ⟨q, v, hb⟩ | ⟨k, v, d, f, hb⟩ | ⟨hlt, k, hbody, hnone⟩ := hp.2
  · simp [processable, hdue, hb]
  · simp [processable, hdue, hb, Action.wait]
  · have hkey : a.key? = some k := by
      obtain ⟨auto, hb⟩ | ⟨d, hb⟩ := hbody <;> rw [Action.key?, hb]
    have hfree : heldBehind a t = false := by
      rw [heldBehind, hkey]
      refine List.any_eq_false.mpr fun b hb => ?_
      simp only [Bool.and_eq_true, decide_eq_true_eq, not_and, not_lt]
      rintro ⟨hstrike, hlayer⟩
      by_contra hearlier
      obtain ⟨c, hc, hcs, hcl, hck⟩ := h.old b hb (by omega)
      have hle := hnone c hc (hck.trans hstrike) (hcl.trans hlayer)
      omega
    obtain ⟨auto, hb⟩ | ⟨d, hb⟩ := hbody
    · simp [processable, hdue, hb, hfree]
    · simp [processable, hdue, hb, hfree]

/-- After an action is carried out nothing under its number presses. -/
theorem carryOut_not_pressing {s t : State} {a b : Action} (hn : t.planSerials.Nodup) (ha : a ∈ t.sched.plan)
    (hb : b ∈ (carryOut a t).sched.plan) (hserial : b.serial = a.serial) : ¬ b.Urgent s := by
  obtain ⟨w, k, hk, h, -⟩ | hgone := carryOut_cases a t
  · rw [h, waitStrike_eq] at hb
    obtain ⟨c, hc, hcb⟩ := List.mem_map.mp hb
    have hcs : c.serial = a.serial := by
      split at hcb
      · assumption
      · rw [hcb]; exact hserial
    rw [if_pos hcs] at hcb
    have hca := List.inj_on_of_nodup_map hn hc ha hcs
    subst hca
    obtain ⟨k', v, d, f, w', -, hbody⟩ | heq := withWait_cases c w
    · rw [← hcb]; exact not_urgent_of_waiting hbody
    · obtain ⟨v, d, f, w', hbody⟩ := body_of_strikeKey hk
      have hwait : (c.withWait w).body = .strike k v d f (some w) := by rw [Action.withWait, hbody]
      rw [← hcb]
      exact not_urgent_of_waiting hwait
  · exact absurd (hserial ▸ List.mem_map_of_mem hb) hgone

/-- A processing leaves nothing that presses (R117). -/
theorem processDue_settles {s t : State} {named : Key → Bool} (h : Tended s t) (hr : t.clk.state = .running) :
    ∀ a ∈ (processDue named t).sched.plan, ¬ Pressing s (processDue named t) a := by
  obtain ⟨_, -, hdone⟩ := processDue_induction
    (P := fun _ todo u => Tended s u ∧ ∀ a ∈ u.sched.plan, Pressing s u a → a.serial ∈ todo)
    (fun again n todo u ⟨hu, htodo⟩ hskip => ⟨hu, fun a ha hp => by
      refine (List.mem_cons.mp (htodo a ha hp)).resolve_left fun e => ?_
      have hfalse := hskip a (e ▸ action_of_mem ha hu.serials.1)
      rw [processable_of_pressing hu hp] at hfalse
      cases hfalse⟩)
    (fun again n todo u a ⟨hu, htodo⟩ ha hp hquiet => by
      obtain ⟨hmem, rfl⟩ := mem_of_action ha
      have hleft := (carryOut_acts hmem).planLeft
      refine ⟨hu.left hleft, fun b hb hpress => ?_⟩
      obtain ⟨hbu, hpu⟩ := hleft.pressing hb hpress
      exact (List.mem_cons.mp (htodo b hbu hpu)).resolve_left fun e =>
        carryOut_not_pressing hu.serials.1 hmem hb e hpress.2)
    (fun again n todo u a ⟨hu, htodo⟩ ha hp =>
      ⟨hu.left (carryOut_acts (mem_of_action ha).1).planLeft, fun b hb _ => List.mem_map_of_mem hb⟩)
    (named := named) hr ⟨h, fun a ha _ => List.mem_map_of_mem ha⟩
  exact fun a ha hp => List.not_mem_nil (hdone a ha hp)

/-! ### Takings (R109, R111, R112) -/

theorem mem_planInsert {a b : Action} {p : List Action} : b ∈ planInsert a p ↔ b = a ∨ b ∈ p := by
  induction p with
  | nil => simp [planInsert]
  | cons c p ih =>
    unfold planInsert
    split
    · simp only [List.mem_cons, ih]; tauto
    · simp only [List.mem_cons]

theorem nodup_planInsert {a : Action} {p : List Action} (h : (p.map Action.serial).Nodup) (ha : a.serial ∉ p.map Action.serial) :
    ((planInsert a p).map Action.serial).Nodup := by
  induction p with
  | nil => simp [planInsert]
  | cons c p ih =>
    unfold planInsert
    split
    · obtain ⟨hc, hp⟩ := List.nodup_cons.mp h
      rw [List.map_cons, List.mem_cons, not_or] at ha
      rw [List.map_cons, List.nodup_cons]
      refine ⟨fun hmem => ?_, ih hp ha.2⟩
      obtain ⟨b, hb, hbc⟩ := List.mem_map.mp hmem
      obtain rfl | hb := mem_planInsert.mp hb
      · exact ha.1 hbc
      · exact hc (hbc ▸ List.mem_map_of_mem hb)
    · exact List.nodup_cons.mpr ⟨ha, h⟩

/-- A taking's act: what acts leave of the plan, or one action inserted under the next serial number. -/
theorem Taking.plan {s t : State} (h : Taking s t) :
    PlanLeft s t ∨ ∃ a : Action, a.serial = s.sched.nextSerial ∧ (∀ k v d f w, a.body ≠ .strike k v d f (some w)) ∧
      t.sched.plan = planInsert a s.sched.plan ∧ t.sched.nextSerial = s.sched.nextSerial + 1 ∧ t.sched.late = s.sched.late ∧
      t.clk = s.clk := by
  cases h with
  | act h => exact .inl h.planLeft
  | memory k m => exact .inl (.of_sched rfl rfl rfl rfl)
  | insert y event due lead body hbody => exact .inr ⟨_, rfl, hbody, rfl, rfl, rfl, rfl⟩
  | fetched y => exact .inl (.of_sched (by simp) (by simp) (by simp) (by simp))
  | pop y =>
    have hsched := (popRing_frame y s).2.2.1
    exact .inl (.of_sched (by rw [hsched]) (by rw [hsched]) (by rw [hsched]) (popRing_keeps y s).clk)

theorem Tended.taking {s t u : State} (g : Taking t u) (h : Tended s t) : Tended s u := by
  obtain hleft | ⟨a, hserial, -, hplan, hnext, -, hclk⟩ := g.plan
  · exact h.left hleft
  · have hnot : a.serial ∉ t.planSerials := fun hmem => by
      obtain ⟨b, hb, hbs⟩ := List.mem_map.mp hmem
      have hlt := h.serials.2 b hb
      omega
    have hle := h.next
    refine ⟨hclk.trans h.clk, by omega, ⟨?_, fun b hb => ?_⟩, fun b hb hlt => ?_⟩
    · rw [State.planSerials, hplan]
      exact nodup_planInsert h.serials.1 hnot
    · rw [hplan] at hb
      obtain rfl | hb := mem_planInsert.mp hb
      · omega
      · have hlt := h.serials.2 b hb
        omega
    · rw [hplan] at hb
      obtain rfl | hb := mem_planInsert.mp hb
      · omega
      · exact h.old b hb hlt

/-- Nothing under a serial number below `n` presses. -/
def OldSettled (s : State) (n : Nat) (t : State) : Prop :=
  n ≤ t.sched.nextSerial ∧ ∀ a ∈ t.sched.plan, a.serial < n → ¬ Pressing s t a

theorem OldSettled.taking {s t u : State} {n : Nat} (g : Taking t u) (h : OldSettled s n t) : OldSettled s n u := by
  obtain hleft | ⟨a, hserial, -, hplan, hnext, -, hclk⟩ := g.plan
  · refine ⟨by rw [hleft.next]; exact h.1, fun b hb hlt hp => ?_⟩
    obtain ⟨hbt, hpt⟩ := hleft.pressing hb hp
    exact h.2 b hbt hlt hpt
  · refine ⟨by rw [hnext]; exact Nat.le_succ_of_le h.1, fun b hb hlt hp => ?_⟩
    rw [hplan] at hb
    obtain rfl | hb := mem_planInsert.mp hb
    · have hle := h.1
      omega
    · exact h.2 b hb hlt ⟨by rw [← hclk]; exact hp.1, hp.2⟩

/-- Tended, with nothing that presses. -/
def Settled (s t : State) : Prop := Tended s t ∧ ∀ a ∈ t.sched.plan, ¬ Pressing s t a

theorem Settled.left {s t u : State} (h : Settled s t) (g : PlanLeft t u) : Settled s u :=
  ⟨h.1.left g, fun b hb hp => by
    obtain ⟨hbt, hpt⟩ := g.pressing hb hp
    exact h.2 b hbt hpt⟩

theorem Settled.of_sched {s t u : State} (h : Settled s t) (hs : u.sched = t.sched) (hc : u.clk = t.clk) : Settled s u :=
  h.left (.of_sched (by rw [hs]) (by rw [hs]) (by rw [hs]) hc)

/-- A record taken whole leaves nothing that presses: what it inserts due is processed at once (R112). -/
theorem settled_takeRecord {s t : State} (h : Settled s t) (hr : s.clk.state = .running) (y : LayerId) (r : Record) :
    Settled s (takeRecord y r t) := by
  have hhand : Takings t (handRecord y r (popRing y t)) := (handRecord_takings ..).after (.pop y)
  unfold takeRecord
  generalize handRecord y r (popRing y t) = u at hhand
  have htended : Tended s u := hhand.keep (fun _ _ => Tended.taking) h.1
  have hold : OldSettled s t.sched.nextSerial u :=
    hhand.keep (fun _ _ => OldSettled.taking) ⟨Nat.le_refl _, fun a ha _ => h.2 a ha⟩
  have hprocessed : Settled s (processInserted t u) := by
    unfold processInserted
    split
    · exact ⟨htended.left (processDue_acts ..).planLeft, processDue_settles htended (by rw [htended.clk]; exact hr)⟩
    · next hnone =>
      refine ⟨htended, fun a ha hp => ?_⟩
      by_cases hlt : a.serial < t.sched.nextSerial
      · exact hold.2 a ha hlt hp
      · refine hnone (List.any_eq_true.mpr ⟨a, ha, ?_⟩)
        rw [Bool.and_eq_true, decide_eq_true_eq, decide_eq_true_eq]
        exact ⟨Nat.le_of_not_lt hlt, hp.1⟩
  exact hprocessed.of_sched (endIfDone_outputs ..).sched (endIfDone_outputs ..).keeps.clk

theorem settled_takeAll {s t : State} (h : Settled s t) (hr : s.clk.state = .running) : Settled s (takeAll t) := by
  have hloop : ∀ (fuel : Nat) (t : State), Settled s t → Settled s (takeLoop fuel t) := by
    intro fuel
    induction fuel with
    | zero => exact fun t h => h
    | succ n ih =>
      intro t h
      unfold takeLoop
      split
      · exact h
      · exact ih _ (settled_takeRecord h hr ..)
  exact hloop _ t h

/-! ### The scheduler's part of an instant, and the parts beside it -/

/-- The scheduler's part of an instant leaves nothing that presses (R111, R117). -/
theorem schedulePhase_settles {r : PedalReadings} {kind : InstantKind} {frame : Option Nat} {s t : State}
    (hclk : t.clk = s.clk) (hsched : t.sched = s.sched) (hs : SerialsSound s) (hr : s.clk.state = .running) :
    Settled s (phaseWork r kind frame t .schedule) := by
  have hlate : PlanLeft t (if kind = .advance then judgeLateness t else t) := by
    split
    · exact (judgeLateness_acts t).planLeft
    · exact .refl t
  have htended := (Tended.start hclk hsched hs).left hlate
  exact settled_takeAll ⟨htended.left (processDue_acts ..).planLeft,
    processDue_settles htended (by rw [htended.clk]; exact hr)⟩ hr

theorem phaseWork_sched (r : PedalReadings) (kind : InstantKind) (frame : Option Nat) (s : State) {p : Phase}
    (h : p ≠ .schedule) : (phaseWork r kind frame s p).sched = s.sched := by
  cases p with
  | capture => exact (capturePhase_only ..).sched
  | latch y =>
    unfold phaseWork
    dsimp only
    split
    · exact (latch_outputs y s).sched
    · rfl
  | enter y => exact (enterPlaying_outputs y s).sched
  | schedule => exact absurd rfl h

/-- After an instant's work nothing presses. -/
theorem instantWork_settles (r : PedalReadings) (order : List Phase) (kind : InstantKind) (frame : Option Nat) {s : State}
    (hs : SerialsSound s) (hr : s.clk.state = .running) : Settled s (instantWork r order kind frame s) :=
  instantWork_establishes (P := fun t => t.clk = s.clk ∧ t.sched = s.sched) (Q := Settled s) .schedule
    (fun t _ hp ht => ⟨(phaseWork_keeps ..).clk.trans ht.1, (phaseWork_sched r kind frame t hp).trans ht.2⟩)
    (fun _ ht => schedulePhase_settles ht.1 ht.2 hs hr)
    (fun t _ hp ht => ht.of_sched (phaseWork_sched r kind frame t hp) (phaseWork_keeps ..).clk)
    (fun _ ht => settled_takeAll ht hr) ⟨rfl, rfl⟩

/-! ### Overdue strikes (R120) -/

/-- The number `n` is used up: no action of the plan has it, and none will. -/
def SerialGone (n : Nat) (t : State) : Prop := n < t.sched.nextSerial ∧ ∀ b ∈ t.sched.plan, b.serial ≠ n

theorem SerialGone.taking {n : Nat} {s t : State} (g : Taking s t) (h : SerialGone n s) : SerialGone n t := by
  obtain hleft | ⟨a, hserial, -, hplan, hnext, -, -⟩ := g.plan
  · refine ⟨by rw [hleft.next]; exact h.1, fun c hc => ?_⟩
    obtain ⟨b, hb, rfl | ⟨w, rfl⟩⟩ := hleft.old c hc
    · exact h.2 c hb
    · rw [withWait_serial]; exact h.2 b hb
  · refine ⟨by rw [hnext]; exact Nat.lt_succ_of_lt h.1, fun b hb => ?_⟩
    rw [hplan] at hb
    obtain rfl | hb := mem_planInsert.mp hb
    · have hlt := h.1
      omega
    · exact h.2 b hb

/-- A clock advance leaves no strike that has waited beyond the tolerance (R120). -/
theorem instantWork_drops_overdue (r : PedalReadings) (order : List Phase) (frame : Option Nat) {s : State} {a : Action}
    (hs : SerialsSound s) (ha : a ∈ s.sched.plan) (hlate : s.overdue a = true) :
    SerialGone a.serial (instantWork r order .advance frame s) := by
  refine instantWork_establishes (P := fun t => t.clk = s.clk ∧ t.sched = s.sched) (Q := SerialGone a.serial) .schedule
    (fun t _ hp ht => ⟨(phaseWork_keeps ..).clk.trans ht.1, (phaseWork_sched r .advance frame t hp).trans ht.2⟩)
    (fun t ht => ?_) (fun t p hp ht => ?_)
    (fun t => (takeAll_takings t).keep fun _ _ => SerialGone.taking) ⟨rfl, rfl⟩
  · obtain ⟨hclk, hsched⟩ := ht
    have hsound : SerialsSound t := by rw [SerialsSound, State.planSerials, hsched]; exact hs
    have hjudged := judgeLateness_dropped hsound
    have hgone : SerialGone a.serial (judgeLateness t) := by
      refine ⟨?_, fun b hb e => ?_⟩
      · rw [(judgeLateness_acts t).planLeft.next, hsched]
        exact hs.2 a ha
      · rw [hjudged.plan, List.mem_filter] at hb
        have hnot := List.all_eq_true.mp hb.2 a (hsched ▸ ha)
        have hover : t.overdue a = true := by rw [State.overdue, hsched, hclk]; exact hlate
        simp [hover, e] at hnot
    have hrest : Takings (judgeLateness t) (phaseWork r .advance frame t .schedule) :=
      (processDue_acts ..).takings.trans (takeAll_takings _)
    exact hrest.keep (fun _ _ => SerialGone.taking) hgone
  · rw [SerialGone, phaseWork_sched r .advance frame t hp]
    exact ht

end Sys2Proof.Machine
end

section
/-! SUPPORT. The takings come to an end: every record taken uses one up, so none is left ready (R109, R111). -/

namespace Sys2Proof.Machine

open Relation (ReflTransGen)

/-! ### Records left -/

theorem recordsLeft_of_take {s : State} {y : LayerId} {t : TakeNo} (h : (s.layer y).source = some (.take t)) :
    s.recordsLeft y = (s.layer y).ring.length + ((s.store.entry t).length - (s.layer y).cursor) := by
  simp only [State.recordsLeft, h]

theorem recordsLeft_of_no_take {s : State} {y : LayerId} (h : ∀ t, (s.layer y).source ≠ some (.take t)) :
    s.recordsLeft y = (s.layer y).ring.length := by
  unfold State.recordsLeft
  dsimp only
  split
  · next t ht => exact absurd ht (h t)
  · rfl

/-- The records a layer has left depend on its ring, its cursor and the length of the take it is bound to. -/
theorem recordsLeft_eq {s t : State} {y : LayerId} (hr : (t.layer y).ring = (s.layer y).ring)
    (hs : (t.layer y).source = (s.layer y).source) (hc : (t.layer y).cursor = (s.layer y).cursor)
    (hl : ∀ n, (s.layer y).source = some (.take n) → (t.store.entry n).length = (s.store.entry n).length) :
    t.recordsLeft y = s.recordsLeft y := by
  by_cases htake : ∃ n, (s.layer y).source = some (.take n)
  · obtain ⟨n, hn⟩ := htake
    rw [recordsLeft_of_take hn, recordsLeft_of_take (hs.trans hn), hr, hc, hl n hn]
  · rw [recordsLeft_of_no_take fun n hn => htake ⟨n, hn⟩, recordsLeft_of_no_take fun n hn => htake ⟨n, hs.symm.trans hn⟩, hr]

/-- The capture take is OPEN, a bound take CLOSED (R30, R33): the capture unit writes no take that a layer replays. -/
theorem target_not_bound {s : State} {y : LayerId} {t : TakeNo} (hs : StoreSound s) (hb : BindingsAgree s)
    (hsource : (s.layer y).source = some (.take t)) : s.cap.target ≠ some t := by
  intro ht
  have hopen := ((storeSound_iff.mp hs).2 t ht).1
  obtain ⟨hcount, hclosed⟩ := (bindingsAgree_iff.mp hb).1
  have hbound : (s.store.entry t).bound ≠ 0 := by
    rw [hcount t]
    cases y
    · rw [layer_l0] at hsource; simp [boundBy, hsource]
    · rw [layer_l1] at hsource; simp [boundBy, hsource]
  have hcl := hclosed t hbound
  rw [hopen] at hcl
  cases hcl

theorem closeCapture_entry_other {s : State} {n : TakeNo} (time : Nat) (h : s.cap.target ≠ some n) :
    (closeCapture time s).store.entry n = s.store.entry n := by
  cases ht : s.cap.target with
  | none => rw [closeCapture_of_no_target time ht]
  | some t =>
    have hn : n ≠ t := fun e => h (e ▸ ht)
    rw [closeCapture_eq time ht]
    refine (entry_closeTake_other _ _ hn).trans ?_
    cases s.cap.origin with
    | some o => rfl
    | none => exact entry_setEntry_other _ _ hn

theorem Act.recordsLeft {s t : State} (h : Act s t) (hs : StoreSound s) (hb : BindingsAgree s) (y : LayerId) :
    t.recordsLeft y = s.recordsLeft y := by
  have hstill {t : State} (h0 : t.layer0 = s.layer0) (h1 : t.layer1 = s.layer1)
      (hl : ∀ n, (s.layer y).source = some (.take n) → t.store.entry n = s.store.entry n) :
      t.recordsLeft y = s.recordsLeft y := by
    have hlayer := layer_eq_of_fields h0 h1 y
    exact recordsLeft_eq (by rw [hlayer]) (by rw [hlayer]) (by rw [hlayer]) fun n hn => by rw [hl n hn]
  cases h with
  | append hrec ht hst =>
    refine hstill rfl rfl fun n hn => appendRecord_entry_other hst fun e => ?_
    exact target_not_bound hs hb hn (e ▸ ht)
  | close time hrec =>
    have hlayer := closeCapture_layer time s y
    exact recordsLeft_eq (by rw [hlayer]) (by rw [hlayer]) (by rw [hlayer]) fun n hn => by
      rw [closeCapture_entry_other time (target_not_bound hs hb hn)]
  | layer z l hl =>
    by_cases hz : y = z
    · subst hz
      exact recordsLeft_eq (by simp [hl.ring]) (by simp [hl.source]) (by simp [hl.cursor]) (by simp)
    · have hlayer := layer_setLayer_other s l hz
      exact recordsLeft_eq (by rw [hlayer]) (by rw [hlayer]) (by rw [hlayer]) (by simp)
  | _ => exact hstill rfl rfl fun _ _ => rfl

theorem refill_recordsLeft (y z : LayerId) (s : State) : (refill y s).recordsLeft z = s.recordsLeft z := by
  unfold refill
  dsimp only
  split
  · next t hsource =>
    split
    · next hroom =>
      by_cases hz : z = y
      · subst hz
        rw [recordsLeft_of_take hsource, recordsLeft_of_take (t := t) (by simpa using hsource)]
        simp only [layer_setLayer_same, setLayer_store, List.length_append, records_length]
        omega
      · have hlayer := layer_setLayer_other s { (s.layer y) with
          ring := (s.layer y).ring ++ s.store.records t (s.layer y).cursor
            (min (Config.ringPlaces - (s.layer y).ring.length) ((s.store.entry t).length - (s.layer y).cursor))
          cursor := (s.layer y).cursor +
            min (Config.ringPlaces - (s.layer y).ring.length) ((s.store.entry t).length - (s.layer y).cursor) } hz
        exact recordsLeft_eq (by rw [hlayer]) (by rw [hlayer]) (by rw [hlayer]) (by simp)
    · rfl
  · rfl

/-- A record leaving its ring is one record fewer. -/
theorem popRing_recordsLeft (y z : LayerId) (s : State) :
    (popRing y s).recordsLeft z = if z = y then s.recordsLeft z - min 1 (s.layer z).ring.length else s.recordsLeft z := by
  have hset (l : Layer) (hr : l.ring = (s.layer y).ring.tail) (hs : l.source = (s.layer y).source)
      (hc : l.cursor = (s.layer y).cursor) : (s.setLayer y l).recordsLeft z =
        if z = y then s.recordsLeft z - min 1 (s.layer z).ring.length else s.recordsLeft z := by
    by_cases hz : z = y
    · subst hz
      rw [if_pos rfl]
      by_cases htake : ∃ n, (s.layer z).source = some (.take n)
      · obtain ⟨n, hn⟩ := htake
        rw [recordsLeft_of_take hn, recordsLeft_of_take (t := n) (by simpa [hs] using hn)]
        simp only [layer_setLayer_same, setLayer_store, hr, hc, List.length_tail]
        omega
      · rw [recordsLeft_of_no_take fun n hn => htake ⟨n, hn⟩,
          recordsLeft_of_no_take fun n hn => htake ⟨n, by simpa [hs] using hn⟩]
        simp only [layer_setLayer_same, hr, List.length_tail]
        omega
    · rw [if_neg hz]
      have hlayer := layer_setLayer_other s l hz
      exact recordsLeft_eq (by rw [hlayer]) (by rw [hlayer]) (by rw [hlayer]) (by simp)
  have hraise (l : Link) (n : Notice) (t : State) : (raise l n t).recordsLeft z = t.recordsLeft z := by
    have hlayer := raise_layer l n t z
    exact recordsLeft_eq (by rw [hlayer]) (by rw [hlayer]) (by rw [hlayer]) (by simp)
  unfold popRing
  dsimp only
  split
  · split
    · rw [hraise]; exact hset _ rfl rfl rfl
    · exact hset _ rfl rfl rfl
  · rw [refill_recordsLeft]; exact hset _ rfl rfl rfl

theorem Taking.recordsLeft_le {s t : State} (h : Taking s t) (hs : StoreSound s) (hb : BindingsAgree s) (y : LayerId) :
    t.recordsLeft y ≤ s.recordsLeft y := by
  cases h with
  | act h => exact (h.recordsLeft hs hb y).le
  | fetched z =>
    refine (recordsLeft_eq ?_ ?_ ?_ (by simp)).le <;> by_cases hz : y = z
    · subst hz; simp
    · rw [layer_setLayer_other _ _ hz]
    · subst hz; simp
    · rw [layer_setLayer_other _ _ hz]
    · subst hz; simp
    · rw [layer_setLayer_other _ _ hz]
  | pop z =>
    rw [popRing_recordsLeft]
    split <;> omega
  | memory k m => exact Nat.le_refl _
  | insert => exact Nat.le_refl _

theorem Takings.recordsLeft_le {s t : State} (h : Takings s t) (hs : StoreSound s) (hb : BindingsAgree s) (y : LayerId) :
    t.recordsLeft y ≤ s.recordsLeft y := by
  induction h with
  | refl => exact Nat.le_refl _
  | tail h g ih =>
    have hp := Takings.preserves h
    exact (g.recordsLeft_le (hp.store hs) (hp.bindings hs hb) y).trans ih

/-! ### Ready records -/

theorem ring_of_readyRecord {y : LayerId} {s : State} {r : Record} {t : Int} (h : readyRecord y s = some (r, t)) :
    ∃ rest, (s.layer y).ring = r :: rest := by
  unfold readyRecord at h
  dsimp only at h
  split at h
  · cases h
  · next q rest hring =>
    split at h
    · cases h; exact ⟨rest, hring⟩
    · cases h

theorem ring_of_nextTaking {s : State} {y : LayerId} {r : Record} (h : nextTaking s = some (y, r)) :
    ∃ rest, (s.layer y).ring = r :: rest := by
  unfold nextTaking at h
  split at h
  · cases h
  · next h0 _ => cases h; exact ring_of_readyRecord h0
  · next _ h1 => cases h; exact ring_of_readyRecord h1
  · next h0 h1 =>
    split at h
    · cases h; exact ring_of_readyRecord h1
    · cases h; exact ring_of_readyRecord h0

theorem nextTaking_eq_none {s : State} (h : nextTaking s = none) (y : LayerId) : readyRecord y s = none := by
  unfold nextTaking at h
  split at h
  · next h0 h1 => cases y; exacts [h0, h1]
  · cases h
  · cases h
  · split at h <;> cases h

/-- A record taken is one record fewer. -/
theorem takeRecord_recordsLeft {s : State} {y : LayerId} {r : Record} (hs : StoreSound s) (hb : BindingsAgree s)
    (h : nextTaking s = some (y, r)) :
    (takeRecord y r s).recordsLeft .l0 + (takeRecord y r s).recordsLeft .l1 < s.recordsLeft .l0 + s.recordsLeft .l1 := by
  obtain ⟨rest, hring⟩ := ring_of_nextTaking h
  have hpop : Preserves s (popRing y s) := Takings.preserves (.single (.pop y))
  have hrest : Takings (popRing y s) (takeRecord y r s) :=
    (handRecord_takings ..).trans ((processInserted_acts ..).takings.trans (endIfDone_acts ..).takings)
  have hle := fun z => hrest.recordsLeft_le (hpop.store hs) (hpop.bindings hs hb) z
  have hpositive : 1 ≤ s.recordsLeft y := by
    unfold State.recordsLeft
    dsimp only
    rw [hring, List.length_cons]
    omega
  have hlen : (s.layer y).ring.length = rest.length + 1 := by rw [hring, List.length_cons]
  have h0 := hle .l0
  have h1 := hle .l1
  rw [popRing_recordsLeft] at h0 h1
  cases y
  · rw [if_pos rfl, hlen] at h0
    rw [if_neg (by decide)] at h1
    omega
  · rw [if_neg (by decide)] at h0
    rw [if_pos rfl, hlen] at h1
    omega

theorem nextTaking_takeLoop (fuel : Nat) : ∀ s : State, StoreSound s → BindingsAgree s →
    s.recordsLeft .l0 + s.recordsLeft .l1 ≤ fuel → nextTaking (takeLoop fuel s) = none := by
  induction fuel with
  | zero =>
    intro s _ _ hle
    have heq : takeLoop 0 s = s := rfl
    rw [heq]
    refine nextTaking_of_none_ready fun y => readyRecord_of_ring_nil ?_
    have hy : s.recordsLeft y = 0 := by
      cases y
      · omega
      · omega
    refine List.length_eq_zero_iff.mp ?_
    unfold State.recordsLeft at hy
    dsimp only at hy
    omega
  | succ fuel ih =>
    intro s hs hb hle
    cases hnext : nextTaking s with
    | none =>
      have heq : takeLoop (fuel + 1) s = s := by simp [takeLoop, hnext]
      rw [heq]
      exact hnext
    | some yr =>
      obtain ⟨y, r⟩ := yr
      have heq : takeLoop (fuel + 1) s = takeLoop fuel (takeRecord y r s) := by simp [takeLoop, hnext]
      have hlt := takeRecord_recordsLeft hs hb hnext
      have hp : Preserves s (takeRecord y r s) := Takings.preserves (takeRecord_takings ..)
      rw [heq]
      exact ih _ (hp.store hs) (hp.bindings hs hb) (by omega)

/-- Nothing is left ready (R111). -/
theorem nextTaking_takeAll {s : State} (hs : StoreSound s) (hb : BindingsAgree s) : nextTaking (takeAll s) = none :=
  nextTaking_takeLoop _ s hs hb (Nat.le_refl _)

theorem nextTaking_instantWork (r : PedalReadings) (order : List Phase) (kind : InstantKind) (frame : Option Nat) {s : State}
    (hs : StoreSound s) (hb : BindingsAgree s) : nextTaking (instantWork r order kind frame s) = none := by
  have hp : Preserves s ((phaseOrder order).foldl (phaseWork r kind frame) s) :=
    .foldl (fun s p => phaseWork_preserves r kind frame s p) _ s
  exact nextTaking_takeAll (hp.store hs) (hp.bindings hs hb)

/-- The front record of a layer in replay that is not ready comes after the horizon or finds no room (R109). -/
theorem not_ready {s : State} {y : LayerId} {front : Record} {rest : List Record} (hr : s.clk.state = .running)
    (h : readyRecord y s = none) (hring : (s.layer y).ring = front :: rest)
    (hreplay : (s.layer y).state = .cued ∨ (s.layer y).state = .playing) (hend : (s.layer y).endFetched = false) :
    (s.clk.position : Int) + 4400 < ((s.layer y).origin.getD 0 : Int) +
        ((front.time.toNat : Int) - (s.layer y).cue.getD 0) + (s.layer y).latched.timeOffset ∨
      128 < s.sched.plan.length +
        (if front.kind = 1 then 2 else if front.kind = 6 then max 1 (s.keysHeld y).length else 1) := by
  have hneed : recordNeed y front s =
      if front.kind = 1 then 2 else if front.kind = 6 then max 1 (s.keysHeld y).length else 1 := by
    have h1 : front.kind.toNat = 1 ↔ front.kind = 1 :=
      ⟨fun e => BitVec.eq_of_toNat_eq e, fun e => by rw [e]; rfl⟩
    have h6 : front.kind.toNat = 6 ↔ front.kind = 6 :=
      ⟨fun e => BitVec.eq_of_toNat_eq e, fun e => by rw [e]; rfl⟩
    simp only [recordNeed, kindStrike, kindEnd, h1, h6]
  rw [← hneed]
  by_contra hc
  rw [not_or, not_lt, not_lt] at hc
  unfold readyRecord at h
  dsimp only at h
  rw [hring] at h
  dsimp only at h
  rw [if_pos ⟨hreplay, by simp [hend], by simp [State.running, hr], hc.1, hc.2⟩] at h
  cases h

end Sys2Proof.Machine
end

section
/-! SUPPORT. A clock advance: one due action alone, the stop at the limit, and the advance as R40, R41, R46 and R50 have it. -/

namespace Sys2Proof.Machine

open Relation (ReflTransGen)

/-! ### One due action alone -/

/-- Nothing captured, no layer CUED, no settings staged, no record in a ring. -/
def State.Calm (s : State) : Prop :=
  s.cap.state = .idle ∧ ∀ y, (s.layer y).state ≠ .cued ∧ (s.layer y).staged = none ∧ (s.layer y).ring = []

theorem State.Calm.act {s t : State} (h : s.Calm) (g : Act s t) : t.Calm := by
  obtain ⟨hcap, hlayers⟩ := h
  have hcalm {t : State} (hc : t.cap.state = s.cap.state) (h0 : t.layer0 = s.layer0) (h1 : t.layer1 = s.layer1) : t.Calm :=
    ⟨hc.trans hcap, fun y => by rw [layer_eq_of_fields h0 h1]; exact hlayers y⟩
  cases g with
  | append hrec => exact nomatch hcap.symm.trans hrec
  | close time hrec => exact nomatch hcap.symm.trans hrec
  | layer y l hl =>
    refine ⟨by simpa using hcap, fun z => ?_⟩
    by_cases hz : z = y
    · subst hz
      obtain ⟨hcued, hstaged, hring⟩ := hlayers z
      rw [layer_setLayer_same]
      refine ⟨fun e => ?_, hl.staged.trans hstaged, hl.ring.trans hring⟩
      obtain h | ⟨-, h⟩ := hl.state
      · exact hcued (h.symm.trans e)
      · exact nomatch h.symm.trans e
    · rw [layer_setLayer_other _ _ hz]
      exact hlayers z
  | _ => exact hcalm rfl rfl rfl

theorem State.Calm.acts {s t : State} (h : s.Calm) (g : Acts s t) : t.Calm := by
  induction g with
  | refl => exact h
  | tail _ g ih => exact ih.act g

theorem takeAll_of_calm {s : State} (h : s.Calm) : takeAll s = s :=
  takeAll_of_nextTaking_none (nextTaking_of_none_ready fun y => readyRecord_of_ring_nil (h.2 y).2.2)

theorem phaseWork_of_calm {r : PedalReadings} {kind : InstantKind} {frame : Option Nat} {s : State} (h : s.Calm) {p : Phase}
    (hp : p ≠ .schedule) : phaseWork r kind frame s p = s := by
  cases p with
  | capture => exact capturePhase_of_idle h.1
  | latch y =>
    unfold phaseWork
    dsimp only
    split
    · exact latch_of_none (h.2 y).2.1
    · rfl
  | enter y => exact enterPlaying_of_not_cued (h.2 y).1
  | schedule => exact absurd rfl hp

theorem action_of_alone {s : State} {a : Action} (h : s.sched.plan = [a]) : s.action a.serial = some a :=
  action_of_mem (by rw [h]; exact List.mem_singleton_self a) (by simp [State.planSerials, h])

theorem judgeLateness_of_alone {s : State} {a : Action} (h : s.sched.plan = [a]) (ho : s.overdue a = false) :
    judgeLateness s = s := by
  have hserials : s.planSerials = [a.serial] := by simp [State.planSerials, h]
  rw [judgeLateness_eq, hserials]
  exact judgeOne_of_current (action_of_alone h) ho

/-- One due action with no strike before it is processed, a waiting strike where the report names it. -/
theorem processable_of_alone {s : State} {a : Action} (h : s.sched.plan = [a]) (hdue : a.due ≤ (s.clk.position : Int))
    {again : List Nat} (hagain : ∀ k v d f w, a.body = .strike k v d f (some w) → a.serial ∈ again) :
    processable again s a = true := by
  have hd : decide (a.due ≤ (s.clk.position : Int)) = true := decide_eq_true hdue
  have hfree : heldBehind a s = false := by
    unfold heldBehind
    split
    · rfl
    · simp [h]
  cases hb : a.body with
  | strike k v d f w =>
    cases w with
    | none => simp [processable, hd, hb, Action.wait]
    | some w => simp [processable, hd, hb, hagain k v d f w hb]
  | depress k d => simp [processable, hd, hb, hfree]
  | release k auto => simp [processable, hd, hb, hfree]
  | pedal p v => simp [processable, hd, hb]

/-- The processing of one action alone is its carrying out. -/
theorem processDue_of_alone {named : Key → Bool} {s : State} {a : Action} (h : s.sched.plan = [a])
    (hr : s.clk.state = .running) (hp : processable (reoffers named s) s a = true) : processDue named s = carryOut a s := by
  have heq : processDue named s = processLoop (3 + 1) (reoffers named s) [a.serial] s := by
    simp [processDue, State.running, hr, State.planSerials, h]
  have ha := action_of_alone h
  rw [heq]
  by_cases hc : ∀ k, ((carryOut a s).driveKey k).state = (s.driveKey k).state
  · rw [processLoop_quiet ha hp hc, processLoop_nil]
  · obtain ⟨k, hk⟩ := not_forall.mp hc
    have hlt := carryOut_shrinks ha hk
    rw [h, List.length_singleton, Nat.lt_one_iff, List.length_eq_zero_iff] at hlt
    have hserials : (carryOut a s).planSerials = [] := by rw [State.planSerials, hlt, List.map_nil]
    rw [processLoop_restart ha hp hk, hserials, processLoop_nil]

/-- A waiting strike alone, none in the wait queue, is offered again where its key is named. -/
theorem mem_reoffers_of_alone {named : Key → Bool} {s : State} {a : Action} {k : Key} {v d f : Nat} {w : WaitReason}
    (h : s.sched.plan = [a]) (hb : a.body = .strike k v d f (some w)) (hw : w = .slot → a.serial ∉ s.drive.queue)
    (hn : named k = true) : a.serial ∈ reoffers named s := by
  refine mem_reoffers.mpr ⟨a, by rw [h]; exact List.mem_singleton_self a, rfl, ?_, k, by rw [Action.strikeKey?, hb], hn⟩
  have hwait : a.wait = some w := by rw [Action.wait, hb]
  unfold reofferable
  rw [hwait]
  cases w with
  | slot => exact decide_eq_true (hw rfl)
  | _ => rfl

/-- The instant of an advance with one due action, not overdue, and nothing else to do: the action carried out (R117). -/
theorem instantWork_of_alone {r : PedalReadings} {order : List Phase} {frame : Option Nat} {s : State} {a : Action}
    (h : s.sched.plan = [a]) (hr : s.clk.state = .running) (hdue : a.due ≤ (s.clk.position : Int))
    (hq : s.drive.queue = []) (hcalm : s.Calm) (ho : s.overdue a = false) :
    instantWork r order .advance frame s = carryOut a s := by
  have hmem : a ∈ s.sched.plan := by rw [h]; exact List.mem_singleton_self a
  have hafter : (carryOut a s).Calm := hcalm.acts (carryOut_acts hmem)
  refine instantWork_establishes (P := fun t => t = s) (Q := fun t => t = carryOut a s) .schedule
    (fun t p hp ht => ?_) (fun t ht => ?_) (fun t p hp ht => ?_) (fun t ht => ?_) rfl
  · rw [ht]; exact phaseWork_of_calm hcalm hp
  · subst ht
    have hp : processable (reoffers (fun _ => true) t) t a = true := processable_of_alone h hdue fun k v d f w hb =>
      mem_reoffers_of_alone h hb (fun _ => by rw [hq]; exact List.not_mem_nil) rfl
    have hphase : phaseWork r .advance frame t .schedule = takeAll (processDue (fun _ => true) (judgeLateness t)) := rfl
    rw [hphase, judgeLateness_of_alone h ho, processDue_of_alone h hr hp, takeAll_of_calm hafter]
  · rw [ht]; exact phaseWork_of_calm hafter hp
  · rw [ht]; exact takeAll_of_calm hafter

/-! ### The stop of the clock (R44) -/

theorem stopLayer_sched (y : LayerId) (s : State) : (stopLayer y s).sched = s.sched := by
  unfold stopLayer
  dsimp only
  split
  · split
    · exact (dropDemands_outputs ..).sched.trans (by simp)
    · exact (dropDemands_outputs ..).sched.trans (by simp)
  · rfl

theorem closeCapture_sched (time : Nat) (s : State) : (closeCapture time s).sched = s.sched := by
  unfold closeCapture
  split <;> rfl

theorem closeCapture_state (time : Nat) (s : State) : (closeCapture time s).cap.state = .idle := by
  unfold closeCapture
  split <;> rfl

/-- After a stop the plan is empty and the capture unit IDLE. -/
theorem stopWork_clears (b : Bool) (s : State) : (stopWork b s).sched.plan = [] ∧ (stopWork b s).cap.state = .idle := by
  unfold stopWork
  dsimp only
  generalize (if b = true then latchBoth s else s) = u
  have hplan : (letGoReported (fun _ => true) (clearPlan u)).sched.plan = [] :=
    List.length_eq_zero_iff.mp (Nat.le_zero.mp (letGoReported_acts (fun _ => true) (clearPlan u)).planLeft.length_le)
  have hlayers : (stopLayer .l1 (stopLayer .l0 (dropLastFires (letGoReported (fun _ => true) (clearPlan u))))).sched.plan = [] := by
    rw [stopLayer_sched, stopLayer_sched]
    exact hplan
  generalize stopLayer .l1 (stopLayer .l0 (dropLastFires (letGoReported (fun _ => true) (clearPlan u)))) = v at hlayers
  split
  · next hidle => exact ⟨hlayers, hidle⟩
  · exact ⟨(congrArg Scheduler.plan (closeCapture_sched ..)).trans hlayers, closeCapture_state ..⟩

/-! ### The clock's own values (R40, R50) -/

theorem advanced_withheld {c : Clock} (h : (c.position + 1) % 200 = 0 ∧ c.owed < 0 ∧ c.withheld = false) :
    c.advanced =
      { clk := { c with owed := c.owed + 1, withheld := true, nextAdvance := c.nextAdvance + 50 }
        frame := none, moved := false } := by
  obtain ⟨hedge, howed, hwith⟩ := h
  unfold Clock.advanced
  dsimp only
  rw [if_pos ⟨onBoundary_iff.mpr hedge, howed, by simp [hwith]⟩]

/-- The position after an advance that moves it, one or two ticks on (R40, R50). -/
theorem advanced_moving {c : Clock} (h : ¬ ((c.position + 1) % 200 = 0 ∧ c.owed < 0 ∧ c.withheld = false))
    (hlimit : c.position < 2147483647) :
    c.advanced =
      { clk := { c with
          position := if (c.position + 1) % 200 = 0 ∧ 0 < c.owed ∧ c.withheld = false then c.position + 2 else c.position + 1
          owed := if (c.position + 1) % 200 = 0 ∧ 0 < c.owed ∧ c.withheld = false then c.owed - 1 else c.owed
          withheld := false, nextAdvance := c.nextAdvance + 50 }
        frame := if (c.position + 1) % 200 = 0 then some (c.position + 1) else none, moved := true } := by
  have hskip : (onBoundary (c.position + 1) && decide (0 < c.owed) && !c.withheld) = true ↔
      (c.position + 1) % 200 = 0 ∧ 0 < c.owed ∧ c.withheld = false := by
    simp only [Bool.and_eq_true, onBoundary_iff, decide_eq_true_eq, Bool.not_eq_true', and_assoc]
  have hmin : min Config.clockLimit
      (if (c.position + 1) % 200 = 0 ∧ 0 < c.owed ∧ c.withheld = false then c.position + 2 else c.position + 1) =
      if (c.position + 1) % 200 = 0 ∧ 0 < c.owed ∧ c.withheld = false then c.position + 2 else c.position + 1 := by
    refine Nat.min_eq_right ?_
    unfold Config.clockLimit
    split
    · next hedge =>
      have := hedge.1
      omega
    · omega
  unfold Clock.advanced
  dsimp only
  rw [if_neg (fun hw => h ⟨onBoundary_iff.mp hw.1, hw.2.1, by simpa using hw.2.2⟩)]
  simp only [hskip, onBoundary_iff, hmin]

/-! ### The advance -/

theorem advanceClock_due {r : PedalReadings} {order : List Phase} {s : State} (hr : s.clk.state = .running)
    (hn : s.clk.nextAdvance ≤ s.now) :
    advanceClock r order s =
      if !s.clk.advanced.moved then { s with clk := s.clk.advanced.clk }
      else if s.clk.advanced.clk.position = Config.clockLimit then
        raiseBoth .clockLimit (stopClock { s with clk := s.clk.advanced.clk })
      else instantWork r order .advance s.clk.advanced.frame { s with clk := s.clk.advanced.clk } := by
  unfold advanceClock
  rw [if_pos ⟨by simp [State.running, hr], hn⟩]

/-- What is due after an advance, as the advance has it: nothing that a processing acts on. -/
theorem settled_due {s t : State} (h : Settled s t) (hs : SerialsSound s) {a : Action} (ha : a ∈ t.sched.plan)
    (hdue : a.due ≤ (s.clk.position : Int)) :
    (∀ q v, a.body ≠ .pedal q v) ∧ (∀ k v d f, a.body ≠ .strike k v d f none) ∧
      (a ∈ s.sched.plan → ∀ k, (∃ auto, a.body = .release k auto) ∨ (∃ d, a.body = .depress k d) →
        ∃ b ∈ s.sched.plan, b.strikeKey? = some k ∧ b.layer = a.layer ∧ b.serial < a.serial) := by
  have hnot : ¬ a.Urgent s := fun hu => h.2 a ha ⟨by rw [h.1.clk]; exact hdue, hu⟩
  refine ⟨fun q v hb => hnot (.inl ⟨q, v, hb⟩), fun k v d f hb => hnot (.inr (.inl ⟨k, v, d, f, hb⟩)), fun hold k hbody => ?_⟩
  by_contra hnone
  refine hnot (.inr (.inr ⟨hs.2 a hold, k, hbody, fun b hb hk hl => ?_⟩))
  by_contra hlt
  exact hnone ⟨b, hb, hk, hl, Nat.lt_of_not_le hlt⟩

/-- The layers of a state with its clock replaced. -/
theorem layer_withClk (s : State) (c : Clock) (y : LayerId) : State.layer { s with clk := c } y = s.layer y := by
  cases y <;> rfl

/-- The instant's work of an advance, in any order, at the position the advance has reached (R17, R77, R82, R109 to R120). -/
theorem advanced_instant {r : PedalReadings} {order : List Phase} {frame : Option Nat} {s : State} {c : Clock}
    (hr : c.state = .running) (hframe : (s.clk.position + 1) % 200 = 0 → frame = some (s.clk.position + 1)) :
    let t := instantWork r order .advance frame { s with clk := c }
    t.clk = c ∧
      ((s.clk.position + 1) % 200 = 0 → ∀ n, s.cap.state = .paused → s.cap.target = some n → s.cap.origin = none →
        (t.store.entry n).origin = some (s.clk.position + 1)) ∧
      ((s.clk.position + 1) % 200 = 0 → ∀ y, (t.layer y).latched = ((s.layer y).staged).getD (s.layer y).latched ∧
        (t.layer y).staged = none) ∧
      (∀ y o, (s.layer y).state = .cued → (s.layer y).origin = some o → o ≤ c.position →
        (t.layer y).state = .playing ∨ (t.layer y).state = .ended) ∧
      (s.sched.plan = [] → s.cap.state = .idle →
        (∀ y, (s.layer y).state ≠ .cued ∧ (s.layer y).state ≠ .playing ∧ (s.layer y).staged = none) →
        t = { s with clk := c }) ∧
      (SerialsSound s →
        (∀ a ∈ s.sched.plan, a.wait.isSome = true → (s.sched.late : Int) < (c.position : Int) - a.due →
          ∀ b ∈ t.sched.plan, b.serial ≠ a.serial) ∧
        ∀ a ∈ t.sched.plan, a.due ≤ (c.position : Int) →
          (∀ q v, a.body ≠ .pedal q v) ∧ (∀ k v d f, a.body ≠ .strike k v d f none) ∧
          (a ∈ s.sched.plan → ∀ k, (∃ auto, a.body = .release k auto) ∨ (∃ d, a.body = .depress k d) →
            ∃ b ∈ s.sched.plan, b.strikeKey? = some k ∧ b.layer = a.layer ∧ b.serial < a.serial)) ∧
      (∀ a, s.sched.plan = [a] → a.due ≤ (c.position : Int) → s.drive.queue = [] → s.cap.state = .idle →
        (∀ y, (s.layer y).state ≠ .cued ∧ (s.layer y).staged = none ∧ (s.layer y).ring = []) →
        (a.wait.isSome = true → (c.position : Int) - a.due ≤ s.sched.late) → t = carryOut a { s with clk := c }) ∧
      (StoreSound s → BindingsAgree s → ∀ y front rest, (t.layer y).ring = front :: rest →
        (t.layer y).state = .cued ∨ (t.layer y).state = .playing → (t.layer y).endFetched = false →
        let time : Int := ((t.layer y).origin.getD 0 : Int) + ((front.time.toNat : Int) - (t.layer y).cue.getD 0) +
          (t.layer y).latched.timeOffset
        let need := if front.kind = 1 then 2 else if front.kind = 6 then max 1 (t.keysHeld y).length else 1
        (c.position : Int) + 4400 < time ∨ 128 < t.sched.plan.length + need) := by
  intro t
  have hclk : t.clk = c := (instantWork_keeps ..).clk
  have hlayer := layer_withClk s c
  refine ⟨hclk, fun hedge n hcap ht ho => ?_, fun hedge y => ?_, fun y o hcued ho hle => ?_, fun hplan hcap hstill => ?_,
    fun hs => ⟨fun a ha hw hlate => ?_, fun a ha hdue => ?_⟩, fun a hplan hdue hq hcap hlayers hlate => ?_,
    fun hst hb y front rest hring hreplay hend => ?_⟩
  · have hawait : AwaitsOrigin n { s with clk := c } := ⟨hcap, ht, ho⟩
    have horigin := hawait.instant (b := s.clk.position + 1) (r := r) (kind := .advance) (order := order)
    rw [← hframe hedge] at horigin
    exact horigin.1
  · have hlatch := instantWork_latches r order .advance (s.clk.position + 1) { s with clk := c } y
    rw [← hframe hedge, hlayer] at hlatch
    exact hlatch
  · exact instantWork_enters (by rw [hlayer]; exact hcued) (by rw [hlayer]; exact ho) hr hle
  · have hrest : State.Still { s with clk := c } := ⟨hplan, fun y => by rw [hlayer]; exact hstill y⟩
    exact hrest.instant hcap
  · have hover : State.overdue { s with clk := c } a = true := by
      rw [State.overdue, hw]
      exact decide_eq_true hlate
    exact (instantWork_drops_overdue r order frame (s := { s with clk := c }) hs ha hover).2
  · exact settled_due (s := { s with clk := c }) (instantWork_settles r order .advance frame hs hr) hs ha hdue
  · have hcalm : State.Calm { s with clk := c } := ⟨hcap, fun y => by rw [hlayer]; exact hlayers y⟩
    have hover : State.overdue { s with clk := c } a = false := by
      rw [State.overdue, Bool.and_eq_false_iff]
      cases hw : a.wait.isSome with
      | false => exact .inl rfl
      | true => exact .inr (decide_eq_false (not_lt.mpr (hlate hw)))
    exact instantWork_of_alone hplan hr hdue hq hcalm hover
  · have hnone : nextTaking t = none := nextTaking_instantWork r order .advance frame (s := { s with clk := c }) hst hb
    have hready := not_ready (by rw [hclk]; exact hr) (nextTaking_eq_none hnone y) hring hreplay hend
    rw [hclk] at hready
    exact hready

/-- Settles O34: the advance withheld, onto the limit, and onto any other position with the instant's work in any order. -/
theorem clockAdvanceMovesThePosition : Obligations.ClockAdvanceMovesThePosition := by
  intro r order s hr hn hlimit p edge
  have hexec : exec (.clockAdvance r order) s = .next (advanceClock r order s) := rfl
  rw [hexec, advanceClock_due hr hn]
  refine ⟨fun hw => ?_, ?_⟩
  · rw [advanced_withheld hw]
    rfl
  · intro hw skip c
    have hadv : s.clk.advanced =
        { clk := c, frame := if (s.clk.position + 1) % 200 = 0 then some (s.clk.position + 1) else none, moved := true } :=
      advanced_moving hw hlimit
    rw [hadv]
    have hstate : c.state = .running := hr
    clear_value c
    refine ⟨_, rfl, fun hend => ?_, fun hend => ?_⟩
    · rw [if_neg (by simp), if_pos hend]
      obtain ⟨hplan, hidle⟩ := stopWork_clears true { s with clk := { c with state := .stopped, owed := 0 } }
      have hstop : stopClock { s with clk := c } = stopWork true { s with clk := { c with state := .stopped, owed := 0 } } := by
        rw [stopClock_eq]
        simp [State.running, hstate]
      refine ⟨?_, ?_, ?_, noticed_raiseBoth .clockLimit _⟩
      · rw [raiseBoth_clk, stopClock_clk]
      · rw [raiseBoth_sched, hstop]; exact hplan
      · rw [raiseBoth_cap, hstop]; exact hidle
    · rw [if_neg (by simp), if_neg hend]
      exact advanced_instant hstate fun hedge => if_pos hedge

end Sys2Proof.Machine
end

section
/-! SUPPORT. A key sample in every state: the positions and thresholds it hands on, what it keeps of every other key, and the pulse
it withdraws (R1, R2, R153). -/

namespace Sys2Proof.Machine

open Relation (ReflTransGen)

/-! ### What acts keep of the drive unit and the capture unit -/

theorem Act.keeps {s t : State} (h : Act s t) : Keeps s t := by
  cases h with
  | close time hrec => exact closeCapture_keeps time s
  | layer y l h => exact .setLayer ..
  | notice n => exact .raiseBoth ..
  | wait w a hmem hk htold => exact waitStrike_keeps w a s
  | _ => exact .inner ..

theorem Act.drive {s t : State} (h : Act s t) :
    t.drive = { s.drive with keys := t.drive.keys, pedals := t.drive.pedals, queue := t.drive.queue } := by
  cases h with
  | close time hrec => unfold closeCapture; split <;> rfl
  | layer y l h => rw [setLayer_drive]
  | wait w a hmem hk htold => rw [waitStrike_eq]
  | _ => rfl

theorem Act.thresholds {s t : State} (h : Act s t) :
    t.cap.release = s.cap.release ∧ t.cap.repetition = s.cap.repetition := by
  cases h with
  | close time hrec => unfold closeCapture; split <;> exact ⟨rfl, rfl⟩
  | layer y l h => rw [setLayer_cap]; exact ⟨rfl, rfl⟩
  | _ => exact ⟨rfl, rfl⟩

/-- What an act keeps of a key's record at the capture unit and at the drive unit: its last sample, and that it comes to REST no
more. -/
theorem Act.key {s t : State} (h : Act s t) (j : Key) :
    ((t.capKey j).lastPos = (s.capKey j).lastPos ∧ (t.capKey j).releaseAt = (s.capKey j).releaseAt) ∧
      ((t.driveKey j).lastPos = (s.driveKey j).lastPos ∧ (t.driveKey j).repetitionAt = (s.driveKey j).repetitionAt) ∧
      ((t.driveKey j).state = .rest → (s.driveKey j).state = .rest ∧ (t.driveKey j).lastFire = (s.driveKey j).lastFire) := by
  have hsame {t : State} (hc : t.cap.keys = s.cap.keys) (hd : t.drive.keys = s.drive.keys) :
      ((t.capKey j).lastPos = (s.capKey j).lastPos ∧ (t.capKey j).releaseAt = (s.capKey j).releaseAt) ∧
      ((t.driveKey j).lastPos = (s.driveKey j).lastPos ∧ (t.driveKey j).repetitionAt = (s.driveKey j).repetitionAt) ∧
      ((t.driveKey j).state = .rest → (s.driveKey j).state = .rest ∧ (t.driveKey j).lastFire = (s.driveKey j).lastFire) := by
    have hck : t.capKey j = s.capKey j := by rw [State.capKey, State.capKey, hc]
    have hdk : t.driveKey j = s.driveKey j := by rw [State.driveKey, State.driveKey, hd]
    rw [hck, hdk]
    exact ⟨⟨rfl, rfl⟩, ⟨rfl, rfl⟩, fun h => ⟨h, rfl⟩⟩
  cases h with
  | close time hrec => unfold closeCapture; split <;> exact hsame rfl rfl
  | layer y l h => exact hsame (by rw [setLayer_cap]) (by rw [setLayer_drive])
  | capKey k c hp hr =>
    refine ⟨?_, ⟨rfl, rfl⟩, fun h => ⟨h, rfl⟩⟩
    by_cases hj : j = k
    · subst hj; rw [capKey_setCapKey_same]; exact ⟨hp, hr⟩
    · rw [capKey_setCapKey_other _ _ hj]; exact ⟨rfl, rfl⟩
  | driveKey k d hp hr hrest =>
    refine ⟨⟨rfl, rfl⟩, ?_⟩
    by_cases hj : j = k
    · subst hj; rw [driveKey_setDriveKey_same]; exact ⟨⟨hp, hr⟩, hrest⟩
    · rw [driveKey_setDriveKey_other _ _ hj]; exact ⟨⟨rfl, rfl⟩, fun h => ⟨h, rfl⟩⟩
  | wait w a hmem hk htold => rw [waitStrike_eq]; exact hsame rfl rfl
  | _ => exact hsame rfl rfl

/-! ### What a sample keeps -/

/-- `t` is `s` but for samples of keys outside `K`: the instants, the clock, the map, the thresholds, ACTIVE, a run under way, and
of the keys in `K` the last sample, with no key of them come to REST. -/
structure SampleKept (K : Key → Prop) (s t : State) : Prop where
  pending    : t.pending = s.pending
  wall       : t.wall = s.wall
  clk        : t.clk = s.clk
  map        : t.map = s.map
  thresholds : t.cap.release = s.cap.release ∧ t.cap.repetition = s.cap.repetition
  capture    : ∀ j, K j → (t.capKey j).lastPos = (s.capKey j).lastPos ∧ (t.capKey j).releaseAt = (s.capKey j).releaseAt
  drive      : ∀ j, K j →
    (t.driveKey j).lastPos = (s.driveKey j).lastPos ∧ (t.driveKey j).repetitionAt = (s.driveKey j).repetitionAt
  rests      : ∀ j, K j → (t.driveKey j).state = .rest →
    (s.driveKey j).state = .rest ∧ (t.driveKey j).lastFire = (s.driveKey j).lastFire
  power      : s.drive.power = .active → t.drive.power = .active
  run        : s.run.state = .running → t.run = s.run ∧ t.drive.pulse = s.drive.pulse

theorem SampleKept.refl (K : Key → Prop) (s : State) : SampleKept K s s :=
  ⟨rfl, rfl, rfl, rfl, ⟨rfl, rfl⟩, fun _ _ => ⟨rfl, rfl⟩, fun _ _ => ⟨rfl, rfl⟩, fun _ _ h => ⟨h, rfl⟩, id,
    fun _ => ⟨rfl, rfl⟩⟩

theorem SampleKept.trans {K : Key → Prop} {s t u : State} (h : SampleKept K s t) (g : SampleKept K t u) : SampleKept K s u where
  pending := g.pending.trans h.pending
  wall := g.wall.trans h.wall
  clk := g.clk.trans h.clk
  map := g.map.trans h.map
  thresholds := ⟨g.thresholds.1.trans h.thresholds.1, g.thresholds.2.trans h.thresholds.2⟩
  capture j hj := ⟨(g.capture j hj).1.trans (h.capture j hj).1, (g.capture j hj).2.trans (h.capture j hj).2⟩
  drive j hj := ⟨(g.drive j hj).1.trans (h.drive j hj).1, (g.drive j hj).2.trans (h.drive j hj).2⟩
  rests j hj hu :=
    have ht := g.rests j hj hu
    have hs := h.rests j hj ht.1
    ⟨hs.1, ht.2.trans hs.2⟩
  power hp := g.power (h.power hp)
  run hr :=
    have ht := h.run hr
    have hu := g.run (by rw [ht.1]; exact hr)
    ⟨hu.1.trans ht.1, hu.2.trans ht.2⟩

theorem SampleKept.mono {K L : Key → Prop} {s t : State} (h : SampleKept K s t) (hl : ∀ j, L j → K j) : SampleKept L s t :=
  { h with
    capture := fun j hj => h.capture j (hl j hj)
    drive := fun j hj => h.drive j (hl j hj)
    rests := fun j hj => h.rests j (hl j hj) }

theorem Act.sampleKept {s t : State} (h : Act s t) : SampleKept (fun _ => True) s t where
  pending := h.keeps.pending
  wall := h.keeps.wall
  clk := h.keeps.clk
  map := h.keeps.map
  thresholds := h.thresholds
  capture j _ := (h.key j).1
  drive j _ := (h.key j).2.1
  rests j _ := (h.key j).2.2
  power hp := by rw [h.drive]; exact hp
  run _ := ⟨h.keeps.run, by rw [h.drive]⟩

theorem Acts.sampleKept {s t : State} (h : Acts s t) : SampleKept (fun _ => True) s t := by
  induction h with
  | refl => exact .refl _ s
  | tail _ g ih => exact ih.trans g.sampleKept

theorem sampleKept_sched (K : Key → Prop) (s : State) (sched : Scheduler) : SampleKept K s { s with sched := sched } :=
  ⟨rfl, rfl, rfl, rfl, ⟨rfl, rfl⟩, fun _ _ => ⟨rfl, rfl⟩, fun _ _ => ⟨rfl, rfl⟩, fun _ _ h => ⟨h, rfl⟩, id, fun _ => ⟨rfl, rfl⟩⟩

/-- A taking's act keeps the same. -/
theorem Taking.sampleKept {s t : State} (h : Taking s t) : SampleKept (fun _ => True) s t := by
  cases h with
  | act h => exact h.sampleKept
  | fetched y =>
    refine ⟨by simp, by simp, by simp, by simp, by simp, fun j _ => by simp, fun j _ => by simp, fun j _ hj => ?_, fun hp => ?_,
      fun _ => by simp⟩
    · rw [driveKey_setLayer] at hj ⊢; exact ⟨hj, rfl⟩
    · rw [setLayer_drive]; exact hp
  | pop y =>
    obtain ⟨hc, hst, hsc, hd⟩ := popRing_frame y s
    have hk := popRing_keeps y s
    have hdk (j : Key) : (popRing y s).driveKey j = s.driveKey j := by rw [State.driveKey, State.driveKey, hd]
    refine ⟨hk.pending, hk.wall, hk.clk, hk.map, by rw [hc]; exact ⟨rfl, rfl⟩, fun j _ => ?_, fun j _ => ?_, fun j _ hj => ?_,
      fun hp => by rw [hd]; exact hp, fun _ => ⟨hk.run, by rw [hd]⟩⟩
    · rw [State.capKey, hc]; exact ⟨rfl, rfl⟩
    · rw [hdk]; exact ⟨rfl, rfl⟩
    · rw [hdk] at hj ⊢; exact ⟨hj, rfl⟩
  | memory k m => exact sampleKept_sched ..
  | insert => exact sampleKept_sched ..

theorem Takings.sampleKept {s t : State} (h : Takings s t) : SampleKept (fun _ => True) s t := by
  induction h with
  | refl => exact .refl _ s
  | tail _ g ih => exact ih.trans g.sampleKept

/-- What keeps the whole of a state's keys keeps those outside one. -/
theorem SampleKept.aside {s t : State} (h : SampleKept (fun _ => True) s t) (k : Key) : SampleKept (fun j => j ≠ k) s t :=
  h.mono fun _ _ => trivial

theorem sampleKept_setCapKey (s : State) (k : Key) (c : CapKey) : SampleKept (fun j => j ≠ k) s (s.setCapKey k c) :=
  ⟨rfl, rfl, rfl, rfl, ⟨rfl, rfl⟩, fun _ hj => by rw [capKey_setCapKey_other _ _ hj]; exact ⟨rfl, rfl⟩, fun _ _ => ⟨rfl, rfl⟩,
    fun _ _ h => ⟨h, rfl⟩, id, fun _ => ⟨rfl, rfl⟩⟩

theorem sampleKept_setDriveKey (s : State) (k : Key) (d : DriveKey) : SampleKept (fun j => j ≠ k) s (s.setDriveKey k d) :=
  ⟨rfl, rfl, rfl, rfl, ⟨rfl, rfl⟩, fun _ _ => ⟨rfl, rfl⟩, fun _ hj => by rw [driveKey_setDriveKey_other _ _ hj]; exact ⟨rfl, rfl⟩,
    fun _ hj h => by rw [driveKey_setDriveKey_other _ _ hj] at h ⊢; exact ⟨h, rfl⟩, id, fun _ => ⟨rfl, rfl⟩⟩

/-! ### The capture unit's part of a sample (R9) -/

/-- A key's capture record with a sample and the release threshold it is judged by. -/
def CapKey.sampledAt (c : CapKey) (p : KeyPos) (release : Nat) : CapKey := { c with lastPos := p, releaseAt := release }

/-- The capture record a sample leaves, but for held: a key not driven that has risen is UP (R9). -/
def State.capSampled (s : State) (k : Key) (p : KeyPos) : CapKey :=
  { (s.capKey k) with
    lastPos := p, releaseAt := s.cap.release
    state := if (s.driveKey k).state = .rest ∧ (s.capKey k).state = .down ∧ p.val < s.cap.release then .up
      else (s.capKey k).state }

theorem capSampled_of_not_risen {s : State} {k : Key} {p : KeyPos}
    (h : ¬ ((s.driveKey k).state = .rest ∧ (s.capKey k).state = .down ∧ p.val < s.cap.release)) :
    s.capSampled k p = (s.capKey k).sampledAt p s.cap.release := by
  rw [State.capSampled, if_neg h]
  rfl

/-- The capture unit's part of a sample: the sample, and a RELEASE perhaps. -/
theorem captureSample_eq (k : Key) (p : KeyPos) (s : State) :
    captureSample k p s = s.setCapKey k (s.capSampled k p) ∨
      captureSample k p s = captureRelease k (s.setCapKey k (s.capSampled k p)) := by
  have howned : s.driveOwned k = true ↔ (s.driveKey k).state ≠ .rest := driveOwned_eq_true
  unfold captureSample
  dsimp only
  split
  · next h =>
    rw [capSampled_of_not_risen fun c => h.elim (fun o => howned.mp o c.1) fun o => Nat.not_lt.mpr o c.2.2]
    exact .inl rfl
  · next h =>
    rw [not_or] at h
    have hrest : (s.driveKey k).state = .rest := by_contra fun c => h.1 (howned.mpr c)
    split
    · next hc =>
      rw [capSampled_of_not_risen fun c => nomatch hc.symm.trans c.2.1]
      exact .inl rfl
    · next hc =>
      rw [capSampled_of_not_risen fun c => nomatch hc.symm.trans c.2.1]
      split
      · exact .inr rfl
      · exact .inl rfl
    · next hc =>
      have hup : s.capSampled k p = { (s.capKey k).sampledAt p s.cap.release with state := .up } := by
        rw [State.capSampled, if_pos ⟨hrest, hc, Nat.lt_of_not_le h.2⟩]
        rfl
      rw [hup, setCapKey_setCapKey]
      split
      · exact .inr rfl
      · exact .inl rfl

theorem captureSample_sampled (k : Key) (p : KeyPos) (s : State) :
    SampleKept (fun j => j ≠ k) s (captureSample k p s) ∧ ((captureSample k p s).capKey k).lastPos = p ∧
      ((captureSample k p s).capKey k).releaseAt = s.cap.release := by
  have h := captureSample_eq k p s
  generalize hc : s.capSampled k p = c at h
  have hset := sampleKept_setCapKey s k c
  have hpos : ((s.setCapKey k c).capKey k).lastPos = p ∧ ((s.setCapKey k c).capKey k).releaseAt = s.cap.release := by
    rw [capKey_setCapKey_same, ← hc]; exact ⟨rfl, rfl⟩
  obtain h | h := h <;> rw [h]
  · exact ⟨hset, hpos⟩
  · have hrel := (captureRelease_acts k (s.setCapKey k c)).sampleKept
    obtain ⟨hl, hr⟩ := hrel.capture k trivial
    exact ⟨hset.trans (hrel.aside k), hl.trans hpos.1, hr.trans hpos.2⟩

theorem captureSample_only (k : Key) (p : KeyPos) (s : State) : CaptureOnly s (captureSample k p s) := by
  have hrelease (s : State) : CaptureOnly s (captureRelease k s) := by
    unfold captureRelease
    split
    · exact (CaptureOnly.setCapKey ..).trans (captureWrite_only ..)
    · exact ⟨rfl, rfl, rfl, rfl, .refl s⟩
  obtain h | h := captureSample_eq k p s <;> rw [h]
  · exact .setCapKey ..
  · exact (CaptureOnly.setCapKey ..).trans (hrelease _)

/-! ### The drive unit's part of a sample (R130, R139) -/

theorem sampled_touched {d : DriveKey} {p : KeyPos} {n : Nat} : (d.sampled p n).touched = true ↔ n ≤ p.val := by
  exact decide_eq_true_iff

/-- The drive unit's part of a sample, by the key's drive state: a key in LETGO that has risen to REST, a key in REST reported where
it passes the threshold, and the sample alone. -/
theorem driveSample_cases (k : Key) (p : KeyPos) (s : State) :
    ((s.driveKey k).state = .letgo ∧ p.val < s.cap.repetition ∧
        driveSample k p s =
          endStopping k (settleRest k (s.setDriveKey k ((s.driveKey k).sampled p s.cap.repetition)))) ∨
      ((s.driveKey k).state = .rest ∧ ((s.driveKey k).touched = true ↔ ¬ s.cap.repetition ≤ p.val) ∧
        driveSample k p s = reportKey k (s.setDriveKey k ((s.driveKey k).sampled p s.cap.repetition))) ∨
      (((s.driveKey k).state = .letgo → s.cap.repetition ≤ p.val) ∧
        ((s.driveKey k).state = .rest → ((s.driveKey k).touched = true ↔ s.cap.repetition ≤ p.val)) ∧
        driveSample k p s = s.setDriveKey k ((s.driveKey k).sampled p s.cap.repetition)) := by
  have htouched := sampled_touched (d := s.driveKey k) (p := p) (n := s.cap.repetition)
  unfold driveSample
  dsimp only
  split
  · next hletgo =>
    split
    · next h => exact .inr (.inr ⟨fun _ => htouched.mp h, fun e => (by rw [hletgo] at e; cases e), rfl⟩)
    · next h => exact .inl ⟨hletgo, Nat.lt_of_not_le fun c => h (htouched.mpr c), rfl⟩
  · next hrest =>
    split
    · next h =>
      exact .inr (.inr ⟨fun e => (by rw [hrest] at e; cases e), fun _ => by rw [← htouched, h], rfl⟩)
    · next h =>
      refine .inr (.inl ⟨hrest, ?_, rfl⟩)
      rw [← htouched, Bool.eq_not.mpr h]
      simp
  · next hl hr => exact .inr (.inr ⟨fun e => absurd e hl, fun e => absurd e hr, rfl⟩)

theorem finishRun_only (s : State) :
    (finishRun s).pending = s.pending ∧ (finishRun s).wall = s.wall ∧ (finishRun s).clk = s.clk ∧ (finishRun s).map = s.map ∧
      (finishRun s).cap = s.cap ∧ (finishRun s).drive = s.drive ∧ (finishRun s).sched = s.sched ∧
      (∀ y, (finishRun s).layer y = s.layer y) := by
  rw [finishRun_of_failed]
  dsimp only
  split
  · exact ⟨rfl, rfl, rfl, rfl, rfl, rfl, rfl, fun y => by cases y <;> rfl⟩
  · exact ⟨rfl, rfl, rfl, rfl, rfl, rfl, rfl, fun y => by cases y <;> rfl⟩

theorem endStopping_cases (k : Key) (s : State) :
    endStopping k s = s ∨ s.run.state = .stopping ∧ endStopping k s = finishRun s := by
  unfold endStopping
  split
  · next h => exact .inr ⟨h.1, rfl⟩
  · exact .inl rfl

theorem sampleKept_endStopping (K : Key → Prop) (k : Key) (s : State) : SampleKept K s (endStopping k s) := by
  obtain h | ⟨hs, h⟩ := endStopping_cases k s <;> rw [h]
  · exact .refl K s
  · obtain ⟨hp, hw, hc, hm, hcap, hd, -, -⟩ := finishRun_only s
    have hdk (j : Key) : (finishRun s).driveKey j = s.driveKey j := by rw [State.driveKey, State.driveKey, hd]
    refine ⟨hp, hw, hc, hm, by rw [hcap]; exact ⟨rfl, rfl⟩, fun j _ => ?_, fun j _ => ?_, fun j _ hj => ?_,
      fun hpow => by rw [hd]; exact hpow, fun hr => nomatch hs.symm.trans hr⟩
    · rw [State.capKey, hcap]; exact ⟨rfl, rfl⟩
    · rw [hdk]; exact ⟨rfl, rfl⟩
    · rw [hdk] at hj ⊢; exact ⟨hj, rfl⟩

theorem sampleKept_quietIfAtRest (K : Key → Prop) (s : State) : SampleKept K s (quietIfAtRest s) := by
  by_cases h : s.drive.power = .quietPending ∧ s.allRest = true
  · rw [quietIfAtRest_of_rest h]
    exact ⟨rfl, rfl, rfl, rfl, ⟨rfl, rfl⟩, fun _ _ => ⟨rfl, rfl⟩, fun _ _ => ⟨rfl, rfl⟩, fun _ _ h => ⟨h, rfl⟩,
      fun hp => (by rw [h.1] at hp; cases hp), fun _ => ⟨rfl, rfl⟩⟩
  · rw [quietIfAtRest_of_driven h]
    exact .refl K s

/-- A key back in REST: its record as `resting` has it, with the capture unit's part. -/
theorem enterRest_eq {k : Key} {s : State} (h : (s.driveKey k).state ≠ .rest) :
    enterRest k s = (s.setDriveKey k (s.driveKey k).resting).setCapKey k
      { (s.capKey k) with state := .up, gate1At := none, held := false } := putDriveKey_returning h rfl

theorem settleRest_eq (k : Key) (s : State) :
    settleRest k s = processDue (fun _ => true) (quietIfAtRest (enterRest k s)) ∨
      settleRest k s = reportKey k (quietIfAtRest (enterRest k s)) := by
  unfold settleRest
  dsimp only
  split
  · exact .inr rfl
  · exact .inl rfl

theorem settleRest_sampled {k : Key} {s : State} (h : (s.driveKey k).state ≠ .rest) :
    SampleKept (fun j => j ≠ k) s (settleRest k s) ∧ ((settleRest k s).capKey k).lastPos = (s.capKey k).lastPos ∧
      ((settleRest k s).capKey k).releaseAt = (s.capKey k).releaseAt ∧
      ((settleRest k s).driveKey k).lastPos = (s.driveKey k).lastPos ∧
      ((settleRest k s).driveKey k).repetitionAt = (s.driveKey k).repetitionAt := by
  have hacts : Acts (quietIfAtRest (enterRest k s)) (settleRest k s) := by
    obtain h | h := settleRest_eq k s <;> rw [h] <;> exact processDue_acts ..
  have hafter : SampleKept (fun _ => True) (enterRest k s) (settleRest k s) :=
    (sampleKept_quietIfAtRest _ _).trans hacts.sampleKept
  rw [enterRest_eq h] at hafter
  obtain ⟨hcl, hcr⟩ := hafter.capture k trivial
  obtain ⟨hdl, hdr⟩ := hafter.drive k trivial
  rw [capKey_setCapKey_same] at hcl hcr
  rw [driveKey_setCapKey, driveKey_setDriveKey_same] at hdl hdr
  exact ⟨((sampleKept_setDriveKey s k _).trans (sampleKept_setCapKey _ k _)).trans (hafter.aside k), hcl, hcr, hdl, hdr⟩

/-- The sample reaches the drive unit's record of its key, and keeps the capture unit's. -/
theorem driveSample_sampled (k : Key) (p : KeyPos) (s : State) :
    SampleKept (fun j => j ≠ k) s (driveSample k p s) ∧ ((driveSample k p s).capKey k).lastPos = (s.capKey k).lastPos ∧
      ((driveSample k p s).capKey k).releaseAt = (s.capKey k).releaseAt ∧ ((driveSample k p s).driveKey k).lastPos = p ∧
      ((driveSample k p s).driveKey k).repetitionAt = s.cap.repetition := by
  generalize hd : (s.driveKey k).sampled p s.cap.repetition = d
  have hset := sampleKept_setDriveKey s k d
  have hpos : ((s.setDriveKey k d).driveKey k).lastPos = p ∧
      ((s.setDriveKey k d).driveKey k).repetitionAt = s.cap.repetition := by
    rw [driveKey_setDriveKey_same, ← hd]; exact ⟨rfl, rfl⟩
  obtain ⟨hletgo, -, h⟩ | ⟨-, -, h⟩ | ⟨-, -, h⟩ := driveSample_cases k p s <;> rw [h, hd]
  · have hne : ((s.setDriveKey k d).driveKey k).state ≠ .rest := by
      rw [driveKey_setDriveKey_same, ← hd, sampled_state, hletgo]; decide
    obtain ⟨hkept, hcl, hcr, hdl, hdr⟩ := settleRest_sampled hne
    have hend := sampleKept_endStopping (fun _ => True) k (settleRest k (s.setDriveKey k d))
    obtain ⟨hcl', hcr'⟩ := hend.capture k trivial
    obtain ⟨hdl', hdr'⟩ := hend.drive k trivial
    exact ⟨(hset.trans hkept).trans (hend.aside k), hcl'.trans hcl, hcr'.trans hcr, (hdl'.trans hdl).trans hpos.1,
      (hdr'.trans hdr).trans hpos.2⟩
  · have hacts := (processDue_acts (fun j => j = k) (s.setDriveKey k d)).sampleKept
    obtain ⟨hcl, hcr⟩ := hacts.capture k trivial
    obtain ⟨hdl, hdr⟩ := hacts.drive k trivial
    exact ⟨hset.trans (hacts.aside k), hcl, hcr, hdl.trans hpos.1, hdr.trans hpos.2⟩
  · exact ⟨hset, rfl, rfl, hpos⟩

/-! ### The run controller's part of a sample (R153) -/

/-- The key whose pulse is pending is touched by a sample. -/
def State.touchedBy (s : State) (x : Key × KeyPos) : Prop :=
  s.run.wait = .pending ∧ s.run.current = some x.1 ∧ s.cap.repetition ≤ x.2.val

theorem runSample_of_not_touched {k : Key} {p : KeyPos} {s : State} (h : ¬ (s.run.state = .running ∧ s.touchedBy (k, p))) :
    runSample k p s = s := if_neg h

theorem runSample_of_touched {k : Key} {p : KeyPos} {s : State} (h : s.run.state = .running ∧ s.touchedBy (k, p)) :
    runSample k p s =
      { s with run := { s.run with wait := .rest (s.now + 2000000) }, drive := { s.drive with pulse := none } } := if_pos h

/-- The run controller's part leaves every block but its own, and the drive unit's pulse. -/
theorem runSample_frame (k : Key) (p : KeyPos) (s : State) :
    ∃ run pulse, runSample k p s = { s with run := run, drive := { s.drive with pulse := pulse } } ∧
      (s.run.state ≠ .running → run = s.run ∧ pulse = s.drive.pulse) := by
  by_cases h : s.run.state = .running ∧ s.touchedBy (k, p)
  · exact ⟨_, _, runSample_of_touched h, fun hr => absurd h.1 hr⟩
  · exact ⟨_, _, runSample_of_not_touched h, fun _ => ⟨rfl, rfl⟩⟩

/-- One reading: what it hands on, and what it keeps. -/
theorem sampleKey_sampled (k : Key) (p : KeyPos) (s : State) :
    ∃ u, SampleKept (fun j => j ≠ k) s u ∧ sampleKey s (k, p) = runSample k p u ∧
      (u.capKey k).lastPos = p ∧ (u.capKey k).releaseAt = s.cap.release ∧
      (u.driveKey k).lastPos = p ∧ (u.driveKey k).repetitionAt = s.cap.repetition := by
  obtain ⟨hc, hcl, hcr⟩ := captureSample_sampled k p s
  obtain ⟨hd, hcl', hcr', hdl, hdr⟩ := driveSample_sampled k p (captureSample k p s)
  exact ⟨_, hc.trans hd, rfl, hcl'.trans hcl, hcr'.trans hcr, hdl, hdr.trans hc.thresholds.2⟩

/-! ### All readings -/

/-- `t` is `s` with the readings `rs` taken: instants, clock, map and thresholds kept, each position with its keys' records, and a
pending pulse withdrawn where its key is touched. -/
structure Sampled (rs : List (Key × KeyPos)) (s t : State) : Prop where
  pending    : t.pending = s.pending
  wall       : t.wall = s.wall
  clk        : t.clk = s.clk
  map        : t.map = s.map
  thresholds : t.cap.release = s.cap.release ∧ t.cap.repetition = s.cap.repetition
  reached    : ∀ k p, (k, p) ∈ rs →
    (t.capKey k).lastPos = p ∧ (t.capKey k).releaseAt = s.cap.release ∧
      (t.driveKey k).lastPos = p ∧ (t.driveKey k).repetitionAt = s.cap.repetition
  drive      : ∀ k, k ∉ rs.map Prod.fst →
    (t.driveKey k).lastPos = (s.driveKey k).lastPos ∧ (t.driveKey k).repetitionAt = (s.driveKey k).repetitionAt
  power      : s.drive.power = .active → t.drive.power = .active
  touched    : s.run.state = .running → (∃ x ∈ rs, s.touchedBy x) →
    t.run = { s.run with wait := .rest (s.now + 2000000) } ∧ t.drive.pulse = none
  untouched  : s.run.state = .running → (¬ ∃ x ∈ rs, s.touchedBy x) → t.run = s.run ∧ t.drive.pulse = s.drive.pulse

theorem Sampled.nil (s : State) : Sampled [] s s where
  pending := rfl
  wall := rfl
  clk := rfl
  map := rfl
  thresholds := ⟨rfl, rfl⟩
  reached _ _ h := nomatch h
  drive _ _ := ⟨rfl, rfl⟩
  power := id
  touched := fun _ ⟨_, h, _⟩ => nomatch h
  untouched _ _ := ⟨rfl, rfl⟩

/-- One reading more. -/
theorem Sampled.snoc {rs : List (Key × KeyPos)} {s t : State} {k : Key} {p : KeyPos} (h : Sampled rs s t)
    (hk : k ∉ rs.map Prod.fst) : Sampled (rs ++ [(k, p)]) s (sampleKey t (k, p)) := by
  obtain ⟨u, hu, heq, hcl, hcr, hdl, hdr⟩ := sampleKey_sampled k p t
  obtain ⟨run, pulse, hframe, -⟩ := runSample_frame k p u
  have hnow : u.now = s.now := congrArg (fun w => w.now) (hu.wall.trans h.wall)
  have hrep : u.cap.repetition = s.cap.repetition := hu.thresholds.2.trans h.thresholds.2
  have hother {j : Key} (hj : j ∈ rs.map Prod.fst) : j ≠ k := fun e => hk (e ▸ hj)
  have hpressed (hr : s.run.state = .running) (hrs : ∃ x ∈ rs, s.touchedBy x) :
      (sampleKey t (k, p)).run = { s.run with wait := .rest (s.now + 2000000) } ∧ (sampleKey t (k, p)).drive.pulse = none := by
    obtain ⟨hrun, hpulse⟩ := h.touched hr hrs
    obtain ⟨hurun, hupulse⟩ := hu.run (by rw [hrun]; exact hr)
    have hnot : ¬ (u.run.state = .running ∧ u.touchedBy (k, p)) := fun c => by
      have hwait := c.2.1
      rw [hurun, hrun] at hwait
      cases hwait
    rw [heq, runSample_of_not_touched hnot]
    exact ⟨hurun.trans hrun, hupulse.trans hpulse⟩
  have hfresh (hr : s.run.state = .running) (hrs : ¬ ∃ x ∈ rs, s.touchedBy x) :
      u.run = s.run ∧ u.drive.pulse = s.drive.pulse ∧ (u.touchedBy (k, p) ↔ s.touchedBy (k, p)) := by
    obtain ⟨hrun, hpulse⟩ := h.untouched hr hrs
    obtain ⟨hurun, hupulse⟩ := hu.run (by rw [hrun]; exact hr)
    refine ⟨hurun.trans hrun, hupulse.trans hpulse, ?_⟩
    rw [State.touchedBy, State.touchedBy, hurun, hrun, hrep]
  refine ⟨?_, ?_, ?_, ?_, ?_, fun j q hj => ?_, fun j hj => ?_, fun hp => ?_, fun hr ht => ?_, fun hr ht => ?_⟩
  · rw [heq, hframe]; exact hu.pending.trans h.pending
  · rw [heq, hframe]; exact hu.wall.trans h.wall
  · rw [heq, hframe]; exact hu.clk.trans h.clk
  · rw [heq, hframe]; exact hu.map.trans h.map
  · rw [heq, hframe]; exact ⟨hu.thresholds.1.trans h.thresholds.1, hrep⟩
  · rw [heq, hframe]
    obtain hj | hj := List.mem_append.mp hj
    · obtain ⟨h1, h2, h3, h4⟩ := h.reached j q hj
      have hne := hother (List.mem_map_of_mem hj)
      exact ⟨(hu.capture j hne).1.trans h1, (hu.capture j hne).2.trans h2, (hu.drive j hne).1.trans h3,
        (hu.drive j hne).2.trans h4⟩
    · cases List.mem_singleton.mp hj
      exact ⟨hcl, hcr.trans h.thresholds.1, hdl, hdr.trans h.thresholds.2⟩
  · rw [heq, hframe]
    rw [List.map_append, List.mem_append, not_or] at hj
    have hne : j ≠ k := fun e => hj.2 (by simp [e])
    obtain ⟨h1, h2⟩ := h.drive j hj.1
    exact ⟨(hu.drive j hne).1.trans h1, (hu.drive j hne).2.trans h2⟩
  · rw [heq, hframe]; exact hu.power (h.power hp)
  · by_cases hrs : ∃ x ∈ rs, s.touchedBy x
    · exact hpressed hr hrs
    · obtain ⟨hrun, -, htouch⟩ := hfresh hr hrs
      obtain ⟨x, hx, hxt⟩ := ht
      have hxk : x = (k, p) :=
        List.mem_singleton.mp ((List.mem_append.mp hx).resolve_left fun hx => hrs ⟨x, hx, hxt⟩)
      rw [heq, runSample_of_touched ⟨by rw [hrun]; exact hr, htouch.mpr (hxk ▸ hxt)⟩]
      exact ⟨by rw [hrun, hnow], rfl⟩
  · have hrs : ¬ ∃ x ∈ rs, s.touchedBy x := fun ⟨x, hx, hxt⟩ => ht ⟨x, List.mem_append_left _ hx, hxt⟩
    obtain ⟨hrun, hpulse, htouch⟩ := hfresh hr hrs
    rw [heq, runSample_of_not_touched fun c => ht ⟨(k, p), List.mem_append_right _ (List.mem_singleton_self _), htouch.mp c.2⟩]
    exact ⟨hrun, hpulse⟩

/-- The readings of a sample, each key once. -/
theorem sampled_foldl {rs : List (Key × KeyPos)} (hrs : (rs.map Prod.fst).Nodup) (s : State) :
    Sampled rs s (rs.foldl sampleKey s) := by
  induction rs using List.reverseRecOn with
  | nil => exact .nil s
  | append_singleton rs x ih =>
    rw [List.map_append] at hrs
    obtain ⟨hrs, -, hdisjoint⟩ := List.nodup_append.mp hrs
    rw [List.foldl_append]
    exact (ih hrs).snoc fun hx => hdisjoint x.1 hx x.1 (by simp) rfl

theorem Sampled.takings {rs : List (Key × KeyPos)} {s t u : State} (h : Sampled rs s t) (g : Takings t u) : Sampled rs s u := by
  have hk := g.sampleKept
  have hrun (hr : s.run.state = .running) : u.run = t.run ∧ u.drive.pulse = t.drive.pulse := hk.run (by
    by_cases ht : ∃ x ∈ rs, s.touchedBy x
    · rw [(h.touched hr ht).1]; exact hr
    · rw [(h.untouched hr ht).1]; exact hr)
  exact {
    pending := hk.pending.trans h.pending
    wall := hk.wall.trans h.wall
    clk := hk.clk.trans h.clk
    map := hk.map.trans h.map
    thresholds := ⟨hk.thresholds.1.trans h.thresholds.1, hk.thresholds.2.trans h.thresholds.2⟩
    reached := fun j q hj => by
      obtain ⟨h1, h2, h3, h4⟩ := h.reached j q hj
      exact ⟨(hk.capture j trivial).1.trans h1, (hk.capture j trivial).2.trans h2, (hk.drive j trivial).1.trans h3,
        (hk.drive j trivial).2.trans h4⟩
    drive := fun j hj => ⟨(hk.drive j trivial).1.trans (h.drive j hj).1, (hk.drive j trivial).2.trans (h.drive j hj).2⟩
    power := fun hp => hk.power (h.power hp)
    touched := fun hr ht => ⟨(hrun hr).1.trans (h.touched hr ht).1, (hrun hr).2.trans (h.touched hr ht).2⟩
    untouched := fun hr ht => ⟨(hrun hr).1.trans (h.untouched hr ht).1, (hrun hr).2.trans (h.untouched hr ht).2⟩ }

/-- A well-formed sample reads every key once. -/
theorem nodup_readings {rs : List (Key × KeyPos)} (h : (Instr.keySample rs).WellFormed = true) : (rs.map Prod.fst).Nodup := by
  have hw : rs.length = 88 ∧ ∀ k : Key, k ∈ rs.map Prod.fst := by
    simpa [Instr.WellFormed, readingsWellFormed] using h
  obtain ⟨hlen, hall⟩ := hw
  have hsub : List.finRange 88 ⊆ rs.map Prod.fst := fun k _ => hall k
  have hperm := ((List.nodup_finRange 88).subperm hsub).perm_of_length_le (by simp [hlen])
  exact hperm.nodup_iff.mp (List.nodup_finRange 88)

end Sys2Proof.Machine
end

section
/-! SUPPORT. A key in REST that a sample finds risen: none of its due strikes goes on waiting for the touch (R119, R130). -/

namespace Sys2Proof.Machine

open Relation (ReflTransGen)

/-! ### Strikes that wait for their key -/

/-- A strike of key `k` that waits for the key. -/
def Action.WaitsFor (k : Key) (a : Action) : Prop := ∃ v d f, a.body = .strike k v d f (some .key)

theorem firedTooSoon_congr {k : Key} {s t : State} (hf : (t.driveKey k).lastFire = (s.driveKey k).lastFire)
    (hc : t.clk = s.clk) (hm : t.map = s.map) : firedTooSoon k t = firedTooSoon k s := by
  simp only [firedTooSoon, hf, hc, hm]

/-- A strike told to wait for its key found it driven, touched or fired too recently (R131). -/
theorem keyWaits_of_told {k : Key} {s : State} (hp : s.drive.power = .active) (h : offerTest k s = some (.wait .key)) :
    s.keyWaits k := by
  unfold offerTest at h
  dsimp only at h
  rw [hp] at h
  dsimp only at h
  split at h
  · cases h
  · split at h
    · cases h
    · split at h
      · assumption
      · split at h <;> cases h

/-- What an act does to the plan: a strike told to wait, or actions gone. -/
theorem Act.plan_cases {s t : State} (h : Act s t) :
    (∃ w a k, a ∈ s.sched.plan ∧ a.strikeKey? = some k ∧ (w = .slot ∨ offerTest k s = some (.wait w)) ∧
        t = waitStrike w a s) ∨
      ∀ b ∈ t.sched.plan, b ∈ s.sched.plan := by
  cases h with
  | wait w a hmem hk htold => exact .inl ⟨w, a, _, hmem, hk, htold, rfl⟩
  | remove n => exact .inr fun b hb => (List.mem_filter.mp hb).1
  | close time hrec => rw [closeCapture_sched]; exact .inr fun b hb => hb
  | layer y l h => rw [setLayer_sched]; exact .inr fun b hb => hb
  | _ => exact .inr fun b hb => hb

/-- A strike told to wait is the only action changed. -/
theorem mem_waitStrike {s : State} {w : WaitReason} {a b : Action} (hn : s.planSerials.Nodup) (ha : a ∈ s.sched.plan)
    (hb : b ∈ (waitStrike w a s).sched.plan) : b = a.withWait w ∨ b ∈ s.sched.plan ∧ b.serial ≠ a.serial := by
  rw [waitStrike_eq] at hb
  obtain ⟨c, hc, rfl⟩ := List.mem_map.mp hb
  split
  · next h => exact .inl (by rw [List.inj_on_of_nodup_map hn hc ha h])
  · next h => exact .inr ⟨hc, h⟩

theorem waitsFor_withWait {k j : Key} {a : Action} {w : WaitReason} (hk : a.strikeKey? = some j)
    (h : (a.withWait w).WaitsFor k) : j = k ∧ w = .key := by
  obtain ⟨v, d, f, w', hb⟩ := body_of_strikeKey hk
  obtain ⟨v', d', f', h⟩ := h
  have hbody : (a.withWait w).body = .strike j v d f (some w) := by rw [Action.withWait, hb]
  rw [hbody] at h
  cases h
  exact ⟨rfl, rfl⟩

/-! ### What acts leave of a key in REST and untouched -/

/-- What acts from `u` on leave of an untouched key: its sample, and in REST its last fire, with no further strike waiting for it
where it was not fired too recently. -/
structure KeyQuiet (k : Key) (u v : State) : Prop where
  clk     : v.clk = u.clk
  map     : v.map = u.map
  power   : v.drive.power = .active
  serials : SerialsSound v
  touched : (v.driveKey k).touched = false
  rest    : (v.driveKey k).state = .rest →
    (u.driveKey k).state = .rest ∧ (v.driveKey k).lastFire = (u.driveKey k).lastFire
  waits   : (v.driveKey k).state = .rest → firedTooSoon k u = false → ∀ b ∈ v.sched.plan, b.WaitsFor k → b ∈ u.sched.plan

theorem KeyQuiet.refl {k : Key} {u : State} (hp : u.drive.power = .active) (hs : SerialsSound u)
    (ht : (u.driveKey k).touched = false) : KeyQuiet k u u :=
  ⟨rfl, rfl, hp, hs, ht, fun h => ⟨h, rfl⟩, fun _ _ _ hb _ => hb⟩

theorem touched_congr {d e : DriveKey} (h : e.lastPos = d.lastPos ∧ e.repetitionAt = d.repetitionAt) : e.touched = d.touched := by
  rw [DriveKey.touched, DriveKey.touched, h.1, h.2]

theorem KeyQuiet.act {k : Key} {u v w : State} (h : KeyQuiet k u v) (g : Act v w) : KeyQuiet k u w := by
  have hk := g.sampleKept
  have hrest : (w.driveKey k).state = .rest →
      (u.driveKey k).state = .rest ∧ (w.driveKey k).lastFire = (u.driveKey k).lastFire := fun hw =>
    have hv := hk.rests k trivial hw
    have hu := h.rest hv.1
    ⟨hu.1, hv.2.trans hu.2⟩
  refine ⟨hk.clk.trans h.clk, hk.map.trans h.map, hk.power h.power, g.planLeft.serialsSound h.serials,
    (touched_congr (hk.drive k trivial)).trans h.touched, hrest, fun hw hfired b hb hwaits => ?_⟩
  have hv := (hk.rests k trivial hw).1
  obtain ⟨r, a, j, ha, hj, htold, rfl⟩ | hold := g.plan_cases
  · obtain rfl | ⟨hb, -⟩ := mem_waitStrike h.serials.1 ha hb
    · obtain ⟨rfl, rfl⟩ := waitsFor_withWait hj hwaits
      obtain hslot | htold := htold
      · cases hslot
      · have hsame := firedTooSoon_congr (h.rest hv).2 h.clk h.map
        obtain hne | ht | hf := keyWaits_of_told h.power htold
        · exact absurd hv hne
        · rw [h.touched] at ht; cases ht
        · rw [hsame, hfired] at hf; cases hf
    · exact h.waits hv hfired b hb hwaits
  · exact h.waits hv hfired b (hold b hb) hwaits

theorem KeyQuiet.acts {k : Key} {u v w : State} (h : KeyQuiet k u v) (g : Acts v w) : KeyQuiet k u w := by
  induction g with
  | refl => exact h
  | tail _ g ih => exact ih.act g

/-- A key that is untouched, ACTIVE, and in REST fired too recently or with no due strike waiting for it. -/
structure Served (k : Key) (u : State) : Prop where
  power   : u.drive.power = .active
  serials : SerialsSound u
  touched : (u.driveKey k).touched = false
  served  : (u.driveKey k).state = .rest → firedTooSoon k u = false → ∀ b ∈ u.sched.plan, b.WaitsFor k →
    ¬ b.due ≤ (u.clk.position : Int)

theorem Served.acts {k : Key} {u v : State} (h : Served k u) (g : Acts u v) : Served k v := by
  have hq := (KeyQuiet.refl h.power h.serials h.touched).acts g
  refine ⟨hq.power, hq.serials, hq.touched, fun hv hfired b hb hw => ?_⟩
  obtain ⟨hu, hfire⟩ := hq.rest hv
  have hnot := (firedTooSoon_congr hfire hq.clk hq.map).symm.trans hfired
  rw [hq.clk]
  exact h.served hu hnot b (hq.waits hv hnot b hb hw) hw

theorem Served.of_eq {k : Key} {u v : State} (h : Served k u) (hp : v.drive.power = u.drive.power)
    (hk : v.driveKey k = u.driveKey k) (hs : v.sched = u.sched) (hc : v.clk = u.clk) (hm : v.map = u.map) : Served k v := by
  refine ⟨hp.trans h.power, ?_, by rw [hk]; exact h.touched, fun hv hfired b hb hw => ?_⟩
  · rw [SerialsSound, State.planSerials, hs]; exact h.serials
  · rw [hk] at hv
    rw [hs] at hb
    rw [firedTooSoon_congr (by rw [hk]) hc hm] at hfired
    rw [hc]
    exact h.served hv hfired b hb hw

theorem Served.taking {k : Key} {u v : State} (g : Taking u v) (h : Served k u) : Served k v := by
  cases g with
  | act g => exact h.acts (.single g)
  | memory j m => exact ⟨h.power, h.serials, h.touched, h.served⟩
  | fetched y => exact h.of_eq (by rw [setLayer_drive]) (by rw [driveKey_setLayer]) (by rw [setLayer_sched]) (by simp) (by simp)
  | pop y =>
    obtain ⟨-, -, hsched, hdrive⟩ := popRing_frame y u
    have hk := popRing_keeps y u
    exact h.of_eq (by rw [hdrive]) (by rw [State.driveKey, State.driveKey, hdrive]) hsched hk.clk hk.map
  | insert y event due lead body hbody =>
    have hserials : SerialsSound (insertAction y event due lead body u) :=
      (Tended.taking (.insert y event due lead body hbody) (.start rfl rfl h.serials)).serials
    refine ⟨h.power, hserials, h.touched, fun hv hfired b hb hw => ?_⟩
    obtain rfl | hb := mem_planInsert.mp hb
    · obtain ⟨v, d, f, hb⟩ := hw
      exact absurd hb (hbody k v d f .key)
    · exact h.served hv hfired b hb hw

/-! ### The report of a risen key (R119, R130) -/

theorem processable_of_waiting {k : Key} {s : State} {again : List Nat} {a : Action} (hw : a.WaitsFor k)
    (hdue : a.due ≤ (s.clk.position : Int)) (hagain : a.serial ∈ again) : processable again s a = true := by
  obtain ⟨v, d, f, hb⟩ := hw
  simp [processable, hb, hdue, hagain]

/-- An action carried out that still waits for an untouched key in REST, not fired too recently, cannot be. -/
theorem not_waiting_after {k : Key} {s : State} {a b : Action} (hp : s.drive.power = .active) (hs : SerialsSound s)
    (ht : (s.driveKey k).touched = false) (ha : a ∈ s.sched.plan) (hb : b ∈ (carryOut a s).sched.plan) (hw : b.WaitsFor k)
    (hr : ((carryOut a s).driveKey k).state = .rest) (hf : firedTooSoon k (carryOut a s) = false) : b.serial ≠ a.serial := by
  intro e
  have hk := (carryOut_acts ha).sampleKept
  obtain ⟨hrest, hfire⟩ := hk.rests k trivial hr
  obtain ⟨w, j, hj, h, htold⟩ | hgone := carryOut_cases a s
  · rw [h] at hb
    obtain rfl | ⟨-, hne⟩ := mem_waitStrike hs.1 ha hb
    · obtain ⟨rfl, rfl⟩ := waitsFor_withWait hj hw
      obtain hslot | htold := htold
      · cases hslot
      · have hfired := (firedTooSoon_congr hfire hk.clk hk.map).symm.trans hf
        obtain hne | htouched | hsoon := keyWaits_of_told hp htold
        · exact hne hrest
        · rw [ht] at htouched; cases htouched
        · rw [hfired] at hsoon; cases hsoon
    · exact hne e
  · exact hgone (e ▸ List.mem_map_of_mem hb)

/-- What a processing still has to look at: the due strikes that wait for an untouched key in REST. -/
structure Serving (k : Key) (again todo : List Nat) (u : State) : Prop where
  power   : u.drive.power = .active
  serials : SerialsSound u
  touched : (u.driveKey k).touched = false
  pending : (u.driveKey k).state = .rest → firedTooSoon k u = false → ∀ b ∈ u.sched.plan, b.WaitsFor k →
    b.due ≤ (u.clk.position : Int) → b.serial ∈ todo ∧ b.serial ∈ again

/-- An action looked at and carried out. -/
theorem Serving.carryOut {k : Key} {again todo : List Nat} {u : State} {a : Action} (h : Serving k again (a.serial :: todo) u)
    (ha : a ∈ u.sched.plan) : Serving k (again.filter fun m => m ≠ a.serial) todo (carryOut a u) := by
  have hq := (KeyQuiet.refl h.power h.serials h.touched).acts (carryOut_acts ha)
  refine ⟨hq.power, hq.serials, hq.touched, fun hv hfired b hb hw hdue => ?_⟩
  obtain ⟨hu, hfire⟩ := hq.rest hv
  have hne := not_waiting_after h.power h.serials h.touched ha hb hw hv hfired
  have hnot := (firedTooSoon_congr hfire hq.clk hq.map).symm.trans hfired
  rw [hq.clk] at hdue
  obtain ⟨htodo, hagain⟩ := h.pending hu hnot b (hq.waits hv hnot b hb hw) hw hdue
  exact ⟨(List.mem_cons.mp htodo).resolve_left hne, List.mem_filter.mpr ⟨hagain, by simpa using hne⟩⟩

/-- The processing that a report of an untouched key opens leaves none of its due strikes waiting for the touch. -/
theorem processDue_serves {k : Key} {named : Key → Bool} {u : State} (hn : named k = true) (hr : u.clk.state = .running)
    (hp : u.drive.power = .active) (hs : SerialsSound u) (ht : (u.driveKey k).touched = false) :
    Served k (processDue named u) := by
  obtain ⟨_, hdone⟩ := processDue_induction (P := Serving k)
    (fun again n todo v h hskip => ⟨h.power, h.serials, h.touched, fun hv hfired b hb hw hdue => by
      obtain ⟨htodo, hagain⟩ := h.pending hv hfired b hb hw hdue
      refine ⟨(List.mem_cons.mp htodo).resolve_left fun e => ?_, hagain⟩
      have hfalse := hskip b (e ▸ action_of_mem hb h.serials.1)
      rw [processable_of_waiting hw hdue hagain] at hfalse
      cases hfalse⟩)
    (fun again n todo v a h ha _ _ => by
      obtain ⟨hmem, rfl⟩ := mem_of_action ha
      exact h.carryOut hmem)
    (fun again n todo v a h ha _ => by
      obtain ⟨hmem, rfl⟩ := mem_of_action ha
      have hafter := h.carryOut hmem
      exact ⟨hafter.power, hafter.serials, hafter.touched, fun hv hfired b hb hw hdue =>
        ⟨List.mem_map_of_mem hb, List.mem_append_left _ (hafter.pending hv hfired b hb hw hdue).2⟩⟩)
    (named := named) hr ⟨hp, hs, ht, fun _ _ b hb hw _ => ⟨List.mem_map_of_mem hb, by
      obtain ⟨v, d, f, hbody⟩ := hw
      refine mem_reoffers.mpr ⟨b, hb, rfl, ?_, k, by rw [Action.strikeKey?, hbody], hn⟩
      rw [reofferable, Action.wait, hbody]⟩⟩
  exact ⟨hdone.power, hdone.serials, hdone.touched, fun hv hfired b hb hw hdue =>
    List.not_mem_nil (hdone.pending hv hfired b hb hw hdue).1⟩

/-! ### A sample, reading by reading -/

theorem quietIfAtRest_of_active {s : State} (h : s.drive.power = .active) : quietIfAtRest s = s :=
  quietIfAtRest_of_driven fun c => by rw [h] at c; cases c.1

/-- A key back in REST with the drive unit ACTIVE: the processing that its report opens. -/
theorem settleRest_of_active {k : Key} {s : State} (h : (s.driveKey k).state ≠ .rest) (hp : s.drive.power = .active) :
    settleRest k s = reportKey k ((s.setDriveKey k (s.driveKey k).resting).setCapKey k
      { (s.capKey k) with state := .up, gate1At := none, held := false }) := by
  have hrest := enterRest_eq h
  have hpower : (enterRest k s).drive.power = .active := by rw [hrest]; exact hp
  unfold settleRest
  dsimp only
  rw [quietIfAtRest_of_active hpower, if_pos rfl, hrest]

theorem Served.endStopping {k j : Key} {u : State} (h : Served k u) : Served k (endStopping j u) := by
  obtain heq | ⟨-, heq⟩ := endStopping_cases j u <;> rw [heq]
  · exact h
  · obtain ⟨-, -, hc, hm, -, hd, hs, -⟩ := finishRun_only u
    exact h.of_eq (by rw [hd]) (by rw [State.driveKey, State.driveKey, hd]) hs hc hm

theorem Served.runSample {k j : Key} {p : KeyPos} {u : State} (h : Served k u) : Served k (runSample j p u) := by
  obtain ⟨run, pulse, heq, -⟩ := runSample_frame j p u
  rw [heq]
  exact ⟨h.power, h.serials, h.touched, h.served⟩

/-- The reading of another key leaves a key served. -/
theorem Served.sampleOther {k j : Key} {p : KeyPos} {u : State} (h : Served k u) (hj : k ≠ j) : Served k (sampleKey u (j, p)) := by
  have hcap := captureSample_only j p u
  have hc : Served k (captureSample j p u) :=
    h.of_eq (by rw [hcap.drive]) (by rw [State.driveKey, State.driveKey, hcap.drive]) hcap.sched hcap.keeps.clk hcap.keeps.map
  refine Served.runSample ?_
  change Served k (driveSample j p (captureSample j p u))
  generalize captureSample j p u = v at hc
  have hset (d : DriveKey) : Served k (v.setDriveKey j d) :=
    hc.of_eq rfl (driveKey_setDriveKey_other v d hj) rfl rfl rfl
  obtain ⟨hletgo, -, heq⟩ | ⟨-, -, heq⟩ | ⟨-, -, heq⟩ := driveSample_cases j p v <;> rw [heq]
  · have hne : ((v.setDriveKey j ((v.driveKey j).sampled p v.cap.repetition)).driveKey j).state ≠ .rest := by
      rw [driveKey_setDriveKey_same, sampled_state, hletgo]; decide
    rw [settleRest_of_active hne hc.power]
    refine Served.endStopping (Served.acts ?_ (processDue_acts ..))
    exact (hset _).of_eq rfl (driveKey_setDriveKey_other _ _ hj) rfl rfl rfl
  · exact (hset _).acts (processDue_acts ..)
  · exact hset _

/-- The reading of a key's own that finds it risen serves it (R119, R130). -/
theorem served_sampleKey {k : Key} {p : KeyPos} {u : State} (hr : u.clk.state = .running) (hp : u.drive.power = .active)
    (hs : SerialsSound u) (ht : (u.driveKey k).touched = true) (hlow : p.val < u.cap.repetition) :
    Served k (sampleKey u (k, p)) := by
  have hcap := captureSample_only k p u
  have hthresholds := (captureSample_sampled k p u).1.thresholds.2
  have hkey : (captureSample k p u).driveKey k = u.driveKey k := by rw [State.driveKey, State.driveKey, hcap.drive]
  refine Served.runSample ?_
  change Served k (driveSample k p (captureSample k p u))
  have hv : (captureSample k p u).clk.state = .running ∧ (captureSample k p u).drive.power = .active ∧
      SerialsSound (captureSample k p u) := by
    rw [SerialsSound, State.planSerials, hcap.keeps.clk, hcap.drive, hcap.sched]
    exact ⟨hr, hp, hs⟩
  generalize captureSample k p u = v at hkey hthresholds hv
  obtain ⟨hvr, hvp, hvs⟩ := hv
  have huntouched : ((v.driveKey k).sampled p v.cap.repetition).touched = false :=
    (Bool.not_eq_true _).mp fun c => by
      have hle := sampled_touched.mp c
      omega
  obtain ⟨hletgo, -, heq⟩ | ⟨-, -, heq⟩ | ⟨hl, hrest, heq⟩ := driveSample_cases k p v <;> rw [heq]
  · have hne : ((v.setDriveKey k ((v.driveKey k).sampled p v.cap.repetition)).driveKey k).state ≠ .rest := by
      rw [driveKey_setDriveKey_same, sampled_state, hletgo]; decide
    rw [settleRest_of_active hne hvp]
    refine Served.endStopping (processDue_serves (decide_eq_true rfl) hvr hvp hvs ?_)
    rw [driveKey_setCapKey, driveKey_setDriveKey_same, driveKey_setDriveKey_same]
    exact huntouched
  · exact processDue_serves (decide_eq_true rfl) hvr hvp hvs (by rw [driveKey_setDriveKey_same]; exact huntouched)
  · refine ⟨hvp, hvs, by rw [driveKey_setDriveKey_same]; exact huntouched, fun hst => ?_⟩
    rw [driveKey_setDriveKey_same, sampled_state] at hst
    have hle := (hrest hst).mp (by rw [hkey]; exact ht)
    omega

/-- A reading leaves of the plan what acts leave of it. -/
theorem sampleKey_planLeft (s : State) (x : Key × KeyPos) : PlanLeft s (sampleKey s x) := by
  obtain ⟨k, p⟩ := x
  have hcap := captureSample_only k p s
  have hc : PlanLeft s (captureSample k p s) :=
    .of_sched (by rw [hcap.sched]) (by rw [hcap.sched]) (by rw [hcap.sched]) hcap.keeps.clk
  have hrun (u : State) : PlanLeft u (runSample k p u) := by
    obtain ⟨run, pulse, heq, -⟩ := runSample_frame k p u
    rw [heq]
    exact .of_sched rfl rfl rfl rfl
  have hend (u : State) : PlanLeft u (endStopping k u) := by
    obtain heq | ⟨-, heq⟩ := endStopping_cases k u <;> rw [heq]
    · exact .refl u
    · obtain ⟨-, -, hclk, -, -, -, hs, -⟩ := finishRun_only u
      exact .of_sched (by rw [hs]) (by rw [hs]) (by rw [hs]) hclk
  have hquiet (u : State) : PlanLeft u (quietIfAtRest u) := by
    unfold quietIfAtRest
    split
    · exact .of_sched rfl rfl rfl rfl
    · exact .refl u
  have hprocess (named : Key → Bool) (u : State) : PlanLeft u (processDue named u) := (processDue_acts ..).planLeft
  have hdrive (v : State) : PlanLeft v (driveSample k p v) := by
    have hset (d : DriveKey) : PlanLeft v (v.setDriveKey k d) := .of_sched rfl rfl rfl rfl
    obtain ⟨hletgo, -, heq⟩ | ⟨-, -, heq⟩ | ⟨-, -, heq⟩ := driveSample_cases k p v <;> rw [heq]
    · have hne : ((v.setDriveKey k ((v.driveKey k).sampled p v.cap.repetition)).driveKey k).state ≠ .rest := by
        rw [driveKey_setDriveKey_same, sampled_state, hletgo]; decide
      have hrest := enterRest_eq hne
      have henter : PlanLeft v (enterRest k (v.setDriveKey k ((v.driveKey k).sampled p v.cap.repetition))) := by
        rw [hrest]; exact .of_sched rfl rfl rfl rfl
      refine ((henter.trans (hquiet _)).trans ?_).trans (hend _)
      obtain h | h := settleRest_eq k (v.setDriveKey k ((v.driveKey k).sampled p v.cap.repetition)) <;> rw [h] <;>
        exact hprocess ..
    · exact (hset _).trans (hprocess ..)
    · exact hset _
  exact (hc.trans (hdrive _)).trans (hrun _)

theorem samples_planLeft (rs : List (Key × KeyPos)) (s : State) : PlanLeft s (rs.foldl sampleKey s) := by
  induction rs generalizing s with
  | nil => exact .refl s
  | cons x rs ih => exact (sampleKey_planLeft s x).trans (ih _)

/-- A whole sample serves a touched key in REST that it finds risen. -/
theorem served_samples {rs : List (Key × KeyPos)} {k : Key} {p : KeyPos} {s : State} (hrs : (rs.map Prod.fst).Nodup)
    (hk : (k, p) ∈ rs) (hr : s.clk.state = .running) (hp : s.drive.power = .active) (hs : SerialsSound s)
    (ht : (s.driveKey k).touched = true) (hlow : p.val < s.cap.repetition) : Served k (rs.foldl sampleKey s) := by
  obtain ⟨pre, post, rfl⟩ := List.append_of_mem hk
  rw [List.map_append, List.map_cons] at hrs
  obtain ⟨hpre, hcons, hdisjoint⟩ := List.nodup_append.mp hrs
  have hkpre : k ∉ pre.map Prod.fst := fun h => hdisjoint k h k List.mem_cons_self rfl
  have hkpost : k ∉ post.map Prod.fst := (List.nodup_cons.mp hcons).1
  have hbefore := sampled_foldl hpre s
  rw [List.foldl_append, List.foldl_cons]
  have hown : Served k (sampleKey (pre.foldl sampleKey s) (k, p)) :=
    served_sampleKey (by rw [hbefore.clk]; exact hr) (hbefore.power hp) ((samples_planLeft pre s).serialsSound hs)
      ((touched_congr (hbefore.drive k hkpre)).trans ht) (by rw [hbefore.thresholds.2]; exact hlow)
  generalize sampleKey (pre.foldl sampleKey s) (k, p) = u at hown
  clear hcons hdisjoint hrs hk hbefore
  induction post generalizing u with
  | nil => exact hown
  | cons x post ih =>
    rw [List.map_cons, List.mem_cons, not_or] at hkpost
    exact ih hkpost.2 _ (hown.sampleOther hkpost.1)

end Sys2Proof.Machine
end

section
/-! SUPPORT. A sample whose reports open nothing, a lone strike that one does reach, and the whole effect of a sample where the clock
is not RUNNING and nothing is recorded (R9, R13, R119, R130, R139, R144, R162). -/

namespace Sys2Proof.Machine

open Relation (ReflTransGen)

/-! ### A reading whose reports open nothing -/

/-- A key in LETGO that a sample finds risen. -/
def State.risenBy (s : State) (k : Key) (p : KeyPos) : Prop := (s.driveKey k).state = .letgo ∧ p.val < s.cap.repetition

/-- A key returned to REST with a sample, the capture unit taking it back (R13, R139). -/
def State.rested (s : State) (k : Key) (p : KeyPos) : State :=
  (s.setDriveKey k ((s.driveKey k).sampled p s.cap.repetition).resting).setCapKey k
    { (s.capKey k) with state := .up, gate1At := none, held := false }

theorem driveSample_risen {k : Key} {p : KeyPos} {s : State} (h : s.risenBy k p)
    (hrep : ∀ v : State, v.clk = s.clk → v.sched = s.sched → reportKey k v = v)
    (hsup : s.drive.power = .quietPending → ∀ v : State, v.clk = s.clk → v.sched = s.sched → reportSupply v = v) :
    driveSample k p s = endStopping k (quietIfAtRest (s.rested k p)) := by
  have hquiet (u : State) : (quietIfAtRest u).clk = u.clk ∧ (quietIfAtRest u).sched = u.sched := by
    unfold quietIfAtRest
    split
    · exact ⟨rfl, rfl⟩
    · exact ⟨rfl, rfl⟩
  obtain ⟨-, -, heq⟩ | ⟨hrest, -, -⟩ | ⟨hlow, -, -⟩ := driveSample_cases k p s
  · have hne : ((s.setDriveKey k ((s.driveKey k).sampled p s.cap.repetition)).driveKey k).state ≠ .rest := by
      rw [driveKey_setDriveKey_same, sampled_state, h.1]; decide
    have henter : enterRest k (s.setDriveKey k ((s.driveKey k).sampled p s.cap.repetition)) = s.rested k p := by
      rw [enterRest_eq hne, driveKey_setDriveKey_same, setDriveKey_setDriveKey, capKey_setDriveKey]
      rfl
    have hsettle : settleRest k (s.setDriveKey k ((s.driveKey k).sampled p s.cap.repetition)) = quietIfAtRest (s.rested k p) := by
      obtain ⟨hc, hs⟩ := hquiet (s.rested k p)
      unfold settleRest
      dsimp only
      rw [henter]
      split
      · exact hrep _ hc hs
      · next hpower =>
        refine hsup ?_ _ hc hs
        by_contra hnot
        exact hpower (congrArg (fun u : State => u.drive.power) (quietIfAtRest_of_driven fun c => hnot c.1))
    rw [heq, hsettle]
  · rw [h.1] at hrest; cases hrest
  · exact absurd (hlow h.1) (Nat.not_le.mpr h.2)

theorem driveSample_not_risen {k : Key} {p : KeyPos} {s : State} (h : ¬ s.risenBy k p)
    (hrep : ∀ v : State, v.clk = s.clk → v.sched = s.sched → reportKey k v = v) :
    driveSample k p s = s.setDriveKey k ((s.driveKey k).sampled p s.cap.repetition) := by
  obtain ⟨hl, hp, -⟩ | ⟨-, -, heq⟩ | ⟨-, -, heq⟩ := driveSample_cases k p s
  · exact absurd ⟨hl, hp⟩ h
  · rw [heq]; exact hrep _ rfl rfl
  · exact heq

/-! ### Readings that open nothing while ACTIVE -/

/-- `t` is `s` but for the capture unit, the run, notices, the pulse, and the records of keys outside `K`, none of which takes or
gives back a slot. -/
structure ReadQuietly (K : Key → Prop) (s t : State) : Prop where
  sched : t.sched = s.sched
  layer : ∀ y, t.layer y = s.layer y
  clk   : t.clk = s.clk
  map   : t.map = s.map
  drive : t.drive = { s.drive with keys := t.drive.keys, pulse := t.drive.pulse }
  keys  : ∀ j, K j → t.driveKey j = s.driveKey j
  slots : ∀ j, (t.driveKey j).state.holdsSlot = (s.driveKey j).state.holdsSlot

theorem ReadQuietly.refl (K : Key → Prop) (s : State) : ReadQuietly K s s :=
  ⟨rfl, fun _ => rfl, rfl, rfl, rfl, fun _ _ => rfl, fun _ => rfl⟩

theorem ReadQuietly.trans {K : Key → Prop} {s t u : State} (h : ReadQuietly K s t) (g : ReadQuietly K t u) :
    ReadQuietly K s u :=
  ⟨g.sched.trans h.sched, fun y => (g.layer y).trans (h.layer y), g.clk.trans h.clk, g.map.trans h.map,
    by rw [g.drive, h.drive], fun j hj => (g.keys j hj).trans (h.keys j hj), fun j => (g.slots j).trans (h.slots j)⟩

theorem ReadQuietly.mono {K L : Key → Prop} {s t : State} (h : ReadQuietly K s t) (hl : ∀ j, L j → K j) : ReadQuietly L s t :=
  { h with keys := fun j hj => h.keys j (hl j hj) }

theorem readQuietly_capture (K : Key → Prop) {s t : State} (h : CaptureOnly s t) : ReadQuietly K s t := by
  have hk (j : Key) : t.driveKey j = s.driveKey j := by rw [State.driveKey, State.driveKey, h.drive]
  exact ⟨h.sched, h.layer, h.keeps.clk, h.keeps.map, by rw [h.drive], fun j _ => hk j, fun j => by rw [hk]⟩

theorem readQuietly_setDriveKey (s : State) {k : Key} {d : DriveKey}
    (h : d.state.holdsSlot = (s.driveKey k).state.holdsSlot) : ReadQuietly (fun j => j ≠ k) s (s.setDriveKey k d) := by
  refine ⟨rfl, fun y => by cases y <;> rfl, rfl, rfl, rfl, fun j hj => driveKey_setDriveKey_other _ _ hj, fun j => ?_⟩
  by_cases hj : j = k
  · subst hj; rw [driveKey_setDriveKey_same]; exact h
  · rw [driveKey_setDriveKey_other _ _ hj]

theorem readQuietly_endStopping (K : Key → Prop) (k : Key) (s : State) : ReadQuietly K s (endStopping k s) := by
  obtain heq | ⟨-, heq⟩ := endStopping_cases k s <;> rw [heq]
  · exact .refl K s
  · obtain ⟨-, -, hc, hm, -, hd, hs, hl⟩ := finishRun_only s
    have hk (j : Key) : (finishRun s).driveKey j = s.driveKey j := by rw [State.driveKey, State.driveKey, hd]
    exact ⟨hs, hl, hc, hm, by rw [hd], fun j _ => hk j, fun j => by rw [hk]⟩

theorem readQuietly_runSample (K : Key → Prop) (k : Key) (p : KeyPos) (s : State) : ReadQuietly K s (runSample k p s) := by
  obtain ⟨run, pulse, heq, -⟩ := runSample_frame k p s
  rw [heq]
  exact ⟨rfl, fun y => by cases y <;> rfl, rfl, rfl, rfl, fun _ _ => rfl, fun _ => rfl⟩

/-- A reading while ACTIVE whose report opens nothing. -/
theorem sampleKey_quietly {k : Key} {p : KeyPos} {s : State} (hp : s.drive.power = .active)
    (hrep : ∀ v : State, v.clk = s.clk → v.sched = s.sched → reportKey k v = v) :
    ReadQuietly (fun j => j ≠ k) s (sampleKey s (k, p)) := by
  have hcap := readQuietly_capture (fun j => j ≠ k) (captureSample_only k p s)
  refine (hcap.trans ?_).trans (readQuietly_runSample _ k p (driveSample k p (captureSample k p s)))
  have hpower : (captureSample k p s).drive.power = .active := by rw [hcap.drive]; exact hp
  have hrep' : ∀ v : State, v.clk = (captureSample k p s).clk → v.sched = (captureSample k p s).sched → reportKey k v = v :=
    fun v hc hs => hrep v (hc.trans hcap.clk) (hs.trans hcap.sched)
  generalize captureSample k p s = u at hpower hrep'
  by_cases h : u.risenBy k p
  · rw [driveSample_risen h hrep' fun c => by rw [hpower] at c; cases c]
    have hq : quietIfAtRest (u.rested k p) = u.rested k p := quietIfAtRest_of_active hpower
    rw [hq]
    have hset := readQuietly_setDriveKey u (k := k) (d := ((u.driveKey k).sampled p u.cap.repetition).resting) (by
      rw [h.1]; rfl)
    exact (hset.trans (readQuietly_capture _ (CaptureOnly.setCapKey ..))).trans (readQuietly_endStopping ..)
  · rw [driveSample_not_risen h hrep']
    exact readQuietly_setDriveKey u rfl

/-- Readings while ACTIVE whose reports open nothing. -/
theorem samples_quietly {rs : List (Key × KeyPos)} {s : State} (hp : s.drive.power = .active)
    (hrep : ∀ x ∈ rs, ∀ v : State, v.clk = s.clk → v.sched = s.sched → reportKey x.1 v = v) :
    ReadQuietly (fun j => j ∉ rs.map Prod.fst) s (rs.foldl sampleKey s) := by
  induction rs generalizing s with
  | nil => exact .refl _ s
  | cons x rs ih =>
    have hx := sampleKey_quietly (k := x.1) (p := x.2) hp (hrep x List.mem_cons_self)
    have hrest := ih (s := sampleKey s x) (by rw [hx.drive]; exact hp) fun z hz v hc hs =>
      hrep z (List.mem_cons_of_mem _ hz) v (hc.trans hx.clk) (hs.trans hx.sched)
    exact (hx.mono fun j hj e => hj (by simp [e])).trans (hrest.mono fun j hj h => hj (by simp [h]))

/-! ### A lone strike that waits for its key (R119, R130) -/

/-- The report of another key passes a lone strike by that waits for its own. -/
theorem reportKey_of_waiting {j k : Key} {s : State} {a : Action} (h : s.sched.plan = [a]) (hw : a.WaitsFor k) (hj : j ≠ k) :
    reportKey j s = s := by
  by_cases hr : s.clk.state = .running
  · obtain ⟨v, d, f, hb⟩ := hw
    have heq : reportKey j s = processLoop (3 + 1) (reoffers (fun i => i = j) s) [a.serial] s := by
      simp [reportKey, processDue, State.running, hr, State.planSerials, h]
    have hnot : a.serial ∉ reoffers (fun i => decide (i = j)) s := fun hmem => by
      obtain ⟨b, hb', -, -, i, hi, hij⟩ := mem_reoffers.mp hmem
      rw [h, List.mem_singleton] at hb'
      subst hb'
      rw [Action.strikeKey?, hb] at hi
      cases hi
      exact hj (of_decide_eq_true hij).symm
    rw [heq, processLoop_skip (action_of_alone h) (by simp [processable, hb, Action.wait, hnot]), processLoop_nil]
  · exact processDue_of_not_running hr

theorem slotsHeld_congr {s t : State} (h : ∀ j, (t.driveKey j).state.holdsSlot = (s.driveKey j).state.holdsSlot) :
    t.slotsHeld = s.slotsHeld := by
  simp only [State.slotsHeld, h]

theorem layers_ring_of_acts {s t : State} (h : Acts s t) (hr : ∀ y, (s.layer y).ring = []) : ∀ y, (t.layer y).ring = [] := by
  induction h with
  | refl => exact hr
  | @tail u v _ g ih =>
    intro y
    cases g with
    | layer z l hl =>
      by_cases hz : y = z
      · subst hz; rw [layer_setLayer_same, hl.ring]; exact ih y
      · rw [layer_setLayer_other _ _ hz]; exact ih y
    | close time hrec => rw [closeCapture_layer]; exact ih y
    | _ => exact (congrArg Layer.ring (layer_eq_of_fields rfl rfl y)).trans (ih y)

/-- A lone due strike offered where nothing holds it fires (R118, R131, R133). -/
theorem lone_strike_fires {k : Key} {s : State} {a : Action} (h : s.sched.plan = [a]) (hr : s.clk.state = .running)
    (hw : a.WaitsFor k) (hdue : a.due ≤ (s.clk.position : Int)) (hp : s.drive.power = .active)
    (hrest : (s.driveKey k).state = .rest) (ht : (s.driveKey k).touched = false) (hhot : (s.driveKey k).hot = false)
    (hfired : firedTooSoon k s = false) (hsag : s.drive.sag = false) (hslot : s.slotsHeld < s.drive.slots) :
    (reportKey k s).sched.plan = [] ∧ ((reportKey k s).driveKey k).state = .strike ∧
      ((reportKey k s).driveKey k).owner = some a.layer ∧ ((reportKey k s).driveKey k).lastFire = some s.clk.position := by
  obtain ⟨v, d, f, hb⟩ := hw
  have hagain : a.serial ∈ reoffers (fun j => decide (j = k)) s :=
    mem_reoffers_of_alone h hb (fun e => nomatch e) (decide_eq_true rfl)
  have hprocess : reportKey k s = carryOut a s :=
    processDue_of_alone h hr (processable_of_alone h hdue fun _ _ _ _ _ _ => hagain)
  have hwaits : ¬ s.keyWaits k := by
    rintro (hne | htouched | hsoon)
    · exact hne hrest
    · rw [ht] at htouched; cases htouched
    · rw [hfired] at hsoon; cases hsoon
  have htaken : offerAnswer k s = .taken := offerAnswer_taken (offerTest_free hp hhot hwaits hsag) hslot
  have hyields : ¬ yieldsNow a k s = true := fun hy => by
    have hle := (yieldsNow_iff.mp hy).2.2
    rw [touched_iff.mpr hle] at ht
    cases ht
  have hcarry : carryOut a s = takeStrike a s := by
    obtain ⟨hnone, -, -⟩ | ⟨-, heq⟩ := carryOut_strike (s := s) hb
    · rw [Action.wait, hb] at hnone; cases hnone
    · rw [heq, offerStrike_answered hyields, htaken]
      rfl
  have hkey : (takeStrike a s).driveKey k = (s.driveKey k).struck s k a.layer a.event v d f := by
    rw [State.driveKey, takeStrike_keys s hb, bankGet_bankSet_same]
  rw [hprocess, hcarry, hkey]
  exact ⟨by rw [takeStrike_plan s hb, h]; simp, rfl, rfl, rfl⟩

end Sys2Proof.Machine
end

section
/-! SUPPORT. The lone strike through a whole sample, the whole effect of a sample outside RUNNING and RECORDING, and KEY_SAMPLE as R1,
R2, R9, R13, R119, R130, R139, R153 and R162 have it. -/

namespace Sys2Proof.Machine

open Relation (ReflTransGen)

/-! ### The lone strike through a whole sample -/

/-- A key in REST that its own reading finds risen is reported. -/
theorem sampleKey_reports {k : Key} {p : KeyPos} {u : State} (hrest : (u.driveKey k).state = .rest)
    (ht : (u.driveKey k).touched = true) (hlow : p.val < u.cap.repetition) :
    ∃ v, ReadQuietly (fun j => j ≠ k) u v ∧ v.driveKey k = (u.driveKey k).sampled p u.cap.repetition ∧
      sampleKey u (k, p) = runSample k p (reportKey k v) := by
  have hcap := captureSample_only k p u
  have hthresholds := (captureSample_sampled k p u).1.thresholds.2
  have hkey : (captureSample k p u).driveKey k = u.driveKey k := by rw [State.driveKey, State.driveKey, hcap.drive]
  have hquiet := readQuietly_capture (fun j => j ≠ k) hcap
  have heq : sampleKey u (k, p) = runSample k p (driveSample k p (captureSample k p u)) := rfl
  rw [heq]
  generalize captureSample k p u = c at hkey hthresholds hquiet
  refine ⟨c.setDriveKey k ((c.driveKey k).sampled p c.cap.repetition), hquiet.trans (readQuietly_setDriveKey c rfl), ?_, ?_⟩
  · rw [driveKey_setDriveKey_same, hkey, hthresholds]
  · obtain ⟨hletgo, -, -⟩ | ⟨-, -, h⟩ | ⟨-, hsame, -⟩ := driveSample_cases k p c
    · rw [hkey, hrest] at hletgo; cases hletgo
    · rw [h]
    · have hle := (hsame (by rw [hkey]; exact hrest)).mp (by rw [hkey]; exact ht)
      omega

/-- The lone strike of a key that a sample finds risen fires (R119, R130, R133). -/
theorem lone_sample {rs : List (Key × KeyPos)} {k : Key} {p : KeyPos} {s : State} {a : Action} (hrs : (rs.map Prod.fst).Nodup)
    (hk : (k, p) ∈ rs) (hr : s.clk.state = .running) (hp : s.drive.power = .active) (hrest : (s.driveKey k).state = .rest)
    (ht : (s.driveKey k).touched = true) (hlow : p.val < s.cap.repetition) (hplan : s.sched.plan = [a]) (hw : a.WaitsFor k)
    (hdue : a.due ≤ (s.clk.position : Int)) (hrings : ∀ y, (s.layer y).ring = []) (hhot : (s.driveKey k).hot = false)
    (hsag : s.drive.sag = false) (hslot : s.slotsHeld < s.drive.slots) (hfired : firedTooSoon k s = false) :
    (takeAll (rs.foldl sampleKey s)).sched.plan = [] ∧ ((takeAll (rs.foldl sampleKey s)).driveKey k).state = .strike ∧
      ((takeAll (rs.foldl sampleKey s)).driveKey k).owner = some a.layer ∧
      ((takeAll (rs.foldl sampleKey s)).driveKey k).lastFire = some s.clk.position := by
  obtain ⟨pre, post, rfl⟩ := List.append_of_mem hk
  rw [List.map_append, List.map_cons] at hrs
  obtain ⟨hpre, hcons, hdisjoint⟩ := List.nodup_append.mp hrs
  have hkpre : k ∉ pre.map Prod.fst := fun h => hdisjoint k h k List.mem_cons_self rfl
  have hkpost : k ∉ post.map Prod.fst := (List.nodup_cons.mp hcons).1
  have hu := samples_quietly (rs := pre) hp fun x hx v _ hs =>
    reportKey_of_waiting (by rw [hs]; exact hplan) hw fun e => hkpre (e ▸ List.mem_map_of_mem hx)
  have hthresholds := (sampled_foldl hpre s).thresholds.2
  rw [List.foldl_append, List.foldl_cons]
  generalize pre.foldl sampleKey s = u at hu hthresholds
  have hkey := hu.keys k hkpre
  obtain ⟨v, hv, hvkey, heq⟩ := sampleKey_reports (k := k) (p := p) (u := u) (by rw [hkey]; exact hrest) (by rw [hkey]; exact ht)
    (by rw [hthresholds]; exact hlow)
  have hsv : ReadQuietly (fun _ => False) s v := (hu.mono fun _ h => h.elim).trans (hv.mono fun _ h => h.elim)
  rw [hkey, hthresholds] at hvkey
  have hpower : v.drive.power = .active := by rw [hsv.drive]; exact hp
  have hfires := lone_strike_fires (k := k) (s := v) (a := a) (by rw [hsv.sched]; exact hplan) (by rw [hsv.clk]; exact hr) hw
    (by rw [hsv.clk]; exact hdue) hpower (by rw [hvkey]; exact hrest)
    (by rw [hvkey]; exact (Bool.not_eq_true _).mp fun c => Nat.not_le.mpr hlow (sampled_touched.mp c))
    (by rw [hvkey]; exact hhot)
    ((firedTooSoon_congr (by rw [hvkey]; rfl) hsv.clk hsv.map).trans hfired) (by rw [hsv.drive]; exact hsag)
    (by rw [slotsHeld_congr hsv.slots, hsv.drive]; exact hslot)
  have hacts : Acts v (reportKey k v) := processDue_acts ..
  have hring := layers_ring_of_acts hacts fun y => by rw [hsv.layer]; exact hrings y
  have hactive := hacts.sampleKept.power hpower
  rw [heq, ← hsv.clk]
  generalize reportKey k v = w at hfires hring hactive
  have hown := readQuietly_runSample (fun _ => True) k p w
  have hafter := samples_quietly (rs := post) (s := runSample k p w) (by rw [hown.drive]; exact hactive) fun x _ z _ hs =>
    processDue_of_plan_nil (by rw [hs, hown.sched]; exact hfires.1)
  have hdone := (hown.mono fun _ _ => trivial).trans hafter
  have htake : takeAll (post.foldl sampleKey (runSample k p w)) = post.foldl sampleKey (runSample k p w) :=
    takeAll_of_nextTaking_none (nextTaking_of_none_ready fun y => readyRecord_of_ring_nil (by rw [hdone.layer]; exact hring y))
  rw [htake, hdone.keys k hkpost, hdone.sched]
  exact hfires

/-! ### A sample outside RUNNING and RECORDING -/

/-- The capture record of a key after its reading (R9, R13). -/
def State.capRead (s : State) (k : Key) (p : KeyPos) : CapKey :=
  let c : CapKey := { (s.capKey k) with lastPos := p, releaseAt := s.cap.release }
  let d : DriveKey := { (s.driveKey k) with lastPos := p, repetitionAt := s.cap.repetition }
  if d.state = .letgo ∧ p.val < s.cap.repetition then { c with state := .up, gate1At := none, held := false }
  else if d.state = .rest ∧ c.state = .down ∧ p.val < s.cap.release then { c with state := .up }
  else c

/-- The drive record of a key after its reading (R139). -/
def State.driveRead (s : State) (k : Key) (p : KeyPos) : DriveKey :=
  let d : DriveKey := { (s.driveKey k) with lastPos := p, repetitionAt := s.cap.repetition }
  if d.state = .letgo ∧ p.val < s.cap.repetition then
    { d with
      state := .rest, owner := none, fire := none, sustainDemand := none, reboundGap := none
      sustain := none, reboundEnd := none, letGoAt := none }
  else d

/-- The state after a reading, before the run controller's part. -/
def State.read (s : State) (k : Key) (p : KeyPos) : State :=
  let u := (s.setDriveKey k (s.driveRead k p)).setCapKey k (s.capRead k p)
  if (s.driveKey k).state = .letgo ∧ p.val < s.cap.repetition then quietIfAtRest u else u

/-- `t` is `s` with other key records, and the drive unit perhaps in QUIET. -/
structure KeysRead (s t : State) : Prop where
  frame : t = { s with cap := { s.cap with keys := t.cap.keys }, drive := t.drive }
  pulse : t.drive.pulse = s.drive.pulse
  drive : s.drive.power ≠ .quietPending → t.drive = { s.drive with keys := t.drive.keys }

theorem quietIfAtRest_keys (s : State) (j : Key) :
    (quietIfAtRest s).capKey j = s.capKey j ∧ (quietIfAtRest s).driveKey j = s.driveKey j := by
  unfold quietIfAtRest
  split
  · exact ⟨rfl, rfl⟩
  · exact ⟨rfl, rfl⟩

theorem keysRead_read (s : State) (k : Key) (p : KeyPos) : KeysRead s (s.read k p) := by
  unfold State.read
  dsimp only
  split
  · by_cases h : ((s.setDriveKey k (s.driveRead k p)).setCapKey k (s.capRead k p)).drive.power = .quietPending ∧
        ((s.setDriveKey k (s.driveRead k p)).setCapKey k (s.capRead k p)).allRest = true
    · rw [quietIfAtRest_of_rest h]
      exact ⟨rfl, rfl, fun hp => absurd h.1 hp⟩
    · rw [quietIfAtRest_of_driven h]
      exact ⟨rfl, rfl, fun _ => rfl⟩
  · exact ⟨rfl, rfl, fun _ => rfl⟩

theorem read_capKey (s : State) (k j : Key) (p : KeyPos) :
    (s.read k p).capKey j = if j = k then s.capRead k p else s.capKey j := by
  have hset : ((s.setDriveKey k (s.driveRead k p)).setCapKey k (s.capRead k p)).capKey j =
      if j = k then s.capRead k p else s.capKey j := by
    split
    · next h => subst h; rw [capKey_setCapKey_same]
    · next h => rw [capKey_setCapKey_other _ _ h, capKey_setDriveKey]
  rw [← hset]
  unfold State.read
  dsimp only
  split
  · exact (quietIfAtRest_keys _ j).1
  · rfl

theorem read_driveKey (s : State) (k j : Key) (p : KeyPos) :
    (s.read k p).driveKey j = if j = k then s.driveRead k p else s.driveKey j := by
  have hset : ((s.setDriveKey k (s.driveRead k p)).setCapKey k (s.capRead k p)).driveKey j =
      if j = k then s.driveRead k p else s.driveKey j := by
    rw [driveKey_setCapKey]
    split
    · next h => subst h; rw [driveKey_setDriveKey_same]
    · next h => rw [driveKey_setDriveKey_other _ _ h]
  rw [← hset]
  unfold State.read
  dsimp only
  split
  · exact (quietIfAtRest_keys _ j).2
  · rfl

theorem captureSample_of_not_recording {k : Key} {p : KeyPos} {s : State} (h : s.cap.state ≠ .recording) :
    captureSample k p s = s.setCapKey k (s.capSampled k p) := by
  obtain heq | heq := captureSample_eq k p s
  · exact heq
  · rw [heq]; exact captureRelease_of_not_recording h

/-- One reading outside RUNNING and RECORDING: the key's records, then the run controller's part. -/
theorem sampleKey_still {k : Key} {p : KeyPos} {s : State} (hr : s.clk.state ≠ .running) (hc : s.cap.state ≠ .recording) :
    sampleKey s (k, p) = runSample k p
      (if (s.driveKey k).state = .letgo ∧ p.val < s.cap.repetition then endStopping k (s.read k p) else s.read k p) := by
  have heq : sampleKey s (k, p) = runSample k p (driveSample k p (s.setCapKey k (s.capSampled k p))) := by
    rw [← captureSample_of_not_recording hc]; rfl
  have hrep (v : State) (hv : v.clk = (s.setCapKey k (s.capSampled k p)).clk) : v.clk.state ≠ .running := by
    rw [hv]; exact hr
  rw [heq]
  congr 1
  by_cases h : (s.driveKey k).state = .letgo ∧ p.val < s.cap.repetition
  · have hrisen : (s.setCapKey k (s.capSampled k p)).risenBy k p := h
    rw [if_pos h, driveSample_risen hrisen (fun v hv _ => processDue_of_not_running (hrep v hv))
      fun _ v hv _ => processDue_of_not_running (hrep v hv)]
    have hrested : (s.setDriveKey k (s.driveRead k p)).setCapKey k (s.capRead k p) =
        (s.setCapKey k (s.capSampled k p)).rested k p := by
      rw [← setCapKey_setCapKey (s.setDriveKey k (s.driveRead k p)) k (s.capSampled k p)]
      simp only [State.capRead, State.driveRead, if_pos h, State.rested, capKey_setCapKey_same]
      rfl
    have hread : s.read k p = quietIfAtRest ((s.setCapKey k (s.capSampled k p)).rested k p) := by
      rw [← hrested]
      exact if_pos h
    rw [hread]
  · have hrisen : ¬ (s.setCapKey k (s.capSampled k p)).risenBy k p := h
    rw [if_neg h, driveSample_not_risen hrisen fun v hv _ => processDue_of_not_running (hrep v hv)]
    simp only [State.read, State.capRead, State.driveRead, if_neg h]
    have hcap : s.capSampled k p =
        if (s.driveKey k).state = .rest ∧ (s.capKey k).state = .down ∧ p.val < s.cap.release then
          { (s.capKey k) with lastPos := p, releaseAt := s.cap.release, state := .up }
        else { (s.capKey k) with lastPos := p, releaseAt := s.cap.release } := by
      unfold State.capSampled
      split <;> rfl
    rw [hcap]
    rfl

/-! ### All readings outside RUNNING and RECORDING -/

/-- The readings find the key risen whose pulse a run in STOPPING waits for (R162). -/
def State.endedBy (s : State) (rs : List (Key × KeyPos)) : Prop :=
  s.run.state = .stopping ∧ ∃ x ∈ rs, s.run.current = some x.1 ∧ (s.driveKey x.1).state = .letgo ∧
    x.2.val < s.cap.repetition

/-- `s` with other key records at the capture unit and another drive unit. -/
def State.withKeys (s : State) (keys : Bank CapKey 88) (drive : Drive) : State :=
  { s with cap := { s.cap with keys := keys }, drive := drive }

/-- `t` is `s` with the readings `rs` taken, outside RUNNING and RECORDING. -/
structure ReadStill (rs : List (Key × KeyPos)) (s t : State) : Prop where
  read  : ∀ k p, (k, p) ∈ rs → t.capKey k = s.capRead k p ∧ t.driveKey k = s.driveRead k p
  other : ∀ k, k ∉ rs.map Prod.fst → t.capKey k = s.capKey k ∧ t.driveKey k = s.driveKey k
  drive : s.drive.power ≠ .quietPending → t.drive = { s.drive with keys := t.drive.keys, pulse := t.drive.pulse }
  pulse : s.run.state ≠ .running → t.drive.pulse = s.drive.pulse
  ended : s.endedBy rs → t = finishRun (s.withKeys t.cap.keys t.drive)
  going : ¬ s.endedBy rs → t = { s.withKeys t.cap.keys t.drive with run := t.run } ∧
    (s.run.state ≠ .running → t.run = s.run) ∧ (s.run.state = .running → t.run.state = .running)

theorem finishRun_withKeys (s : State) (keys : Bank CapKey 88) (drive : Drive) :
    (finishRun s).withKeys keys drive = finishRun (s.withKeys keys drive) := by
  simp only [finishRun_of_failed, State.withKeys]
  by_cases h : s.run.failed = true
  · rw [if_pos h, if_pos h]; rfl
  · rw [if_neg h, if_neg h]; rfl

theorem ReadStill.nil (s : State) : ReadStill [] s s where
  read _ _ h := nomatch h
  other _ _ := ⟨rfl, rfl⟩
  drive _ := rfl
  pulse _ := rfl
  ended := fun ⟨_, _, h, _⟩ => nomatch h
  going _ := ⟨rfl, fun _ => rfl, id⟩

/-- What both ends of a reading have in common: clock, thresholds, capture state. -/
theorem ReadStill.frame {rs : List (Key × KeyPos)} {s t : State} (h : ReadStill rs s t) :
    t.clk = s.clk ∧ t.cap = { s.cap with keys := t.cap.keys } ∧ t.sched = s.sched := by
  by_cases he : s.endedBy rs
  · have heq := h.ended he
    generalize t.cap.keys = keys at heq ⊢
    generalize t.drive = drive at heq
    obtain ⟨-, -, hc, -, hcap, -, hs, -⟩ := finishRun_only (s.withKeys keys drive)
    rw [heq]
    exact ⟨hc, hcap, hs⟩
  · rw [(h.going he).1]
    exact ⟨rfl, rfl, rfl⟩

theorem finishRun_state (s : State) : (finishRun s).run.state = .idle := by rw [finishRun_run]

/-- The run controller's part of a reading: STOPPING ended, a pulse withdrawn, or nothing. -/
theorem runPart_cases (k : Key) (p : KeyPos) (c : Prop) [Decidable c] (v : State) (hc : c → (v.driveKey k).state ≠ .letgo) :
    (v.run.state = .stopping ∧ v.run.current = some k ∧ c ∧
        runSample k p (if c then endStopping k v else v) = finishRun v) ∨
      ¬ (v.run.state = .stopping ∧ v.run.current = some k ∧ c) ∧
        (runSample k p (if c then endStopping k v else v) = v ∨
          v.run.state = .running ∧ ∃ wait, runSample k p (if c then endStopping k v else v) =
            { v with run := { v.run with wait := wait }, drive := { v.drive with pulse := none } }) := by
  by_cases h : v.run.state = .stopping ∧ v.run.current = some k ∧ c
  · obtain ⟨hs, hcur, hcond⟩ := h
    have hend : endStopping k v = finishRun v := if_pos ⟨hs, hcur, hc hcond⟩
    have hidle : (finishRun v).run.state ≠ .running := by rw [finishRun_state]; decide
    exact .inl ⟨hs, hcur, hcond, by rw [if_pos hcond, hend, runSample_of_not_touched fun x => hidle x.1]⟩
  · have hsame : (if c then endStopping k v else v) = v := by
      split
      · next hcond => exact if_neg fun x => h ⟨x.1, x.2.1, hcond⟩
      · rfl
    rw [hsame]
    refine .inr ⟨h, ?_⟩
    by_cases ht : v.run.state = .running ∧ v.touchedBy (k, p)
    · exact .inr ⟨ht.1, _, runSample_of_touched ht⟩
    · exact .inl (runSample_of_not_touched ht)

theorem endedBy_snoc {s : State} {rs : List (Key × KeyPos)} {k : Key} {p : KeyPos} :
    s.endedBy (rs ++ [(k, p)]) ↔ s.endedBy rs ∨ s.run.state = .stopping ∧ s.run.current = some k ∧
      (s.driveKey k).state = .letgo ∧ p.val < s.cap.repetition := by
  simp only [State.endedBy, List.mem_append, List.mem_singleton, or_and_right, exists_or, exists_eq_left, and_or_left]

/-- One reading more. -/
theorem ReadStill.snoc {rs : List (Key × KeyPos)} {s t : State} {k : Key} {p : KeyPos} (h : ReadStill rs s t)
    (hr : s.clk.state ≠ .running) (hc : s.cap.state ≠ .recording) (hk : k ∉ rs.map Prod.fst) :
    ReadStill (rs ++ [(k, p)]) s (sampleKey t (k, p)) := by
  obtain ⟨hclk, hcap, -⟩ := h.frame
  obtain ⟨hck, hdk⟩ := h.other k hk
  have hthr : t.cap.release = s.cap.release ∧ t.cap.repetition = s.cap.repetition := by rw [hcap]; exact ⟨rfl, rfl⟩
  have hstep := sampleKey_still (k := k) (p := p) (s := t) (by rw [hclk]; exact hr) (by rw [hcap]; exact hc)
  rw [hdk, hthr.2] at hstep
  have hread := keysRead_read t k p
  have hcapRead : t.capRead k p = s.capRead k p := by simp only [State.capRead, hck, hdk, hthr.1, hthr.2]
  have hdriveRead : t.driveRead k p = s.driveRead k p := by simp only [State.driveRead, hdk, hthr.2]
  have hcapKey (j : Key) : (t.read k p).capKey j = if j = k then s.capRead k p else t.capKey j := by
    rw [read_capKey, hcapRead]
  have hdriveKey (j : Key) : (t.read k p).driveKey j = if j = k then s.driveRead k p else t.driveKey j := by
    rw [read_driveKey, hdriveRead]
  generalize t.read k p = v at hstep hread hcapKey hdriveKey
  have hrisen : (s.driveKey k).state = .letgo ∧ p.val < s.cap.repetition → (v.driveKey k).state ≠ .letgo := fun hcond => by
    rw [hdriveKey, if_pos rfl, State.driveRead, if_pos hcond]
    exact fun e => nomatch e
  have hvrun : v.run = t.run := by rw [hread.frame]
  have hparts := runPart_cases k p _ v hrisen
  rw [← hstep, hvrun] at hparts
  generalize sampleKey t (k, p) = w at hparts
  have hkeys : w.cap = v.cap ∧ w.drive = { v.drive with pulse := w.drive.pulse } ∧
      (t.run.state ≠ .running → w.drive.pulse = v.drive.pulse) := by
    obtain ⟨-, -, -, rfl⟩ | ⟨-, rfl | ⟨hrun, wait, rfl⟩⟩ := hparts
    · obtain ⟨-, -, -, -, hfc, hfd, -, -⟩ := finishRun_only v
      exact ⟨hfc, by rw [hfd], fun _ => by rw [hfd]⟩
    · exact ⟨rfl, rfl, fun _ => rfl⟩
    · exact ⟨rfl, rfl, fun hn => absurd hrun hn⟩
  obtain ⟨hwcap, hwdrive, hwpulse⟩ := hkeys
  have hwc (j : Key) : w.capKey j = v.capKey j := by rw [State.capKey, State.capKey, hwcap]
  have hwd (j : Key) : w.driveKey j = v.driveKey j := by rw [State.driveKey, State.driveKey, hwdrive]
  refine ⟨fun j q hj => ?_, fun j hj => ?_, fun hp => ?_, fun hrun => ?_, fun he => ?_, fun he => ?_⟩
  · rw [hwc, hwd, hcapKey, hdriveKey]
    obtain hj | hj := List.mem_append.mp hj
    · have hne : j ≠ k := fun e => hk (e ▸ List.mem_map_of_mem hj)
      rw [if_neg hne, if_neg hne]
      exact h.read j q hj
    · cases List.mem_singleton.mp hj
      rw [if_pos rfl, if_pos rfl]
      exact ⟨rfl, rfl⟩
  · rw [List.map_append, List.mem_append, not_or] at hj
    have hne : j ≠ k := fun e => hj.2 (by simp [e])
    rw [hwc, hwd, hcapKey, hdriveKey, if_neg hne, if_neg hne]
    exact h.other j hj.1
  · have ht := h.drive hp
    have hv := hread.drive (by rw [ht]; exact hp)
    rw [hwdrive, hv, ht]
  · have htrun : t.run.state ≠ .running := by
      by_cases hend : s.endedBy rs
      · rw [h.ended hend, finishRun_state]; decide
      · rw [(h.going hend).2.1 hrun]; exact hrun
    exact ((hwpulse htrun).trans hread.pulse).trans (h.pulse hrun)
  · by_cases hend : s.endedBy rs
    · have hidle : t.run.state = .idle := by rw [h.ended hend, finishRun_state]
      have hwv : w = v := by
        obtain ⟨hs, -⟩ | ⟨-, hw | ⟨hs, -⟩⟩ := hparts
        · rw [hidle] at hs; cases hs
        · exact hw
        · rw [hidle] at hs; cases hs
      rw [hwv]
      have hv : v = t.withKeys v.cap.keys v.drive := hread.frame
      have ht := h.ended hend
      generalize v.cap.keys = keys at hv ⊢
      generalize v.drive = drive at hv ⊢
      rw [hv, ht, finishRun_withKeys]
      rfl
    · obtain ⟨hs, hcur, hcond⟩ := (endedBy_snoc.mp he).resolve_left hend
      obtain ⟨ht, hrun, -⟩ := h.going hend
      have htrun : t.run = s.run := hrun (by rw [hs]; decide)
      have hw : w = finishRun v := by
        obtain ⟨-, -, -, hw⟩ | ⟨hnot, -⟩ := hparts
        · exact hw
        · exact absurd ⟨by rw [htrun]; exact hs, by rw [htrun]; exact hcur, hcond⟩ hnot
      obtain ⟨-, -, -, -, hfc, hfd, -, -⟩ := finishRun_only v
      rw [hw, hfc, hfd]
      congr 1
      have hv : v = t.withKeys v.cap.keys v.drive := hread.frame
      generalize v.cap.keys = keys at hv ⊢
      generalize v.drive = drive at hv ⊢
      rw [hv, ht, htrun]
      rfl
  · have hnot := fun c => he (endedBy_snoc.mpr c)
    have hend : ¬ s.endedBy rs := fun c => hnot (.inl c)
    obtain ⟨ht, hidle, hrunning⟩ := h.going hend
    have hv : v = { s.withKeys v.cap.keys v.drive with run := t.run } := by
      have hv : v = t.withKeys v.cap.keys v.drive := hread.frame
      generalize v.cap.keys = keys at hv ⊢
      generalize v.drive = drive at hv ⊢
      rw [hv]
      generalize t.run = run at ht ⊢
      rw [ht]
      rfl
    obtain ⟨hs, hcur, hcond, -⟩ | ⟨-, rfl | ⟨hrun, wait, rfl⟩⟩ := hparts
    · have hstop : s.run.state ≠ .running := fun e => by rw [hrunning e] at hs; cases hs
      rw [hidle hstop] at hs hcur
      exact absurd (.inr ⟨hs, hcur, hcond⟩) hnot
    · exact ⟨by rw [hvrun]; exact hv, fun hn => hvrun.trans (hidle hn), fun hn => by rw [hvrun]; exact hrunning hn⟩
    · refine ⟨?_, fun hn => ?_, fun hn => ?_⟩
      · rw [hv]
        rfl
      · rw [hidle hn] at hrun
        exact absurd hrun hn
      · exact hrunning hn

/-- The readings of a sample outside RUNNING and RECORDING, each key once. -/
theorem readStill_foldl {rs : List (Key × KeyPos)} {s : State} (hrs : (rs.map Prod.fst).Nodup) (hr : s.clk.state ≠ .running)
    (hc : s.cap.state ≠ .recording) : ReadStill rs s (rs.foldl sampleKey s) := by
  induction rs using List.reverseRecOn with
  | nil => exact .nil s
  | append_singleton rs x ih =>
    rw [List.map_append] at hrs
    obtain ⟨hrs, -, hdisjoint⟩ := List.nodup_append.mp hrs
    rw [List.foldl_append]
    exact (ih hrs).snoc hr hc fun hx => hdisjoint x.1 hx x.1 (by simp) rfl

/-! ### KEY_SAMPLE -/

theorem keySample_due {rs : List (Key × KeyPos)} {s : State} (h : s.wall.sample ≤ s.now) :
    keySample rs s = takeAll (rs.foldl sampleKey { s with wall := { s.wall with sample := s.wall.sample + 500 } }) := if_pos h

theorem touchedBy_any {s : State} {rs : List (Key × KeyPos)} :
    (∃ x ∈ rs, s.touchedBy x) ↔
      s.run.wait = .pending ∧ ∃ x ∈ rs, s.run.current = some x.1 ∧ s.cap.repetition ≤ x.2.val := by
  constructor
  · rintro ⟨x, hx, hw, hc, hr⟩
    exact ⟨hw, x, hx, hc, hr⟩
  · rintro ⟨hw, x, hx, hc, hr⟩
    exact ⟨x, hx, hw, hc, hr⟩

/-- Settles O19: the sample in every state, the strikes it offers again, and its whole effect outside RUNNING and RECORDING. -/
theorem keySampleReachesEveryKey : Obligations.KeySampleReachesEveryKey := by
  refine ⟨fun rs s hwf => ⟨fun hdue => ?_, fun hearly => ?_⟩, fun rs s hwf hdue hr hc => ?_⟩
  · have hrs := nodup_readings hwf
    have hexec : exec (.keySample rs) s = .next (keySample rs s) := rfl
    rw [hexec, keySample_due hdue]
    generalize hs' : ({ s with wall := { s.wall with sample := s.wall.sample + 500 } } : State) = s'
    have hdriveKey (k : Key) : s'.driveKey k = s.driveKey k := by rw [← hs']; rfl
    have hlayer (y : LayerId) : s'.layer y = s.layer y := by rw [← hs']; cases y <;> rfl
    have hsampled := (sampled_foldl hrs s').takings (takeAll_takings _)
    refine ⟨_, rfl, fun k p hk => ?_, ?_, ?_, ?_, ?_, fun hrun => ?_, fun hclk hpower k p hk hrest ht hlow => ?_⟩
    · have hreached := hsampled.reached k p hk
      rw [← hs'] at hreached ⊢
      exact hreached
    · rw [hsampled.wall, ← hs']
    · rw [hsampled.pending, ← hs']
    · rw [hsampled.clk, ← hs']
    · rw [hsampled.map, ← hs']
    · intro touched
      subst hs'
      exact ⟨fun h => hsampled.touched hrun (touchedBy_any.mpr h),
        fun h => hsampled.untouched hrun fun c => h (touchedBy_any.mp c)⟩
    · intro rm
      have hrm : rm = if (bankGet s.map.keys k).state = 1 then (bankGet s.map.keys k).rm.toNat else 1000 := rfl
      clear_value rm
      subst hs'
      refine ⟨fun hs a ha hw hadue => ?_, fun a v d f hplan hb hadue hrings hhot hsag hslot hfire => ?_⟩
      · have hserved : Served k (takeAll (rs.foldl sampleKey { s with wall := { s.wall with sample := s.wall.sample + 500 } })) :=
          (takeAll_takings _).keep (fun _ _ => Served.taking)
            (served_samples hrs hk hclk hpower hs (touched_iff.mpr ht) hlow)
        generalize takeAll (rs.foldl sampleKey { s with wall := { s.wall with sample := s.wall.sample + 500 } }) = t
          at hsampled hserved ha ⊢
        refine or_iff_not_imp_left.mpr fun hstate => ?_
        have hpos : t.clk.position = s.clk.position := congrArg Clock.position hsampled.clk
        have hfired : firedTooSoon k t = true := by
          by_contra hnot
          exact hserved.served (not_not.mp hstate) ((Bool.not_eq_true _).mp hnot) a ha hw (by rw [hpos]; exact hadue)
        obtain ⟨tick, hlast, hlt⟩ := firedTooSoon_iff.mp hfired
        rw [hsampled.map, hpos] at hlt
        exact ⟨tick, hlast, by rw [hrm]; exact hlt⟩
      · refine lone_sample hrs hk hclk hpower hrest (touched_iff.mpr ht) hlow hplan ⟨v, d, f, hb⟩ hadue
          (fun y => by rw [hlayer]; exact hrings y) hhot hsag hslot ((Bool.not_eq_true _).mp fun c => ?_)
        obtain ⟨tick, hlast, hlt⟩ := firedTooSoon_iff.mp c
        have hle := hfire tick hlast
        rw [hrm] at hle
        dsimp only at hlt
        omega
  · exact congrArg Host.Outcome.next (if_neg (Nat.not_le.mpr hearly))
  · have hrs := nodup_readings hwf
    have hexec : exec (.keySample rs) s = .next (keySample rs s) := rfl
    have hread := readStill_foldl hrs (s := { s with wall := { s.wall with sample := s.wall.sample + 500 } }) hr hc
    have htake := takeAll_of_nextTaking_none (nextTaking_of_none_ready fun y =>
      readyRecord_of_not_running (y := y) (by rw [hread.frame.1]; exact hr))
    rw [hexec, keySample_due hdue, htake]
    generalize rs.foldl sampleKey { s with wall := { s.wall with sample := s.wall.sample + 500 } } = t at hread
    exact ⟨t, rfl, fun k p hk => hread.read k p hk, hread.drive, hread.pulse, fun he => hread.ended he,
      fun he => ⟨(hread.going he).1, (hread.going he).2.1⟩⟩

end Sys2Proof.Machine
end

section
/-! SUPPORT. The take store's requests (R24, R27, R30, R31, R32): the answer of each, case by case of its rule's tests, and the
statements O25, O27 and O28 made of these answers. -/

namespace Sys2Proof.Machine

/-! ### A request taken -/

/-- The command of a request that stands in its link's slot places its block's answer as the reply (R167). -/
theorem exec_of_answer {i : Instr} {l : Link} {q : Request} {answer : State → Answer} {s t : State} {st : Status}
    {body : List Byte} (hexec : exec i s = .next (serve l q answer s)) (hl : (s.link l).slots = .serving q)
    (ha : answer s = { status := st, body := body, state := t }) : exec i s = .next (t.replied l q st body) := by
  rw [hexec, serve_standing _ (serves_of_serving hl), ha]

theorem exec_of_refusal {i : Instr} {l : Link} {q : Request} {answer : State → Answer} {s : State} {st : Status}
    (hexec : exec i s = .next (serve l q answer s)) (hl : (s.link l).slots = .serving q) (ha : answer s = refuse st s) :
    exec i s = .next (s.replied l q st []) := exec_of_answer hexec hl ha

/-! ### Take numbers -/

theorem takeOf_eq_some {b : Byte} {t : TakeNo} (h : b.toNat = t.val) : takeOf b = some t := by
  have hlt : b.toNat < 32 := h ▸ t.isLt
  rw [takeOf, dif_pos hlt]
  exact congrArg some (Fin.ext h)

theorem takeOf_eq_none {b : Byte} (h : 31 < b.toNat) : takeOf b = none := dif_neg (by omega)

/-! ### TAKE OPEN (R24) -/

theorem answerTakeOpen_full {l : Link} {s : State} (h : (∀ t, (s.store.entry t).state ≠ .free) ∨ s.store.pool = []) :
    answerTakeOpen l s = refuse .full s := by
  simp only [answerTakeOpen, openTake_eq_none _ h]

theorem answerTakeOpen_of_lowest {l : Link} {s : State} {t : TakeNo} {b : Nat} {rest : List Nat}
    (h : (s.store.entry t).state = .free) (low : ∀ u, u < t → (s.store.entry u).state ≠ .free)
    (hp : s.store.pool = b :: rest) :
    answerTakeOpen l s =
      { status := .ok, body := byte1 t.val ++ byte4 rest.length
        state := { s with store := { s.store with
          pool := rest
          dir := bankSet s.store.dir t
            { state := .opened, writer := some (.link l), length := 0, lastTime := 0, blocks := [b], bound := 0
              origin := none } } } } := by
  simp only [answerTakeOpen, openTake_of_lowest _ h low hp]

/-! ### ERASE (R32) -/

theorem answerErase_badVal {take : Byte} {s : State} (h : takeOf take = none) : answerErase take s = refuse .badVal s := by
  simp only [answerErase, h]

theorem answerErase_noTake {take : Byte} {t : TakeNo} {s : State} (ht : takeOf take = some t)
    (h : (s.store.entry t).state = .free) : answerErase take s = refuse .noTake s := by
  simp only [answerErase, ht, h]

theorem answerErase_inUse {take : Byte} {t : TakeNo} {s : State} (ht : takeOf take = some t)
    (h : (s.store.entry t).state = .opened ∨ (s.store.entry t).state = .closed ∧ (s.store.entry t).bound ≠ 0) :
    answerErase take s = refuse .inUse s := by
  obtain h | ⟨h, hb⟩ := h
  · simp only [answerErase, ht, h]
  · simp only [answerErase, ht, h, if_pos hb]

theorem answerErase_erased {take : Byte} {t : TakeNo} {s : State} (ht : takeOf take = some t)
    (h : (s.store.entry t).state = .closed) (hb : (s.store.entry t).bound = 0) :
    answerErase take s =
      { status := .ok
        body := byte4 (s.store.entry t).blocks.length ++ byte4 (s.store.eraseTake t).pool.length
        state := { s with store := s.store.eraseTake t } } := by
  simp only [answerErase, ht, h, hb, ne_eq, not_true_eq_false, if_false]

/-- A block of a take is one of the directory's blocks. -/
theorem mem_takeBlocks {st : Store} {t : TakeNo} {b : Nat} (h : b ∈ (st.entry t).blocks) : b ∈ st.takeBlocks :=
  List.mem_flatMap.mpr ⟨t, List.mem_finRange t, h⟩

/-- The pool after an erasure is the ascending order of the blocks given back and those that were free (R32). -/
theorem Store.Sound.erase_pool {st : Store} (h : st.Sound) (t : TakeNo) :
    (st.eraseTake t).pool.Pairwise (· < ·) ∧ (st.eraseTake t).pool.Perm ((st.entry t).blocks ++ st.pool) := by
  refine ⟨poolInsertAll_sorted _ h.sorted, poolInsertAll_perm ?_⟩
  have hall : (st.pool ++ st.takeBlocks).Nodup := h.blocks.nodup_iff.mpr List.nodup_range
  obtain ⟨hpool, htakes, hdisjoint⟩ := List.nodup_append.mp hall
  exact List.nodup_append.mpr ⟨(List.nodup_flatMap.mp htakes).1 t (List.mem_finRange t), hpool,
    fun b hb c hc => (hdisjoint c hc b (mem_takeBlocks hb)).symm⟩

/-- Settles O25: the lowest entry and block opened, and the erased take's blocks given back. -/
theorem takeOpenAndErase : Obligations.TakeOpenAndErase := by
  refine ⟨fun l s hl => ⟨fun h => exec_of_refusal rfl hl (answerTakeOpen_full h), fun t b rest h low hp => ?_⟩,
    fun l take s hl => ⟨fun h => exec_of_refusal rfl hl (answerErase_badVal (takeOf_eq_none h)), fun t ht => ?_⟩⟩
  · rw [← byte1_eq, ← byte4_eq]
    exact exec_of_answer rfl hl (answerTakeOpen_of_lowest h low hp)
  · have htake := takeOf_eq_some ht
    refine ⟨fun h => exec_of_refusal rfl hl (answerErase_noTake htake h),
      fun h => exec_of_refusal rfl hl (answerErase_inUse htake h), fun h hb hsound => ?_⟩
    obtain ⟨hsorted, hperm⟩ := (storeSound_iff.mp hsound).1.erase_pool t
    have hlength : s.store.pool.length + (s.store.entry t).blocks.length = (s.store.eraseTake t).pool.length := by
      rw [hperm.length_eq, List.length_append, Nat.add_comm]
    refine ⟨(s.store.eraseTake t).pool, hsorted, hperm, ?_⟩
    rw [hlength, ← byte4_eq, ← byte4_eq]
    exact exec_of_answer rfl hl (answerErase_erased htake h hb)

/-! ### The tests APPEND and CLOSE share (R27) -/

theorem writable_badVal {st : Store} {take : Byte} {l : Link} (h : takeOf take = none) :
    st.writable take l = .error .badVal := by
  simp only [Store.writable, h]

theorem writable_noTake {st : Store} {take : Byte} {l : Link} {t : TakeNo} (ht : takeOf take = some t)
    (h : (st.entry t).state = .free) : st.writable take l = .error .noTake := by
  simp only [Store.writable, ht, h]

theorem writable_state {st : Store} {take : Byte} {l : Link} {t : TakeNo} (ht : takeOf take = some t)
    (h : (st.entry t).state = .closed) : st.writable take l = .error .state := by
  simp only [Store.writable, ht, h]

theorem writable_held {st : Store} {take : Byte} {l : Link} {t : TakeNo} (ht : takeOf take = some t)
    (h : (st.entry t).state = .opened) (hw : (st.entry t).writer ≠ some (.link l)) :
    st.writable take l = .error .held := by
  simp only [Store.writable, ht, h, if_neg hw]

theorem writable_own {st : Store} {take : Byte} {l : Link} {t : TakeNo} (ht : takeOf take = some t)
    (h : (st.entry t).state = .opened) (hw : (st.entry t).writer = some (.link l)) :
    st.writable take l = .ok t := by
  simp only [Store.writable, ht, h, if_pos hw]

theorem answerAppend_refused {l : Link} {take : Byte} {rs : List Record} {s : State} {st : Status}
    (h : s.store.writable take l = .error st) : answerAppend l take rs s = refuse st s := by
  simp only [answerAppend, h]

/-- What APPEND answers of the writer's own OPEN take: the tests of R28 record by record. -/
theorem answerAppend_taken {l : Link} {take : Byte} {rs : List Record} {s : State} {t : TakeNo}
    (h : s.store.writable take l = .ok t) :
    answerAppend l take rs s =
      { status := (Store.appendAll t rs 0 s.store).1.status
        body := (Store.appendAll t rs 0 s.store).2.appendBody t (Store.appendAll t rs 0 s.store).1.count
        state := { s with store := (Store.appendAll t rs 0 s.store).2 } } := by
  simp only [answerAppend, h]

/-! ### CLOSE (R30) -/

theorem answerClose_badVal {l : Link} {take : Byte} {endTime : Word32} {s : State}
    (h : takeOf take = none ∨ 2147483647 < endTime.toNat) : answerClose l take endTime s = refuse .badVal s := if_pos h

/-- CLOSE with its end time in range is turned away as APPEND is. -/
theorem answerClose_refused {l : Link} {take : Byte} {endTime : Word32} {s : State} {st : Status}
    (he : endTime.toNat ≤ 2147483647) (h : s.store.writable take l = .error st) :
    answerClose l take endTime s = refuse st s := by
  by_cases ht : takeOf take = none
  · have hst := (writable_badVal ht).symm.trans h
    cases hst
    exact answerClose_badVal (.inl ht)
  · rw [answerClose, if_neg (not_or.mpr ⟨ht, Nat.not_lt.mpr he⟩)]
    simp only [h]

theorem answerClose_closed {l : Link} {take : Byte} {endTime : Word32} {s : State} {t : TakeNo}
    (he : endTime.toNat ≤ 2147483647) (h : s.store.writable take l = .ok t) :
    answerClose l take endTime s =
      { status := .ok
        body := byte4 ((s.store.closeTake t endTime.toNat).entry t).length ++
          byte4 ((s.store.closeTake t endTime.toNat).entry t).lastTime
        state := { s with store := s.store.closeTake t endTime.toNat } } := by
  have ht : takeOf take ≠ none := by rw [(writable_ok h).1]; exact Option.some_ne_none t
  rw [answerClose, if_neg (not_or.mpr ⟨ht, Nat.not_lt.mpr he⟩)]
  simp only [h]

/-- The last time of a closed take as a reply sends it. -/
theorem byte4_endRecord_time (e : TakeEntry) (time : Nat) :
    byte4 (endRecord e time).time.toNat = bytes32 (BitVec.ofNat 32 (max e.lastTime time)) := by
  rw [byte4_eq, BitVec.ofNat_toNat, BitVec.setWidth_eq]
  rfl

/-- Settles O27: APPEND and CLOSE turned away by the same tests, and the take closed with its END. -/
theorem appendAndCloseNeedTheWritersOpenTake : Obligations.AppendAndCloseNeedTheWritersOpenTake := by
  refine ⟨fun l take rs endTime s => ?_, fun l take t endTime s hl ht he hs hw wf => ?_⟩
  · have hrefused {st : Status} (h : s.store.writable take l = .error st) :
        ((s.link l).slots = .serving (.append take rs) →
            exec (.append l take rs) s = .next (s.replied l (.append take rs) st [])) ∧
          ((s.link l).slots = .serving (.close take endTime) → endTime.toNat ≤ 2147483647 →
            exec (.close l take endTime) s = .next (s.replied l (.close take endTime) st [])) :=
      ⟨fun hl => exec_of_refusal rfl hl (answerAppend_refused h),
        fun hl he => exec_of_refusal rfl hl (answerClose_refused he h)⟩
    exact ⟨fun h => hrefused (writable_badVal (takeOf_eq_none h)),
      fun hl he => exec_of_refusal rfl hl (answerClose_badVal (.inr he)),
      fun t ht => ⟨fun h => hrefused (writable_noTake (takeOf_eq_some ht) h),
        fun h => hrefused (writable_state (takeOf_eq_some ht) h),
        fun h hw => hrefused (writable_held (takeOf_eq_some ht) h hw)⟩⟩
  · refine ⟨_, closedAt_closeTake t endTime.toNat wf, ?_⟩
    rw [exec_of_answer rfl hl (answerClose_closed he (writable_own (takeOf_eq_some ht) hs hw)), entry_closeTake_same,
      byte4_endRecord_time, byte4_eq]

/-! ### READ and INFO (R31) -/

/-- The records of a take from an index on, one by one. -/
theorem records_eq_map (st : Store) (t : TakeNo) (i n : Nat) :
    st.records t i n = (List.range n).map fun j => st.record t (i + j) := by
  induction n generalizing i with
  | zero => rfl
  | succ n ih =>
    rw [Store.records, ih, List.range_succ_eq_map, List.map_cons, List.map_map]
    refine congrArg (List.cons _) (List.map_congr_left fun j _ => ?_)
    simp only [Function.comp_apply, Nat.add_assoc, Nat.add_comm 1 j]

theorem recordsBytes_records (st : Store) (t : TakeNo) (i n : Nat) :
    recordsBytes (st.records t i n) = (List.range n).flatMap fun j => (st.record t (i + j)).bytes := by
  rw [records_eq_map, recordsBytes, List.flatMap_map]

theorem answerRead_badVal {take : Byte} {start : Word32} {count : Byte} {s : State} (h : takeOf take = none) :
    answerRead take start count s = refuse .badVal s := by
  simp only [answerRead, h]

theorem answerRead_noTake {take : Byte} {start : Word32} {count : Byte} {s : State} {t : TakeNo} (ht : takeOf take = some t)
    (h : (s.store.entry t).state = .free) : answerRead take start count s = refuse .noTake s := by
  simp only [answerRead, ht, h, if_true]

theorem answerRead_outside {take : Byte} {start : Word32} {count : Byte} {s : State} {t : TakeNo} (ht : takeOf take = some t)
    (hs : (s.store.entry t).state ≠ .free)
    (h : count.toNat < 1 ∨ 30 < count.toNat ∨ (s.store.entry t).length < start.toNat) :
    answerRead take start count s = refuse .badVal s := by
  simp only [answerRead, ht, if_neg hs]
  obtain hc | hstart := or_assoc.mpr h
  · rw [if_pos hc]
  · rw [if_pos hstart, ite_self]

theorem answerRead_records {take : Byte} {start : Word32} {count : Byte} {s : State} {t : TakeNo} (ht : takeOf take = some t)
    (hs : (s.store.entry t).state ≠ .free) (h1 : 1 ≤ count.toNat) (h30 : count.toNat ≤ 30)
    (h : start.toNat ≤ (s.store.entry t).length) :
    answerRead take start count s =
      { status := .ok
        body := byte1 (s.store.entry t).state.code ++ byte4 (s.store.entry t).length ++ recordsBytes
          (s.store.records t start.toNat (min count.toNat ((s.store.entry t).length - start.toNat)))
        state := s } := by
  simp only [answerRead, ht, if_neg hs, if_neg (show ¬ (count.toNat < 1 ∨ 30 < count.toNat) by omega),
    if_neg (Nat.not_lt.mpr h)]

theorem answerInfo_badVal {take : Byte} {s : State} (h : takeOf take = none) : answerInfo take s = refuse .badVal s := by
  simp only [answerInfo, h]

theorem answerInfo_body {take : Byte} {s : State} {t : TakeNo} (ht : takeOf take = some t) :
    answerInfo take s = { status := .ok, body := s.store.infoBody t, state := s } := by
  simp only [answerInfo, ht]

theorem byte1_takeState (st : TakeState) :
    byte1 st.code = [(match st with | .free => 0 | .opened => 1 | .closed => 2 : Byte)] := by
  cases st <;> rfl

theorem optByte1_writer (w : Option Writer) :
    optByte1 (w.map Writer.code) =
      [(match w with | some (.link .a) => 0 | some (.link .b) => 1 | some .capture => 2 | none => 255 : Byte)] := by
  match w with
  | some (.link .a) => rfl
  | some (.link .b) => rfl
  | some .capture => rfl
  | none => rfl

theorem optByte4_eq (o : Option Nat) :
    optByte4 o = (match o with | some n => bytes32 (BitVec.ofNat 32 n) | none => [255, 255, 255, 255]) := by
  cases o with
  | some n => exact byte4_eq n
  | none => rfl

/-- Settles O28: the refusals of READ, and both bodies read from the take's entry. -/
theorem readAndInfoDescribeATake : Obligations.ReadAndInfoDescribeATake := by
  intro l take start count s
  refine ⟨fun h => ⟨fun hl => exec_of_refusal rfl hl (answerRead_badVal (takeOf_eq_none h)),
    fun hl => exec_of_refusal rfl hl (answerInfo_badVal (takeOf_eq_none h))⟩, fun t ht => ?_⟩
  have htake := takeOf_eq_some ht
  refine ⟨fun h hl => exec_of_refusal rfl hl (answerRead_noTake htake h),
    fun hs h hl => exec_of_refusal rfl hl (answerRead_outside htake hs h), fun hs h1 h30 h hl => ?_, fun hl => ?_⟩
  · have hread := exec_of_answer (i := .read l take start count) rfl hl (answerRead_records htake hs h1 h30 h)
    rw [recordsBytes_records, byte1_takeState, byte4_eq] at hread
    exact hread
  · have hinfo := exec_of_answer (i := .info l take) rfl hl (answerInfo_body htake)
    simp only [Store.infoBody, byte1_takeState, optByte1_writer, optByte4_eq, byte4_eq] at hinfo
    exact hinfo

end Sys2Proof.Machine
end

section
/-! SUPPORT. APPEND (R26, R27, R28): that the records of a sound store lie apart from each other, what the records of one APPEND
leave of the store, and the statement O26. -/

namespace Sys2Proof.Machine

/-! ### Records lie apart (R22, R23) -/

/-- In a sound store one block stands in one place of one take's block list (R23). -/
theorem Store.Sound.block_unique {st : Store} (h : st.Sound) {t u : TakeNo} {i j : Nat}
    (hi : i < (st.entry t).blocks.length) (hj : j < (st.entry u).blocks.length)
    (he : (st.entry t).blocks[i] = (st.entry u).blocks[j]) : t = u ∧ i = j := by
  have hnodup : st.takeBlocks.Nodup := (List.nodup_append.mp (h.blocks.nodup_iff.mpr List.nodup_range)).2.1
  obtain ⟨hone, hpair⟩ := List.nodup_flatMap.mp hnodup
  have htu : t = u := by
    by_contra hne
    have hsymm : Std.Symm (Function.onFun List.Disjoint fun t => (st.entry t).blocks) := ⟨fun _ _ h => List.Disjoint.symm h⟩
    have hdisjoint := hpair.forall (List.mem_finRange t) (List.mem_finRange u) hne
    exact hdisjoint (List.getElem_mem hi) (he ▸ List.getElem_mem hj)
  subst htu
  exact ⟨rfl, (List.Nodup.getElem_inj_iff (hone t (List.mem_finRange t))).mp he⟩

/-- A take's record has its place within its blocks. -/
def TakeEntry.Placed (e : TakeEntry) (i : Nat) : Prop := i < Config.blockRecords * e.blocks.length

/-- The records of a sound store do not overlap (R22, R23). -/
theorem Store.Sound.records_apart {st : Store} (h : st.Sound) {t u : TakeNo} {i j : Nat} (hi : (st.entry t).Placed i)
    (hj : (st.entry u).Placed j) (hne : ¬ (t = u ∧ i = j)) :
    (st.entry t).recordAddr i + 8 ≤ (st.entry u).recordAddr j ∨
      (st.entry u).recordAddr j + 8 ≤ (st.entry t).recordAddr i := by
  unfold TakeEntry.Placed at hi hj
  have hbi : i / Config.blockRecords < (st.entry t).blocks.length := Nat.div_lt_of_lt_mul hi
  have hbj : j / Config.blockRecords < (st.entry u).blocks.length := Nat.div_lt_of_lt_mul hj
  have hunique := fun he => h.block_unique hbi hbj he
  simp only [TakeEntry.recordAddr, placeAddr, List.getD_eq_getElem _ _ hbi, List.getD_eq_getElem _ _ hbj]
  generalize (st.entry t).blocks[i / Config.blockRecords] = b at hunique ⊢
  generalize (st.entry u).blocks[j / Config.blockRecords] = c at hunique ⊢
  have hplace : b = c → i % Config.blockRecords ≠ j % Config.blockRecords := fun hbc hmod => by
    obtain ⟨htu, hdiv⟩ := hunique hbc
    refine hne ⟨htu, ?_⟩
    rw [← Nat.div_add_mod i Config.blockRecords, ← Nat.div_add_mod j Config.blockRecords, hdiv, hmod]
  simp only [Config.blockRecords] at hplace ⊢
  omega

/-- A record outside the eight bytes written reads as before. -/
theorem memRecord_of_sameOutside {m m' : List Host.Cell} {a b : Nat} (h : SameOutside m m' a)
    (hb : b + 8 ≤ a ∨ a + 8 ≤ b) : memRecord m' b = memRecord m b := by
  have hbytes : memReadBytes m' b 8 = memReadBytes m b 8 := by
    rw [memReadBytes_eq, memReadBytes_eq]
    refine List.map_congr_left fun i hi => h _ ?_
    have := List.mem_range.mp hi
    omega
  rw [memRecord, hbytes, memRecord]

/-- The records a take holds have their places. -/
theorem TakeEntry.Sound.placed {e : TakeEntry} (h : e.Sound) (hs : e.state ≠ .free) {i : Nat} (hi : i < e.length) :
    e.Placed i := by
  unfold TakeEntry.Placed
  cases hst : e.state with
  | free => exact absurd hst hs
  | opened => exact hi.trans (h.opened hst)
  | closed => exact hi.trans_le (h.closed hst).2

/-! ### Records added to a take (R26, R28) -/

/-- The last time of a take after a list of records. -/
def lastTimeAfter (e : TakeEntry) (rs : List Record) : Nat := ((rs.getLast?).map fun r => r.time.toNat).getD e.lastTime

/-- `st'` is the sound store `st` with the records `rs` at the end of the OPEN take `t`, whatever blocks they brought it. -/
structure Store.Extended (st : Store) (t : TakeNo) (rs : List Record) (st' : Store) : Prop where
  sound   : st'.Sound
  memory  : Memory.wf st'.mem = true
  entry   : st'.entry t =
    { (st.entry t) with
      length := (st.entry t).length + rs.length, lastTime := lastTimeAfter (st.entry t) rs
      blocks := (st'.entry t).blocks }
  room    : (st'.entry t).blocks.length + st'.pool.length = (st.entry t).blocks.length + st.pool.length
  other   : ∀ u, u ≠ t → st'.entry u = st.entry u
  written : ∀ i (h : i < rs.length), st'.record t ((st.entry t).length + i) = rs[i]
  stands  : ∀ u i, (st.entry u).state ≠ .free → i < (st.entry u).length → st'.record u i = st.record u i

theorem Store.Extended.nil {st : Store} (t : TakeNo) (h : st.Sound) (w : Memory.wf st.mem = true) : st.Extended t [] st :=
  ⟨h, w, rfl, rfl, fun _ _ => rfl, fun _ hi => absurd hi (Nat.not_lt_zero _), fun _ _ _ _ => rfl⟩

theorem lastTimeAfter_append {e e' : TakeEntry} {rs rs' : List Record} (h : e'.lastTime = lastTimeAfter e rs) :
    lastTimeAfter e' rs' = lastTimeAfter e (rs ++ rs') := by
  unfold lastTimeAfter at h ⊢
  rw [h, List.getLast?_append]
  cases rs'.getLast? <;> rfl

theorem Store.Extended.length {st st' : Store} {t : TakeNo} {rs : List Record} (h : st.Extended t rs st') :
    (st'.entry t).length = (st.entry t).length + rs.length := by rw [h.entry]

theorem Store.Extended.lastTime {st st' : Store} {t : TakeNo} {rs : List Record} (h : st.Extended t rs st') :
    (st'.entry t).lastTime = lastTimeAfter (st.entry t) rs := by rw [h.entry]

theorem Store.Extended.state {st st' : Store} {t : TakeNo} {rs : List Record} (h : st.Extended t rs st') (u : TakeNo) :
    (st'.entry u).state = (st.entry u).state := by
  by_cases hu : u = t
  · rw [hu, h.entry]
  · rw [h.other u hu]

theorem Store.Extended.length_le {st st' : Store} {t : TakeNo} {rs : List Record} (h : st.Extended t rs st') (u : TakeNo) :
    (st.entry u).length ≤ (st'.entry u).length := by
  by_cases hu : u = t
  · rw [hu, h.length]; exact Nat.le_add_right ..
  · rw [h.other u hu]

/-- Records added after others already added. -/
theorem Store.Extended.trans {st st₁ st₂ : Store} {t : TakeNo} {rs rs' : List Record} (h : st.Extended t rs st₁)
    (g : st₁.Extended t rs' st₂) (ht : (st.entry t).state = .opened) : st.Extended t (rs ++ rs') st₂ where
  sound := g.sound
  memory := g.memory
  entry := by
    rw [g.entry, lastTimeAfter_append h.lastTime, h.length, List.length_append, Nat.add_assoc, h.entry]
  room := g.room.trans h.room
  other u hu := (g.other u hu).trans (h.other u hu)
  written i hi := by
    by_cases hlt : i < rs.length
    · have hold : (st.entry t).length + i < (st₁.entry t).length := by rw [h.length]; omega
      rw [g.stands t _ (by rw [h.state, ht]; decide) hold, h.written i hlt, List.getElem_append_left hlt]
    · have hlen : i - rs.length < rs'.length := by rw [List.length_append] at hi; omega
      have hplace : (st.entry t).length + i = (st₁.entry t).length + (i - rs.length) := by rw [h.length]; omega
      rw [hplace, g.written _ hlen, List.getElem_append_right (Nat.not_lt.mp hlt)]
  stands u i hu hi := by
    rw [g.stands u i (by rw [h.state]; exact hu) (hi.trans_le (h.length_le u)), h.stands u i hu hi]

/-- A block added at the end of a take's list leaves the addresses of the places before it. -/
theorem recordAddr_of_appended {e e' : TakeEntry} {bs : List Nat} (h : e'.blocks = e.blocks ++ bs) {i : Nat} (hi : e.Placed i) :
    e'.recordAddr i = e.recordAddr i := by
  have hb : i / Config.blockRecords < e.blocks.length := Nat.div_lt_of_lt_mul hi
  rw [TakeEntry.recordAddr, TakeEntry.recordAddr, h, List.getD_append _ _ _ _ hb]

/-- One record appended to an OPEN take of a sound store leaves every record already in a take. -/
theorem Store.Sound.extended_append {st st' : Store} {t : TakeNo} {r : Record} (h : st.Sound) (w : Memory.wf st.mem = true)
    (ht : (st.entry t).state = .opened) (ha : st.appendRecord t r = some st') : st.Extended t [r] st' := by
  obtain ⟨hentry, hblocks, hother, hwritten, hsame⟩ := appended_of_appendRecord ha w
  have hsound := h.append ht ha
  have hlist : ∃ bs, (st'.entry t).blocks = (st.entry t).blocks ++ bs := by
    obtain ⟨-, hb, -⟩ | ⟨-, b, -, hb⟩ := hblocks
    · exact ⟨[], by rw [hb, List.append_nil]⟩
    · exact ⟨[b], hb⟩
  have hstate : (st'.entry t).state = .opened := by rw [hentry]; exact ht
  have hlength : (st'.entry t).length = (st.entry t).length + 1 := by rw [hentry]
  have hnew : (st'.entry t).Placed (st.entry t).length :=
    (hsound.entries t).placed (by rw [hstate]; decide) (by rw [hlength]; exact Nat.lt_succ_self _)
  refine ⟨hsound, appendRecord_mem_wf ha w, hentry, ?_, hother, fun i hi => ?_, fun u i hu hi => ?_⟩
  · obtain ⟨-, hb, hp⟩ | ⟨-, b, hp, hb⟩ := hblocks
    · rw [hb, hp]
    · rw [hb, hp, List.length_append, List.length_singleton, List.length_cons, Nat.add_assoc, Nat.add_comm 1]
  · obtain rfl : i = 0 := Nat.lt_one_iff.mp hi
    exact hwritten
  · have hold := (h.entries u).placed hu hi
    have haddr : (st'.entry u).recordAddr i = (st.entry u).recordAddr i ∧ (st'.entry u).Placed i := by
      by_cases hut : u = t
      · subst hut
        obtain ⟨bs, hbs⟩ := hlist
        refine ⟨recordAddr_of_appended hbs hold, hold.trans_le ?_⟩
        rw [hbs, List.length_append]
        exact Nat.mul_le_mul_left _ (Nat.le_add_right ..)
      · rw [hother u hut]; exact ⟨rfl, hold⟩
    have hne : ¬ (u = t ∧ i = (st.entry t).length) := by
      rintro ⟨rfl, rfl⟩
      exact Nat.lt_irrefl _ hi
    rw [Store.record, memRecord_of_sameOutside hsame (hsound.records_apart haddr.2 hnew hne), haddr.1, Store.record]

/-- The room of an OPEN take, counted over its own blocks and the pool's (R26). -/
theorem hasRoom_iff {st : Store} {t : TakeNo} (h : (st.entry t).length < Config.blockRecords * (st.entry t).blocks.length) :
    st.HasRoom t ↔ (st.entry t).length + 1 < Config.blockRecords * ((st.entry t).blocks.length + st.pool.length) := by
  unfold Store.HasRoom
  cases hp : st.pool with
  | nil => simp
  | cons b pool =>
    refine iff_of_true (.inr (List.cons_ne_nil b pool)) ?_
    rw [Config.blockRecords] at h ⊢
    rw [List.length_cons]
    omega

/-! ### The records of one APPEND (R28) -/

theorem appendAll_legal {t : TakeNo} {r : Record} {rs : List Record} {n : Nat} {st st' : Store} (hl : r.legal = true)
    (he : r.isEnd = false) (ho : (st.entry t).lastTime ≤ r.time.toNat) (ha : st.appendRecord t r = some st') :
    Store.appendAll t (r :: rs) n st = Store.appendAll t rs (n + 1) st' := by
  simp [Store.appendAll, hl, he, Nat.not_lt.mpr ho, ha]

/-- The status of the record an APPEND stops at, in the order of R28's tests. -/
theorem appendAll_stops {t : TakeNo} {r : Record} {rs : List Record} {n : Nat} {st : Store} {status : Status}
    (h : ¬ (r.legal = true ∧ r.isEnd = false) ∧ status = .badVal ∨ r.legal = true ∧ r.isEnd = false ∧
      (r.time.toNat < (st.entry t).lastTime ∧ status = .order ∨
        (st.entry t).lastTime ≤ r.time.toNat ∧ ¬ st.HasRoom t ∧ status = .full)) :
    Store.appendAll t (r :: rs) n st = ({ status := status, count := n }, st) := by
  obtain ⟨hbad, rfl⟩ | ⟨hl, he, ⟨ho, rfl⟩ | ⟨ho, hroom, rfl⟩⟩ := h
  · have htest : (!r.legal || r.isEnd) = true := by
      cases hl : r.legal <;> cases he : r.isEnd <;> simp_all
    simp only [Store.appendAll, htest, if_true]
  · simp [Store.appendAll, hl, he, ho]
  · simp [Store.appendAll, hl, he, Nat.not_lt.mpr ho, appendRecord_of_no_room r hroom]

/-- The records before the first refused one are written in order (R28). -/
theorem appendAll_good {t : TakeNo} {rest : List Record} (good : List Record) (n : Nat) {st : Store} (h : st.Sound)
    (w : Memory.wf st.mem = true) (ht : (st.entry t).state = .opened)
    (hgood : ∀ r ∈ good, r.legal = true ∧ r.isEnd = false ∧ (st.entry t).lastTime ≤ r.time.toNat)
    (hsorted : good.Pairwise (fun a b => a.time.toNat ≤ b.time.toNat))
    (hroom : (st.entry t).length + good.length + 1 ≤
      Config.blockRecords * ((st.entry t).blocks.length + st.pool.length)) :
    ∃ st', st.Extended t good st' ∧
      Store.appendAll t (good ++ rest) n st = Store.appendAll t rest (n + good.length) st' := by
  induction good generalizing n st with
  | nil => exact ⟨st, .nil t h w, rfl⟩
  | cons r good ih =>
    obtain ⟨hlegal, hend, horder⟩ := hgood r List.mem_cons_self
    obtain ⟨hfirst, hsorted⟩ := List.pairwise_cons.mp hsorted
    rw [List.length_cons] at hroom
    have hplace : st.HasRoom t := (hasRoom_iff ((h.entries t).opened ht)).mpr (by omega)
    obtain ⟨st₁, ha⟩ := appendRecord_of_room r hplace
    have hone := h.extended_append w ht ha
    have hlast : (st₁.entry t).lastTime = r.time.toNat := hone.lastTime
    obtain ⟨st', hext, heq⟩ := ih (n + 1) hone.sound hone.memory (by rw [hone.state, ht])
      (fun x hx => by
        obtain ⟨hl, he, -⟩ := hgood x (List.mem_cons_of_mem _ hx)
        exact ⟨hl, he, hlast ▸ hfirst x hx⟩)
      hsorted (by rw [hone.room, hone.length, List.length_singleton]; omega)
    refine ⟨st', hone.trans hext ht, ?_⟩
    rw [List.cons_append, appendAll_legal hlegal hend horder ha, heq, List.length_cons, Nat.add_assoc, Nat.add_comm 1]

/-- Settles O26: the records before the first refused one written, and that one's status. -/
theorem appendStopsAtTheFirstRefusedRecord : Obligations.AppendStopsAtTheFirstRefusedRecord := by
  intro l take t good rest status s hl ht w hsound e blocks last hs hw hgood hsorted hroom hrest
  have hstore := (storeSound_iff.mp hsound).1
  obtain ⟨st', hext, heq⟩ := appendAll_good (rest := rest) good 0 hstore w hs hgood hsorted hroom
  have hroom' := hasRoom_iff ((hext.sound.entries t).opened ((hext.state t).trans hs))
  rw [hext.room, hext.length] at hroom'
  have hlast : (st'.entry t).lastTime = last := hext.lastTime
  have hstops : Store.appendAll t rest (0 + good.length) st' = ({ status := status, count := good.length }, st') := by
    rw [Nat.zero_add]
    obtain ⟨rfl, rfl⟩ | ⟨r, more, rfl, hstop⟩ := hrest
    · rfl
    · refine appendAll_stops (hstop.imp_right (And.imp_right (And.imp_right (Or.imp (fun h => ?_) fun h => ?_))))
      · exact ⟨by rw [hlast]; exact h.1, h.2⟩
      · obtain ⟨hle, hfull, hstatus⟩ := h
        refine ⟨by rw [hlast]; exact hle, fun hplace => ?_, hstatus⟩
        have hlt := hroom'.mp hplace
        rw [hfull] at hlt
        exact Nat.lt_irrefl _ hlt
  rw [hstops] at heq
  refine ⟨st', ?_, hext.entry, hext.written, hext.other, hext.stands⟩
  rw [exec_of_answer rfl hl (answerAppend_taken (writable_own (takeOf_eq_some ht) hs hw)), heq, Store.appendBody,
    hext.length, hlast, byte4_eq, byte4_eq, byte4_eq]

end Sys2Proof.Machine
end

section
/-! SUPPORT. LAYER BIND (R33, R35, R70, R71): the answer case by case of its tests, the ring filled from an empty one, and the
statement O41. -/

namespace Sys2Proof.Machine

/-! ### Layer numbers (R70) -/

theorem layerOf_eq_some {b : Byte} {y : LayerId} (h : b.toNat = y.code) : layerOf b = some y := by
  cases y with
  | l0 => rw [layerOf, if_pos (BitVec.eq_of_toNat_eq h)]
  | l1 =>
    obtain rfl : b = 1 := BitVec.eq_of_toNat_eq h
    rfl

theorem layerOf_eq_none {b : Byte} (h : 1 < b.toNat) : layerOf b = none := by
  have h0 : b ≠ 0 := by rintro rfl; exact absurd h (by decide)
  have h1 : b ≠ 1 := by rintro rfl; exact absurd h (by decide)
  rw [layerOf, if_neg h0, if_neg h1]

/-! ### A ring filled from an empty one (R35) -/

/-- A refill of an empty ring copies the take's records from the cursor on, as many as fit. -/
theorem refill_of_empty {y : LayerId} {t : TakeNo} {s : State} (hs : (s.layer y).source = some (.take t))
    (hr : (s.layer y).ring = []) (hlow : 0 < (s.layer y).low) :
    refill y s = s.setLayer y
      { (s.layer y) with
        ring := (List.range (min 256 ((s.store.entry t).length - (s.layer y).cursor))).map fun i =>
          s.store.record t ((s.layer y).cursor + i)
        cursor := (s.layer y).cursor + min 256 ((s.store.entry t).length - (s.layer y).cursor) } := by
  simp only [refill, hs, hr, List.length_nil, hlow, true_and, List.nil_append, records_eq_map, Config.ringPlaces, Nat.sub_zero]
  split
  · rfl
  · next hend =>
    rw [Nat.sub_eq_zero_of_le (Nat.not_lt.mp hend), Nat.min_zero, List.range_zero, List.map_nil, Nat.add_zero, ← hr, ← hs,
      setLayer_layer]

/-! ### LAYER BIND (R71, R176) -/

/-- A FREE layer given a source: its marks and its settings kept, all else of it fresh (R71). -/
def Layer.fresh (l : Layer) (src : Source) (ring : List Record) (cursor : Nat) : Layer :=
  { l with
    state := .bound, source := some src, ring := ring, cursor := cursor, fedTime := 0, endFed := false, cue := none
    origin := none, chase := Vector.replicate 3 none, endFetched := false, demands := Vector.replicate 3 none
    highArmed := true, lowArmed := true }

theorem answerLayerBind_unreadable {l : Link} {layer source take : Byte} {s : State}
    (h : 1 < layer.toNat ∨ 1 < source.toNat ∨ source = 1 ∧ take ≠ 0) :
    answerLayerBind l layer source take s = refuse .badVal s := by
  unfold answerLayerBind
  split
  · rfl
  · next y hy =>
    obtain h | h | h := h
    · rw [layerOf_eq_none h] at hy; cases hy
    · have h0 : source ≠ 0 := by rintro rfl; exact absurd h (by decide)
      have h1 : source ≠ 1 := by rintro rfl; exact absurd h (by decide)
      exact if_pos ⟨h0, h1⟩
    · exact (if_neg fun c => c.2 h.1).trans (if_pos h)

section
variable {l : Link} {layer source take : Byte} {y : LayerId} {s : State}

theorem answerLayerBind_state (hy : layerOf layer = some y) (hsrc : source = 0 ∨ source = 1 ∧ take = 0)
    (h : (s.layer y).state ≠ .free) : answerLayerBind l layer source take s = refuse .state s := by
  obtain rfl | ⟨rfl, rfl⟩ := hsrc <;> simp [answerLayerBind, hy, h]

theorem answerLayerBind_stream (hy : layerOf layer = some y) (h : (s.layer y).state = .free) :
    answerLayerBind l layer 1 0 s =
      { status := .ok, body := layerReport ((s.layer y).fresh (.stream l) [] 0)
        state := s.setLayer y ((s.layer y).fresh (.stream l) [] 0) } := by
  simp [answerLayerBind, hy, h, Layer.fresh]

theorem answerLayerBind_badTake (hy : layerOf layer = some y) (h : (s.layer y).state = .free) (ht : takeOf take = none) :
    answerLayerBind l layer 0 take s = refuse .badVal s := by
  simp [answerLayerBind, hy, h, ht]

theorem answerLayerBind_noTake {t : TakeNo} (hy : layerOf layer = some y) (h : (s.layer y).state = .free)
    (ht : takeOf take = some t) (hs : (s.store.entry t).state = .free) :
    answerLayerBind l layer 0 take s = refuse .noTake s := by
  simp [answerLayerBind, hy, h, ht, hs]

theorem answerLayerBind_inUse {t : TakeNo} (hy : layerOf layer = some y) (h : (s.layer y).state = .free)
    (ht : takeOf take = some t) (hs : (s.store.entry t).state = .opened) :
    answerLayerBind l layer 0 take s = refuse .inUse s := by
  simp [answerLayerBind, hy, h, ht, hs]

/-- The record of a take does not depend on its bound-layer count. -/
theorem record_setBound (st : Store) (t u : TakeNo) (f : Nat → Nat) (i : Nat) :
    (st.setBound t f).record u i = st.record u i := by
  rw [Store.record, Store.record, entry_setBound]
  split
  · next h => subst h; rfl
  · rfl

theorem length_setBound (st : Store) (t : TakeNo) (f : Nat → Nat) :
    ((st.setBound t f).entry t).length = (st.entry t).length := by rw [entry_setBound, if_pos rfl]

/-- A CLOSED take bound to a FREE layer: its count raised, and its first records in the ring (R33, R35). -/
theorem answerLayerBind_take {t : TakeNo} (hy : layerOf layer = some y) (h : (s.layer y).state = .free)
    (ht : takeOf take = some t) (hs : (s.store.entry t).state = .closed) (hlow : 0 < (s.layer y).low) :
    let n := min 256 (s.store.entry t).length
    let bound := (s.layer y).fresh (.take t) ((List.range n).map fun i => s.store.record t i) n
    answerLayerBind l layer 0 take s =
      { status := .ok, body := layerReport bound
        state := State.setLayer { s with store := s.store.setBound t (· + 1) } y bound } := by
  intro n bound
  have hfilled : refill y (State.setLayer { s with store := s.store.setBound t (· + 1) } y
      ((s.layer y).fresh (.take t) [] 0)) =
        State.setLayer { s with store := s.store.setBound t (· + 1) } y bound := by
    rw [refill_of_empty (t := t) (by rw [layer_setLayer_same]; rfl) (by rw [layer_setLayer_same]; rfl)
      (by rw [layer_setLayer_same]; exact hlow), setLayer_setLayer]
    simp only [layer_setLayer_same, setLayer_store, record_setBound, length_setBound, Layer.fresh, Nat.sub_zero, Nat.zero_add]
    rfl
  have hanswer : answerLayerBind l layer 0 take s =
      { status := .ok
        body := layerReport ((refill y (State.setLayer { s with store := s.store.setBound t (· + 1) } y
          ((s.layer y).fresh (.take t) [] 0))).layer y)
        state := refill y (State.setLayer { s with store := s.store.setBound t (· + 1) } y
          ((s.layer y).fresh (.take t) [] 0)) } := by
    simp [answerLayerBind, hy, h, ht, hs, Layer.fresh]
  rw [hanswer, hfilled, layer_setLayer_same]

end

/-- Settles O41: the refusals in their order, the stream bound, and the take bound with its first records. -/
theorem layerBindGivesTheLayerItsSource : Obligations.LayerBindGivesTheLayerItsSource := by
  intro l layer source take s hl
  refine ⟨fun h => exec_of_refusal rfl hl (answerLayerBind_unreadable h), fun y hlayer => ?_⟩
  have hy := layerOf_eq_some hlayer
  refine ⟨fun h hsrc => exec_of_refusal rfl hl (answerLayerBind_state hy hsrc h), fun h => ⟨?_, ?_, ?_⟩⟩
  · rintro rfl ht
    exact exec_of_refusal rfl hl (answerLayerBind_badTake hy h (takeOf_eq_none ht))
  · rintro rfl rfl
    exact exec_of_answer rfl hl (answerLayerBind_stream hy h)
  · rintro t rfl ht
    have htake := takeOf_eq_some ht
    exact ⟨fun hs => exec_of_refusal rfl hl (answerLayerBind_noTake hy h htake hs),
      fun hs => exec_of_refusal rfl hl (answerLayerBind_inUse hy h htake hs),
      fun hs hlow => exec_of_answer rfl hl (answerLayerBind_take hy h htake hs hlow)⟩

end Sys2Proof.Machine
end

section
/-! SUPPORT. LAYER CUE (R34, R79 to R82): the cue search, the tests in their order, the layer cued and its entry into PLAYING, and
the statement O45. -/

namespace Sys2Proof.Machine

/-! ### The cue search (R34) -/

/-- Record `i` of a take is a MARK with the number `n`. -/
def Store.Marked (st : Store) (t : TakeNo) (n i : Nat) : Prop :=
  (st.record t i).kind = 5 ∧ (st.record t i).value.toNat = n

/-- Record `i` of a take ends the search for cue time `c`: it is at `c` or later, or the END. -/
def Store.Reached (st : Store) (t : TakeNo) (c i : Nat) : Prop :=
  c ≤ (st.record t i).time.toNat ∨ (st.record t i).kind = 6

/-- Record `i` of a take is a PEDAL record of pedal `p`. -/
def Store.PedalAt (st : Store) (t : TakeNo) (p : Pedal) (i : Nat) : Prop :=
  (st.record t i).kind = 4 ∧ (st.record t i).target.toNat = p.val

section
variable {st : Store} {t : TakeNo}

theorem findMark_hit {n fuel i : Nat} (h : st.Marked t n i) :
    st.findMark t n (fuel + 1) i = some (st.record t i).time.toNat :=
  if_pos ⟨congrArg BitVec.toNat h.1, h.2⟩

theorem findMark_miss {n fuel i : Nat} (h : ¬ st.Marked t n i) :
    st.findMark t n (fuel + 1) i = st.findMark t n fuel (i + 1) :=
  if_neg fun c => h ⟨BitVec.eq_of_toNat_eq c.1, c.2⟩

theorem findCue_hit {c fuel i : Nat} (h : st.Reached t c i) : st.findCue t c (fuel + 1) i = i :=
  if_pos (h.imp_right fun e => decide_eq_true (congrArg BitVec.toNat e))

theorem findCue_miss {c fuel i : Nat} (h : ¬ st.Reached t c i) :
    st.findCue t c (fuel + 1) i = st.findCue t c fuel (i + 1) :=
  if_neg fun e => h (e.imp_right fun e => BitVec.eq_of_toNat_eq (of_decide_eq_true e))

theorem findMark_none {n fuel i : Nat} (h : ∀ j, i ≤ j → j < i + fuel → ¬ st.Marked t n j) :
    st.findMark t n fuel i = none := by
  induction fuel generalizing i with
  | zero => rfl
  | succ fuel ih =>
    rw [findMark_miss (h i (Nat.le_refl i) (by omega))]
    exact ih fun j hi hj => h j (by omega) (by omega)

/-- The search for a mark stops at the first one. -/
theorem findMark_first {n fuel i j : Nat} (hij : i ≤ j) (hj : j < i + fuel) (hit : st.Marked t n j)
    (first : ∀ h, i ≤ h → h < j → ¬ st.Marked t n h) : st.findMark t n fuel i = some (st.record t j).time.toNat := by
  induction fuel generalizing i with
  | zero => omega
  | succ fuel ih =>
    obtain rfl | hlt := Nat.eq_or_lt_of_le hij
    · exact findMark_hit hit
    · rw [findMark_miss (first i (Nat.le_refl i) hlt)]
      exact ih hlt (by omega) fun h hi => first h (by omega)

/-- The search for a cue time stops at the first record that reaches it. -/
theorem findCue_first {c fuel i j : Nat} (hij : i ≤ j) (hj : j < i + fuel) (hit : st.Reached t c j)
    (first : ∀ h, i ≤ h → h < j → ¬ st.Reached t c h) : st.findCue t c fuel i = j := by
  induction fuel generalizing i with
  | zero => omega
  | succ fuel ih =>
    obtain rfl | hlt := Nat.eq_or_lt_of_le hij
    · exact findCue_hit hit
    · rw [findCue_miss (first i (Nat.le_refl i) hlt)]
      exact ih hlt (by omega) fun h hi => first h (by omega)

/-- The pedal value chased is that of the last PEDAL record below the cue. -/
theorem pedalBefore_eq_some {p : Pedal} {v j : Nat} :
    st.pedalBefore t p j = some v ↔
      ∃ i, i < j ∧ st.PedalAt t p i ∧ (st.record t i).value.toNat = v ∧ ∀ h, i < h → h < j → ¬ st.PedalAt t p h := by
  induction j with
  | zero => exact ⟨fun h => (nomatch h), fun ⟨i, hi, _⟩ => absurd hi (Nat.not_lt_zero i)⟩
  | succ j ih =>
    by_cases hat : st.PedalAt t p j
    · have heq : st.pedalBefore t p (j + 1) = some (st.record t j).value.toNat :=
        if_pos ⟨congrArg BitVec.toNat hat.1, hat.2⟩
      rw [heq, Option.some.injEq]
      constructor
      · exact fun hv => ⟨j, Nat.lt_succ_self j, hat, hv, fun h _ _ => by omega⟩
      · rintro ⟨i, hi, -, hv, hlast⟩
        obtain rfl | hlt := Nat.eq_or_lt_of_le (Nat.lt_succ_iff.mp hi)
        · exact hv
        · exact absurd hat (hlast j hlt (Nat.lt_succ_self j))
    · have heq : st.pedalBefore t p (j + 1) = st.pedalBefore t p j :=
        if_neg fun c => hat ⟨BitVec.eq_of_toNat_eq c.1, c.2⟩
      rw [heq, ih]
      constructor
      · rintro ⟨i, hi, hp, hv, hlast⟩
        refine ⟨i, Nat.lt_succ_of_lt hi, hp, hv, fun h hih hh => ?_⟩
        obtain rfl | hlt := Nat.eq_or_lt_of_le (Nat.lt_succ_iff.mp hh)
        · exact hat
        · exact hlast h hih hlt
      · rintro ⟨i, hi, hp, hv, hlast⟩
        obtain rfl | hlt := Nat.eq_or_lt_of_le (Nat.lt_succ_iff.mp hi)
        · exact absurd hp hat
        · exact ⟨i, hlt, hp, hv, fun h hih hh => hlast h hih (Nat.lt_succ_of_lt hh)⟩

theorem cueSearch_index {c j : Nat} (hj : j < (st.entry t).length) (hit : st.Reached t c j)
    (first : ∀ h, h < j → ¬ st.Reached t c h) : (st.cueSearch t c).index = j :=
  findCue_first (Nat.zero_le j) (by omega) hit fun h _ => first h

theorem cueSearch_chase {c : Nat} (p : Pedal) :
    bankGet (st.cueSearch t c).chase p = st.pedalBefore t p (st.cueSearch t c).index := by
  simp [Store.cueSearch, bankGet]

end

/-! ### The tests of LAYER CUE (R79, R176) -/

/-- The cue of a readable cue kind. -/
def cueNamed (ck : Byte) (value : Word32) : CueKind := if ck = 0 then .time value.toNat else .mark value.toNat

theorem byte_le_one {b : Byte} : b.toNat ≤ 1 ↔ b = 0 ∨ b = 1 := by
  constructor
  · intro h
    obtain h | h : b.toNat = 0 ∨ b.toNat = 1 := by omega
    · exact .inl (BitVec.eq_of_toNat_eq h)
    · exact .inr (BitVec.eq_of_toNat_eq h)
  · rintro (rfl | rfl) <;> decide

theorem cueOf_eq_some {ck : Byte} {value : Word32} (h : ck.toNat ≤ 1) : cueOf ck value = some (cueNamed ck value) := by
  obtain rfl | rfl := byte_le_one.mp h <;> rfl

theorem cueOf_eq_none {ck : Byte} {value : Word32} (h : ¬ ck.toNat ≤ 1) : cueOf ck value = none := by
  obtain ⟨h0, h1⟩ := not_or.mp (mt byte_le_one.mpr h)
  rw [cueOf, if_neg h0, if_neg h1]

theorem cueNamed_inRange {ck : Byte} {value : Word32} :
    (cueNamed ck value).inRange = true ↔ if ck = 0 then value.toNat ≤ 2147483647 else value.toNat ≤ 65535 := by
  unfold cueNamed
  split <;> exact decide_eq_true_iff

/-- The frame boundary a layer is to enter at: the next one from the clock's position, or the one at or after the entry tick. -/
def entryFrame (ek : Byte) (tick : Word32) (clk : Clock) : Nat :=
  if ek = 1 ∧ clk.state = .running then 200 * ((if ek = 1 then clk.position else tick.toNat) / 200 + 1)
  else 200 * (((if ek = 1 then clk.position else tick.toNat) + 199) / 200)

theorem entryBoundary_eq (ek : Byte) (tick : Word32) (clk : Clock) :
    entryBoundary (decide (ek = 1)) tick.toNat clk =
      if (ek = 1 ∨ tick.toNat ≤ 2147483647) ∧ entryFrame ek tick clk ≤ 2147483600 then some (entryFrame ek tick clk)
      else none := by
  unfold entryBoundary entryFrame
  by_cases he : ek = 1
  · by_cases hr : clk.state = .running
    · simp only [he, hr, decide_true, if_true, and_self, true_or, true_and]
      rfl
    · simp only [he, hr, decide_true, if_true, and_false, if_false, true_or, true_and]
      rfl
  · simp only [he, decide_false, false_and, if_false, Bool.false_eq_true, false_or]
    rfl

/-- The bytes of a LAYER CUE can be read (R176). -/
def CueReadable (layer ck ek : Byte) (tick : Word32) : Prop :=
  layer.toNat ≤ 1 ∧ ck.toNat ≤ 1 ∧ ek.toNat ≤ 1 ∧ (ek = 1 → tick = 0)

/-- The cue value, the entry tick and the entry boundary of a LAYER CUE stand in their ranges (R79). -/
def CueInRange (ck ek : Byte) (value tick : Word32) (clk : Clock) : Prop :=
  (if ck = 0 then value.toNat ≤ 2147483647 else value.toNat ≤ 65535) ∧ (ek = 1 ∨ tick.toNat ≤ 2147483647) ∧
    entryFrame ek tick clk ≤ 2147483600

/-- Readable bytes pass the first tests of LAYER CUE. -/
theorem CueReadable.passes {layer ck ek : Byte} {tick : Word32} (h : CueReadable layer ck ek tick) (value : Word32) :
    cueOf ck value = some (cueNamed ck value) ∧ ¬ (ek ≠ 0 ∧ ek ≠ 1) ∧ ¬ (ek = 1 ∧ tick ≠ 0) := by
  obtain ⟨-, hck, hek, htick⟩ := h
  exact ⟨cueOf_eq_some hck, fun c => (byte_le_one.mp hek).elim c.1 c.2, fun c => c.2 (htick c.1)⟩

/-- Bytes that cannot be read fail one of the first tests of LAYER CUE. -/
theorem unreadable_fails {layer ck ek : Byte} {tick : Word32} (h : ¬ CueReadable layer ck ek tick) (value : Word32) :
    layerOf layer = none ∨ cueOf ck value = none ∨ (ek ≠ 0 ∧ ek ≠ 1) ∨ (ek = 1 ∧ tick ≠ 0) := by
  by_cases hlayer : layer.toNat ≤ 1
  · by_cases hck : ck.toNat ≤ 1
    · by_cases hek : ek.toNat ≤ 1
      · exact .inr (.inr (.inr (by simpa using fun c => h ⟨hlayer, hck, hek, c⟩)))
      · exact .inr (.inr (.inl (not_or.mp (mt byte_le_one.mpr hek))))
    · exact .inr (.inl (cueOf_eq_none hck))
  · exact .inl (layerOf_eq_none (Nat.lt_of_not_le hlayer))

theorem answerLayerCue_unreadable {layer ck ek : Byte} {value tick : Word32} {s : State} (h : ¬ CueReadable layer ck ek tick) :
    answerLayerCue layer ck value ek tick s = refuse .badVal s := by
  have hfails := unreadable_fails h value
  unfold answerLayerCue
  split
  · next y cue hy hcue =>
    obtain hf | hf | hf | hf := hfails
    · exact nomatch hf.symm.trans hy
    · exact nomatch hf.symm.trans hcue
    · exact if_pos hf
    · exact (if_neg fun c => c.2 hf.1).trans (if_pos hf)
  · rfl

section
variable {layer ck ek : Byte} {value tick : Word32} {s : State} {y : LayerId}

theorem answerLayerCue_state (hy : layerOf layer = some y) (h : CueReadable layer ck ek tick)
    (hs : (s.layer y).state ≠ .bound ∧ (s.layer y).state ≠ .ended) :
    answerLayerCue layer ck value ek tick s = refuse .state s := by
  obtain ⟨hcue, hentry, hreserved⟩ := h.passes value
  simp only [answerLayerCue, hy, hcue, if_neg hentry, if_neg hreserved, if_pos hs]

theorem answerLayerCue_outside (hy : layerOf layer = some y) (h : CueReadable layer ck ek tick)
    (hs : ¬ ((s.layer y).state ≠ .bound ∧ (s.layer y).state ≠ .ended)) (hr : ¬ CueInRange ck ek value tick s.clk) :
    answerLayerCue layer ck value ek tick s = refuse .badVal s := by
  obtain ⟨hcue, hentry, hreserved⟩ := h.passes value
  simp only [answerLayerCue, hy, hcue, if_neg hentry, if_neg hreserved, if_neg hs, entryBoundary_eq]
  by_cases hvalue : (cueNamed ck value).inRange = true
  · have hbound : ¬ ((ek = 1 ∨ tick.toNat ≤ 2147483647) ∧ entryFrame ek tick s.clk ≤ 2147483600) :=
      fun c => hr ⟨cueNamed_inRange.mp hvalue, c⟩
    rw [if_neg hbound, ite_self]
  · rw [Bool.not_eq_true] at hvalue
    rw [hvalue]
    rfl

/-- The tests of LAYER CUE are passed: what stands of the layer, the cue and the entry boundary. -/
theorem CueInRange.passes (h : CueInRange ck ek value tick s.clk) :
    (cueNamed ck value).inRange = true ∧
      entryBoundary (decide (ek = 1)) tick.toNat s.clk = some (entryFrame ek tick s.clk) :=
  ⟨cueNamed_inRange.mpr h.1, (entryBoundary_eq ..).trans (if_pos h.2)⟩

theorem answerLayerCue_stream {l : Link} (hy : layerOf layer = some y) (h : CueReadable layer ck ek tick)
    (hs : ¬ ((s.layer y).state ≠ .bound ∧ (s.layer y).state ≠ .ended)) (hr : CueInRange ck ek value tick s.clk)
    (hsource : (s.layer y).source = some (.stream l)) :
    answerLayerCue layer ck value ek tick s =
      { status := .ok, body := layerReport ((enterPlaying y (cueStream y (entryFrame ek tick s.clk) s)).layer y)
        state := enterPlaying y (cueStream y (entryFrame ek tick s.clk) s) } := by
  obtain ⟨hcue, hentry, hreserved⟩ := h.passes value
  obtain ⟨hvalue, hbound⟩ := hr.passes
  simp only [answerLayerCue, hy, hcue, if_neg hentry, if_neg hreserved, if_neg hs, hvalue, Bool.not_true, Bool.false_eq_true,
    if_false, hbound, hsource]

/-- The cue time of a LAYER CUE on take `t`: the cue value, or the time of the first record with that mark. -/
def cueTime (st : Store) (t : TakeNo) (ck : Byte) (value : Word32) : Option Nat :=
  if ck = 0 then some value.toNat else st.findMark t value.toNat (st.entry t).length 0

theorem answerLayerCue_noMark {t : TakeNo} (hy : layerOf layer = some y) (h : CueReadable layer ck ek tick)
    (hs : ¬ ((s.layer y).state ≠ .bound ∧ (s.layer y).state ≠ .ended)) (hr : CueInRange ck ek value tick s.clk)
    (hsource : (s.layer y).source = some (.take t)) (hc : cueTime s.store t ck value = none) :
    answerLayerCue layer ck value ek tick s = refuse .badVal s := by
  obtain ⟨hcue, hentry, hreserved⟩ := h.passes value
  obtain ⟨hvalue, hbound⟩ := hr.passes
  have hck : ck ≠ 0 := by
    rintro rfl
    cases hc
  rw [cueTime, if_neg hck] at hc
  rw [cueNamed, if_neg hck] at hcue hvalue
  simp only [answerLayerCue, hy, hcue, if_neg hentry, if_neg hreserved, if_neg hs, hvalue, Bool.not_true, Bool.false_eq_true,
    if_false, hbound, hsource, hc]

theorem answerLayerCue_take {t : TakeNo} {c : Nat} (hy : layerOf layer = some y) (h : CueReadable layer ck ek tick)
    (hs : ¬ ((s.layer y).state ≠ .bound ∧ (s.layer y).state ≠ .ended)) (hr : CueInRange ck ek value tick s.clk)
    (hsource : (s.layer y).source = some (.take t)) (hc : cueTime s.store t ck value = some c) :
    answerLayerCue layer ck value ek tick s =
      { status := .ok
        body := layerReport ((enterPlaying y (cueTake y t c (entryFrame ek tick s.clk) s)).layer y) ++
          byte4 (s.store.cueSearch t c).index
        state := enterPlaying y (cueTake y t c (entryFrame ek tick s.clk) s) } := by
  obtain ⟨hcue, hentry, hreserved⟩ := h.passes value
  obtain ⟨hvalue, hbound⟩ := hr.passes
  unfold cueTime at hc
  unfold cueNamed at hcue hvalue
  by_cases hck : ck = 0
  · rw [if_pos hck] at hc hcue hvalue
    cases hc
    simp only [answerLayerCue, hy, hcue, if_neg hentry, if_neg hreserved, if_neg hs, hvalue, Bool.not_true, Bool.false_eq_true,
      if_false, hbound, hsource]
  · rw [if_neg hck] at hc hcue hvalue
    simp only [answerLayerCue, hy, hcue, if_neg hentry, if_neg hreserved, if_neg hs, hvalue, Bool.not_true, Bool.false_eq_true,
      if_false, hbound, hsource, hc]

end

/-! ### The layer cued (R80, R81) and what follows (R82, R111) -/

theorem cueStream_eq (y : LayerId) (o : Nat) (s : State) :
    cueStream y o s = s.setLayer y
      { (s.layer y) with
        state := .cued, cue := some 0, origin := some o, chase := Vector.replicate 3 none, endFetched := false
        ring := if (s.layer y).state = .ended then [] else (s.layer y).ring
        fedTime := if (s.layer y).state = .ended then 0 else (s.layer y).fedTime
        endFed := if (s.layer y).state = .ended then false else (s.layer y).endFed } := by
  unfold cueStream
  by_cases h : (s.layer y).state = .ended
  · simp only [if_pos h]
  · simp only [if_neg h]

theorem cueTake_eq {y : LayerId} {t : TakeNo} {s : State} (c o : Nat) (hsource : (s.layer y).source = some (.take t))
    (hlow : 0 < (s.layer y).low) :
    cueTake y t c o s = s.setLayer y
      { (s.layer y) with
        state := .cued, cue := some c, origin := some o, chase := (s.store.cueSearch t c).chase, endFetched := false
        ring := (List.range (min 256 ((s.store.entry t).length - (s.store.cueSearch t c).index))).map fun i =>
          s.store.record t ((s.store.cueSearch t c).index + i)
        cursor := (s.store.cueSearch t c).index +
          min 256 ((s.store.entry t).length - (s.store.cueSearch t c).index) } := by
  unfold cueTake
  dsimp only
  rw [refill_of_empty (t := t) (by rw [layer_setLayer_same]; exact hsource) (by rw [layer_setLayer_same])
    (by rw [layer_setLayer_same]; exact hlow), setLayer_setLayer]
  simp only [layer_setLayer_same, setLayer_store]

/-- A CUED layer stays CUED while the clock is not RUNNING or stands below its origin (R82). -/
theorem enterPlaying_of_waiting {y : LayerId} {s : State} {o : Nat} (ho : (s.layer y).origin = some o)
    (h : s.clk.state = .running → s.clk.position < o) : enterPlaying y s = s := by
  unfold enterPlaying
  dsimp only
  split
  · next o' _ ho' =>
    cases ho.symm.trans ho'
    refine if_neg fun c => ?_
    have hlt := h (by simpa [State.running] using c.1)
    omega
  · rfl

theorem takeAll_of_not_running {s : State} (h : s.clk.state ≠ .running) : takeAll s = s :=
  takeAll_of_nextTaking_none (nextTaking_of_none_ready fun _ => readyRecord_of_not_running h)

theorem layerReport_append_ne_nil (l : Layer) (tail : List Byte) : (layerReport l ++ tail).isEmpty = false := by
  simp only [layerReport, byte1_eq, List.append_assoc, List.cons_append, List.isEmpty_cons]

/-- An answer with a body is followed by the takings it opens (R111). -/
theorem thenTake_of_body {a : Answer} (h : a.body.isEmpty = false) : a.thenTake = { a with state := takeAll a.state } := by
  rw [Answer.thenTake, h]
  rfl

theorem layer_replied (s : State) (l : Link) (q : Request) (st : Status) (body : List Byte) (y : LayerId) :
    (s.replied l q st body).layer y = s.layer y :=
  layer_eq_of_fields (replied_layer0 ..) (replied_layer1 ..) y

/-- A LAYER CUE carried out: the layer stands cued while the clock is not RUNNING; under a RUNNING clock it keeps its origin, and
waits or enters PLAYING as its origin says. -/
theorem cued_placed {i : Instr} {l : Link} {q : Request} {answer : State → Answer} {s : State} {y : LayerId} {cued : Layer}
    {o : Nat} {tail : List Byte} (hexec : exec i s = .next (serve l q (fun s => (answer s).thenTake) s))
    (hl : (s.link l).slots = .serving q) (hcued : cued.state = .cued) (ho : cued.origin = some o)
    (ha : answer s =
      { status := .ok, body := layerReport ((enterPlaying y (s.setLayer y cued)).layer y) ++ tail
        state := enterPlaying y (s.setLayer y cued) }) :
    (s.clk.state ≠ .running →
        exec i s = .next ((s.setLayer y cued).replied l q .ok (layerReport cued ++ tail))) ∧
      (s.clk.state = .running → ∃ t body, exec i s = .next t ∧
        (t.link l).slots = .reply { status := .ok, kind := q.kind, body := body } ∧ (t.layer y).origin = some o ∧
        (s.clk.position < o → (t.layer y).state = .cued ∧ body = layerReport cued ++ tail) ∧
        (o ≤ s.clk.position → (t.layer y).state = .playing ∨ (t.layer y).state = .ended)) := by
  have hclk : (s.setLayer y cued).clk = s.clk := setLayer_clk ..
  have hstate : ((s.setLayer y cued).layer y).state = .cued := by rw [layer_setLayer_same, hcued]
  have horigin : ((s.setLayer y cued).layer y).origin = some o := by rw [layer_setLayer_same, ho]
  have htaken := exec_of_answer hexec hl ((congrArg Answer.thenTake ha).trans
    (thenTake_of_body (layerReport_append_ne_nil ..)))
  refine ⟨fun hr => ?_, fun hr => ?_⟩
  · have hwait := enterPlaying_of_waiting horigin fun h => absurd (hclk ▸ h) hr
    rw [htaken]
    dsimp only
    rw [hwait, layer_setLayer_same, takeAll_of_not_running (by rw [hclk]; exact hr)]
  · have hlater := (takeAll_takings (enterPlaying y (s.setLayer y cued))).later y
    refine ⟨_, _, htaken, by rw [replied_link], ?_, fun hlt => ?_, fun hle => ?_⟩
    · rw [layer_replied, hlater.origin]
      obtain ⟨m, hm, hplay⟩ := enterPlaying_layer y y (s.setLayer y cued)
      rw [hplay.origin]
      obtain rfl | ⟨-, rfl⟩ := hm <;> exact horigin
    · have hwait := enterPlaying_of_waiting horigin fun _ => by rw [hclk]; exact hlt
      refine ⟨?_, by rw [hwait, layer_setLayer_same]⟩
      rw [layer_replied]
      obtain h | ⟨h, -⟩ := hlater.state
      · rw [h, hwait, hstate]
      · rw [hwait, hstate] at h
        cases h
    · have hentered := enterPlaying_entered hstate horigin (by rw [hclk]; exact hr) (by rw [hclk]; exact hle)
      rw [layer_replied]
      obtain h | ⟨-, h⟩ := hlater.state
      · rw [h]; exact hentered
      · exact .inr h

/-- The cue time of a LAYER CUE as R34 words it. -/
theorem cueTime_eq_some {st : Store} {t : TakeNo} {ck : Byte} {value : Word32} {c : Nat}
    (h : ck = 0 ∧ c = value.toNat ∨
      ck = 1 ∧ ∃ i, i < (st.entry t).length ∧ st.Marked t value.toNat i ∧ (∀ h, h < i → ¬ st.Marked t value.toNat h) ∧
        c = (st.record t i).time.toNat) : cueTime st t ck value = some c := by
  obtain ⟨rfl, rfl⟩ | ⟨rfl, i, hi, hit, hfirst, rfl⟩ := h
  · rfl
  · exact findMark_first (Nat.zero_le i) (by omega) hit fun h _ => hfirst h

theorem cueTime_eq_none {st : Store} {t : TakeNo} {ck : Byte} {value : Word32} (hck : ck = 1)
    (h : ∀ i, i < (st.entry t).length → ¬ st.Marked t value.toNat i) : cueTime st t ck value = none := by
  subst hck
  exact findMark_none fun i _ hi => h i (by omega)

/-- Settles O45: the refusals in their order, the stream cued at 0, and the take cued at the record its search finds. -/
theorem layerCuePlacesTheLayer : Obligations.LayerCuePlacesTheLayer := by
  intro l layer ck ek value tick s q hl answered base o inRange readable
  have hrefused {st : Status} (h : answerLayerCue layer ck value ek tick s = refuse st s) : answered s st [] :=
    exec_of_answer (answer := fun s => (answerLayerCue layer ck value ek tick s).thenTake) rfl hl
      (congrArg Answer.thenTake h)
  refine ⟨fun h => hrefused (answerLayerCue_unreadable h), ?_⟩
  intro y hlayer hread r
  have hy := layerOf_eq_some hlayer
  have hread : CueReadable layer ck ek tick := hread
  refine ⟨fun hb he => hrefused (answerLayerCue_state hy hread ⟨hb, he⟩), fun hs hr => ?_, fun hs hr => ?_⟩
  · exact hrefused (answerLayerCue_outside hy hread (fun c => hs.elim c.1 c.2) hr)
  · have hstate : ¬ ((s.layer y).state ≠ .bound ∧ (s.layer y).state ≠ .ended) := fun c => hs.elim c.1 c.2
    have hrange : CueInRange ck ek value tick s.clk := hr
    intro placed
    refine ⟨fun link hsource => ?_, ?_⟩
    · refine cued_placed (answer := answerLayerCue layer ck value ek tick) rfl hl rfl rfl ?_
      rw [answerLayerCue_stream hy hread hstate hrange hsource, cueStream_eq, List.append_nil]
      rfl
    · intro n hsource e rec_ marked from_ pedal
      refine ⟨fun hck hnone => hrefused (answerLayerCue_noMark hy hread hstate hrange hsource (cueTime_eq_none hck hnone)),
        fun c j hlow hc hj hit hfirst => ?_⟩
      have hindex : (s.store.cueSearch n c).index = j := cueSearch_index hj hit hfirst
      refine ⟨(s.store.cueSearch n c).chase, fun p v => ?_, ?_⟩
      · rw [cueSearch_chase, hindex]
        exact pedalBefore_eq_some
      · refine cued_placed (answer := answerLayerCue layer ck value ek tick) rfl hl rfl rfl ?_
        rw [answerLayerCue_take hy hread hstate hrange hsource (cueTime_eq_some hc), cueTake_eq c _ hsource hlow, hindex, byte4_eq]
        rfl

end Sys2Proof.Machine
end

section
/-! SUPPORT. `Apart y l sound s`: layer `y` is the record `l`, and neither the plan, the key memories nor the drive unit's keys
hold anything of it; and, operation by operation, that what the scheduler does for the other layer keeps it so (R88, R127,
R138). -/

namespace Sys2Proof.Machine

/-- Layer `y` is `l`, no action and no key memory is its own, and no key that it owns is in STRIKE or SUSTAIN. Where `sound`
holds, it owns no key at all. -/
structure Apart (y : LayerId) (l : Layer) (sound : Prop) (s : State) : Prop where
  layer  : s.layer y = l
  plan   : ∀ a ∈ s.sched.plan, a.layer ≠ y
  memory : ∀ k m, bankGet s.sched.memory k = some m → m.layer ≠ y
  owner  : ∀ k, (s.driveKey k).owner = some y → (s.driveKey k).state.holdsKey = false ∧ ¬ sound

section
variable {y z : LayerId} {l : Layer} {sound : Prop} {s t : State}

/-! ### Updates of one block -/

/-- An update that keeps the layer, the memories and the keys, and whose actions are of the layers the plan's were of. -/
theorem Apart.of_frame (h : Apart y l sound s) (hl : t.layer y = s.layer y)
    (hp : ∀ a ∈ t.sched.plan, ∃ b ∈ s.sched.plan, a.layer = b.layer) (hm : t.sched.memory = s.sched.memory)
    (hk : t.drive.keys = s.drive.keys) : Apart y l sound t where
  layer := hl.trans h.layer
  plan a ha := by
    obtain ⟨b, hb, hab⟩ := hp a ha
    exact hab ▸ h.plan b hb
  memory k m hkm := h.memory k m (by rwa [← hm])
  owner k ho := by
    have hkey : t.driveKey k = s.driveKey k := by rw [State.driveKey, State.driveKey, hk]
    rw [hkey] at ho ⊢
    exact h.owner k ho

theorem Apart.of_eq (h : Apart y l sound s) (hl : t.layer y = s.layer y) (hs : t.sched = s.sched)
    (hk : t.drive.keys = s.drive.keys) : Apart y l sound t :=
  h.of_frame hl (fun a ha => ⟨a, by rwa [← hs], rfl⟩) (by rw [hs]) hk

theorem Apart.capture (h : Apart y l sound s) (g : CaptureOnly s t) : Apart y l sound t :=
  h.of_eq (g.layer y) g.sched (by rw [g.drive])

theorem Apart.setLayer (h : Apart y l sound s) (hz : z ≠ y) (m : Layer) : Apart y l sound (s.setLayer z m) :=
  h.of_eq (layer_setLayer_other s m (Ne.symm hz)) (setLayer_sched ..) (by rw [setLayer_drive])

theorem Apart.raiseBoth (h : Apart y l sound s) (n : Notice) : Apart y l sound (raiseBoth n s) :=
  h.of_eq (layer_eq_of_fields rfl rfl y) rfl rfl

theorem Apart.raise (h : Apart y l sound s) (link : Link) (n : Notice) : Apart y l sound (raise link n s) :=
  h.of_eq (raise_layer ..) (raise_sched ..) (by rw [raise_drive])

/-- A key's drive record replaced by one that layer `y` does not hold. -/
theorem Apart.setDriveKey (h : Apart y l sound s) (k : Key) {d : DriveKey}
    (hd : d.owner = some y → d.state.holdsKey = false ∧ ¬ sound) : Apart y l sound (s.setDriveKey k d) where
  layer := (layer_eq_of_fields (s := s) rfl rfl y).trans h.layer
  plan := h.plan
  memory := h.memory
  owner j := by
    by_cases hj : j = k
    · subst hj
      rw [driveKey_setDriveKey_same]
      exact hd
    · rw [driveKey_setDriveKey_other _ _ hj]
      exact h.owner j

/-! ### The drive unit -/

theorem Apart.putDriveKey (h : Apart y l sound s) (k : Key) {d : DriveKey} (hd : d.owner ≠ some y) :
    Apart y l sound (putDriveKey k d s) :=
  (h.setDriveKey k fun e => absurd e hd).capture (putDriveKey_only k d s)

theorem Apart.enterLetGo (h : Apart y l sound s) (k : Key) : Apart y l sound (enterLetGo k s) :=
  h.putDriveKey k (by simp [DriveKey.lettingGo])

theorem Apart.fireStrike (h : Apart y l sound s) (hz : z ≠ y) (k : Key) (event velocity demand flight : Nat) :
    Apart y l sound (fireStrike k z event velocity demand flight s) :=
  h.putDriveKey k (by simpa [DriveKey.withHeat] using hz)

theorem Apart.depressKey (h : Apart y l sound s) (hz : z ≠ y) (k : Key) (demand : Nat) :
    Apart y l sound (depressKey k z demand s) := by
  have hput := h.putDriveKey k (d := { (s.driveKey k) with
    state := .sustain, owner := some z, sustainDemand := some demand, reboundGap := some 0, sustain := none
    reboundEnd := none }) (by simpa using hz)
  exact hput.setDriveKey k (hput.owner k)

theorem Apart.setDemand (h : Apart y l sound s) (hz : z ≠ y) (p : Pedal) (v : Option Nat) :
    Apart y l sound (setDemand z p v s) :=
  h.of_eq (by rw [setDemand_layer, if_neg (Ne.symm hz)]) (setDemand_outputs ..).sched (setDemand_outputs ..).keys

theorem Apart.dropDemands (h : Apart y l sound s) (hz : z ≠ y) : Apart y l sound (dropDemands z s) :=
  foldl_keeps (fun _ p _ h => h.setDemand hz p none) s h

theorem Apart.endIfDone (h : Apart y l sound s) (hz : z ≠ y) : Apart y l sound (endIfDone z s) := by
  unfold Machine.endIfDone
  dsimp only
  split
  · exact ((h.setLayer hz _).dropDemands hz).raiseBoth _
  · exact h

/-! ### Actions answered and carried out -/

theorem Apart.removeAction (h : Apart y l sound s) (n : Nat) : Apart y l sound (removeAction n s) :=
  h.of_frame (layer_eq_of_fields rfl rfl y) (fun a ha => ⟨a, (List.mem_filter.mp ha).1, rfl⟩) rfl rfl

theorem Apart.addDrop (h : Apart y l sound s) (e : DropEntry) : Apart y l sound (addDrop e s) :=
  h.of_frame (layer_eq_of_fields rfl rfl y) (fun a ha => ⟨a, ha, rfl⟩) rfl rfl

theorem Apart.waitStrike (h : Apart y l sound s) (w : WaitReason) (a : Action) : Apart y l sound (waitStrike w a s) := by
  refine h.of_frame (layer_eq_of_fields rfl rfl y) (fun b hb => ?_) rfl rfl
  obtain ⟨c, hc, rfl⟩ := List.mem_map.mp hb
  refine ⟨c, hc, ?_⟩
  split
  · exact withWait_layer c w
  · rfl

variable {a : Action}

theorem Apart.leavePlan (h : Apart y l sound s) (ha : a.layer ≠ y) : Apart y l sound (leavePlan a s) :=
  (h.removeAction _).endIfDone ha

theorem Apart.dropStrike (h : Apart y l sound s) (r : DropReason) (ha : a.layer ≠ y) : Apart y l sound (dropStrike r a s) := by
  unfold Machine.dropStrike
  split
  · exact (h.addDrop _).leavePlan ha
  · exact h

theorem Apart.takeStrike (h : Apart y l sound s) (ha : a.layer ≠ y) : Apart y l sound (takeStrike a s) := by
  unfold Machine.takeStrike
  split
  · exact (h.fireStrike ha ..).leavePlan ha
  · exact h

theorem Apart.applyAnswer (h : Apart y l sound s) (ans : OfferAnswer) (ha : a.layer ≠ y) :
    Apart y l sound (applyAnswer ans a s) := by
  cases ans with
  | taken => exact h.takeStrike ha
  | wait w => exact h.waitStrike w a
  | refused r => exact h.dropStrike r ha

theorem Apart.offerStrike (h : Apart y l sound s) (k : Key) (ha : a.layer ≠ y) : Apart y l sound (offerStrike a k s) := by
  unfold Machine.offerStrike
  split
  · exact h.dropStrike _ ha
  · exact h.applyAnswer _ ha

theorem Apart.arbiter (h : Apart y l sound s) : Apart y l sound (arbiter s) := by
  have hloop : ∀ (fuel : Nat) (s : State), Apart y l sound s → Apart y l sound (arbiterLoop fuel s) := by
    intro fuel
    induction fuel with
    | zero => exact fun s h => h
    | succ fuel ih =>
      intro s h
      unfold arbiterLoop
      split
      · split
        · exact h
        · next a hpick =>
          split
          · exact h
          · exact ih _ (h.applyAnswer _ (h.plan a (arbiterPick_mem hpick).1))
      · exact h
  exact hloop _ s h

theorem Apart.handRelease (h : Apart y l sound s) (k : Key) : Apart y l sound (handRelease k z s) := by
  obtain ⟨-, heq⟩ | ⟨-, -, heq⟩ := handRelease_cases k z s <;> rw [heq]
  · exact h
  · split
    · exact (h.enterLetGo k).arbiter
    · exact h.enterLetGo k

theorem Apart.handDepress (h : Apart y l sound s) (hz : z ≠ y) (k : Key) (d : Nat) : Apart y l sound (handDepress k z d s) := by
  unfold Machine.handDepress
  split
  · exact h.depressKey hz k d
  · exact h

theorem Apart.carryOut (h : Apart y l sound s) (ha : a.layer ≠ y) : Apart y l sound (carryOut a s) := by
  cases hb : a.body with
  | strike k v d f w =>
    obtain ⟨-, -, hc⟩ | ⟨-, hc⟩ := carryOut_strike (s := s) hb <;> rw [hc]
    · exact h.dropStrike _ ha
    · exact h.offerStrike k ha
  | depress k d => rw [carryOut_depress hb]; exact (h.handDepress ha k d).leavePlan ha
  | release k auto => rw [carryOut_release hb]; exact (h.handRelease k).leavePlan ha
  | pedal p v =>
    rw [carryOut_pedal hb]
    refine Apart.leavePlan ?_ ha
    split
    · exact h.setDemand ha p (some v)
    · exact h

/-! ### Processing and reports -/

theorem Apart.processDue (h : Apart y l sound s) (named : Key → Bool) : Apart y l sound (processDue named s) := by
  have hloop : ∀ (fuel : Nat) (again todo : List Nat) (s : State), Apart y l sound s →
      Apart y l sound (processLoop fuel again todo s) := by
    intro fuel
    induction fuel with
    | zero => exact fun again todo s h => by rwa [processLoop_fuel_zero]
    | succ fuel ih =>
      intro again todo s h
      cases todo with
      | nil => exact h
      | cons n todo =>
        unfold processLoop
        split
        · exact ih _ _ _ h
        · next a ha =>
          have hact := h.carryOut (h.plan a (mem_of_action ha).1)
          split
          · dsimp only
            split <;> exact ih _ _ _ hact
          · exact ih _ _ _ h
  unfold Machine.processDue
  split
  · exact hloop _ _ _ s h
  · exact h

theorem Apart.respond (h : Apart y l sound t) : Apart y l sound (respond s t) := by
  unfold Machine.respond
  dsimp only
  split
  · exact h.arbiter.processDue _
  · exact h.arbiter

/-! ### Takings -/

theorem Apart.insertAction (h : Apart y l sound s) (hz : z ≠ y) (event : Nat) (due : Int) (lead : Nat) (body : ActionBody) :
    Apart y l sound (insertAction z event due lead body s) where
  layer := (layer_eq_of_fields (s := s) rfl rfl y).trans h.layer
  plan a ha := by
    obtain rfl | ha := mem_planInsert.mp ha
    · exact hz
    · exact h.plan a ha
  memory := h.memory
  owner := h.owner

theorem Apart.setMemory (h : Apart y l sound s) (k : Key) {m : Option KeyMemory} (hm : ∀ n, m = some n → n.layer ≠ y) :
    Apart y l sound (setMemory k m s) where
  layer := (layer_eq_of_fields (s := s) rfl rfl y).trans h.layer
  plan := h.plan
  memory j n hn := by
    have hset : bankGet (bankSet s.sched.memory k m) j = some n := hn
    rw [bankGet_bankSet] at hset
    split at hset
    · exact hm n hset
    · exact h.memory j n hset
  owner := h.owner

theorem Apart.closeMemory (h : Apart y l sound s) (k : Key) : Apart y l sound (Machine.setMemory k none s) :=
  h.setMemory k fun _ e => nomatch e

theorem Apart.openMemory (h : Apart y l sound s) (hz : z ≠ y) (k : Key) (depress : Bool) (event serial : Nat) :
    Apart y l sound (Machine.setMemory k (some { layer := z, depress := depress, event := event, serial := serial }) s) :=
  h.setMemory k fun n e => by
    obtain rfl := Option.some.inj e
    exact hz

theorem Apart.insertRelease (h : Apart y l sound s) (hz : z ≠ y) (k : Key) (event : Nat) (auto : Option AutoFlag) :
    Apart y l sound (insertRelease z k event auto s) := by
  have hinsert := h.insertAction hz event event 0 (.release k auto)
  unfold Machine.insertRelease
  dsimp only
  split
  · split
    · exact hinsert.closeMemory k
    · exact hinsert
  · exact hinsert

theorem Apart.mergeOut (h : Apart y l sound s) (k : Key) (ha : a.layer ≠ y) : Apart y l sound (mergeOut k s a) := by
  unfold Machine.mergeOut
  dsimp only
  refine Apart.dropStrike ?_ _ ha
  split
  · split
    · exact h.closeMemory k
    · exact h
  · exact h

/-- No key is held by the layer in the plan's sense. -/
theorem Apart.holder_ne (h : Apart y l sound s) {k : Key} {ref : Nat} (hk : s.holder k = some (z, ref)) : z ≠ y := by
  unfold State.holder at hk
  split at hk
  · next m hm => cases hk; exact h.memory k m hm
  · dsimp only at hk
    split at hk
    · next hholds =>
      obtain ⟨w, hw, hwz⟩ := Option.map_eq_some_iff.mp hk
      cases hwz
      rintro rfl
      rw [(h.owner k hw).1] at hholds
      cases hholds
    · cases hk

theorem Apart.autoRelease (h : Apart y l sound s) (k : Key) (due : Int) : Apart y l sound (autoRelease k due s) := by
  unfold Machine.autoRelease
  split
  · next w ref hk => exact h.insertRelease (h.holder_ne hk) ..
  · exact h

theorem Apart.insertStrike (h : Apart y l sound s) (hz : z ≠ y) (k : Key) (event velocity rm : Nat) (sv : StrikeValues) :
    Apart y l sound (insertStrike z k event velocity rm sv s) := by
  unfold Machine.insertStrike
  dsimp only
  split
  · have hmerged := foldl_keeps (Q := Apart y l sound) (f := Machine.mergeOut k)
      (xs := s.sched.plan.filter (conflicts z k event rm))
      (fun _ a ha g => g.mergeOut k (h.plan a (List.mem_filter.mp ha).1)) s h
    exact ((hmerged.autoRelease k _).insertAction hz ..).openMemory hz ..
  · exact h.addDrop _

theorem Apart.handKeyRecord (h : Apart y l sound s) (hz : z ≠ y) (r : Record) (k : Key) :
    Apart y l sound (handKeyRecord z r k s) := by
  unfold Machine.handKeyRecord
  dsimp only
  split
  · exact h.addDrop _
  · split
    · split
      · exact h.insertStrike hz ..
      · exact h.addDrop _
    · split
      · split
        · exact (h.insertAction hz ..).openMemory hz ..
        · exact h.addDrop _
      · exact h.insertRelease hz ..

theorem Apart.handPedalRecord (h : Apart y l sound s) (hz : z ≠ y) (r : Record) (p : Pedal) :
    Apart y l sound (handPedalRecord z r p s) := by
  unfold Machine.handPedalRecord
  dsimp only
  split
  · exact h.addDrop _
  · split
    · exact h.insertAction hz ..
    · exact h.addDrop _

theorem Apart.handWindow (h : Apart y l sound s) (hz : z ≠ y) (r : Record) : Apart y l sound (handWindow z r s) := by
  unfold Machine.handWindow
  dsimp only
  split
  · exact h
  · split
    · exact h
    · split
      · exact h.handKeyRecord hz ..
      · exact h.addDrop _

theorem Apart.handRecord (h : Apart y l sound s) (hz : z ≠ y) (r : Record) : Apart y l sound (handRecord z r s) := by
  unfold Machine.handRecord
  split
  · exact foldl_keeps (fun _ k _ g => g.insertRelease hz k _ _) _ (h.setLayer hz _)
  · split
    · split
      · split
        · exact h.handPedalRecord hz ..
        · exact h
      · exact h
    · split
      · exact h.handWindow hz r
      · exact h

theorem Apart.refill (h : Apart y l sound s) (hz : z ≠ y) : Apart y l sound (refill z s) := by
  unfold Machine.refill
  dsimp only
  split
  · split
    · exact h.setLayer hz _
    · exact h
  · exact h

theorem Apart.popRing (h : Apart y l sound s) (hz : z ≠ y) : Apart y l sound (popRing z s) := by
  unfold Machine.popRing
  dsimp only
  split
  · split
    · exact (h.setLayer hz _).raise ..
    · exact h.setLayer hz _
  · exact (h.setLayer hz _).refill hz

theorem Apart.takeRecord (h : Apart y l sound s) (hz : z ≠ y) (r : Record) : Apart y l sound (takeRecord z r s) := by
  have hhanded := (h.popRing hz).handRecord hz r
  unfold Machine.takeRecord processInserted
  refine Apart.endIfDone ?_ hz
  split
  · exact hhanded.processDue _
  · exact hhanded

/-- A taking is one of a layer CUED or PLAYING. -/
theorem nextTaking_replays {r : Record} (h : nextTaking s = some (z, r)) :
    (s.layer z).state = .cued ∨ (s.layer z).state = .playing := by
  have hready (z : LayerId) (x : Record × Int) (hx : readyRecord z s = some x) :
      (s.layer z).state = .cued ∨ (s.layer z).state = .playing := by
    by_contra hnot
    rw [readyRecord_of_not_replaying (not_or.mp hnot)] at hx
    cases hx
  unfold nextTaking at h
  split at h
  · cases h
  · next h0 _ => cases h; exact hready _ _ h0
  · next _ h1 => cases h; exact hready _ _ h1
  · next h0 h1 =>
    split at h
    · cases h; exact hready _ _ h1
    · cases h; exact hready _ _ h0

/-- The takings leave a FREE layer as it is. -/
theorem Apart.takeAll (h : Apart y l sound s) (hl : l.state = .free) : Apart y l sound (takeAll s) := by
  have hloop : ∀ (fuel : Nat) (s : State), Apart y l sound s → Apart y l sound (takeLoop fuel s) := by
    intro fuel
    induction fuel with
    | zero => exact fun s h => h
    | succ fuel ih =>
      intro s h
      unfold takeLoop
      split
      · exact h
      · next z r hnext =>
        refine ih _ (h.takeRecord (fun hz => ?_) r)
        have hreplays := nextTaking_replays hnext
        rw [hz, h.layer, hl] at hreplays
        exact hreplays.elim (nomatch ·) (nomatch ·)
  exact hloop _ s h

end

end Sys2Proof.Machine
end

section
/-! SUPPORT. LAYER FREE (R33, R88, R127, R138): the keys let go, the plan purged and the layer released, each as one update; the
bound-layer counts through the scheduler's work; and the statement O42. -/

namespace Sys2Proof.Machine

/-! ### Bound-layer counts through acts and takings (R33) -/

theorem closeCapture_bound (time : Nat) (s : State) (n : TakeNo) :
    ((closeCapture time s).store.entry n).bound = (s.store.entry n).bound := by
  cases ht : s.cap.target with
  | none => rw [closeCapture_of_no_target time ht]
  | some t =>
    rw [closeCapture_eq time ht]
    refine Eq.trans ?_ (withOrigin_carried s.store t n s.cap.origin s.clk.position).2.2
    by_cases hn : n = t
    · subst hn; rw [entry_closeTake_same]
    · rw [entry_closeTake_other _ _ hn]

theorem Act.bound {s t : State} (h : Act s t) (n : TakeNo) : (t.store.entry n).bound = (s.store.entry n).bound := by
  cases h with
  | append hrec ht hst => exact (appendRecord_carried hst n).bound
  | close time hrec => exact closeCapture_bound time s n
  | layer y l h => rw [setLayer_store]
  | _ => rfl

theorem Takings.bound {s t : State} (h : Takings s t) (n : TakeNo) : (t.store.entry n).bound = (s.store.entry n).bound := by
  refine h.keep (P := fun t => (t.store.entry n).bound = (s.store.entry n).bound) (fun u v g hu => Eq.trans ?_ hu) rfl
  cases g with
  | act g => exact g.bound n
  | fetched y => rw [setLayer_store]
  | pop y => rw [(popRing_frame y u).2.1]
  | _ => rfl

/-! ### Demands dropped (R86) -/

/-- `t` is `s` but for the layers and the pedal outputs. -/
def DemandsOnly (s t : State) : Prop :=
  t = { s with layer0 := t.layer0, layer1 := t.layer1, drive := { s.drive with pedals := t.drive.pedals } }

theorem DemandsOnly.trans {s t u : State} (h : DemandsOnly s t) (g : DemandsOnly t u) : DemandsOnly s u := by
  unfold DemandsOnly at *
  rw [g, h]

theorem drivePedal_only (p : Pedal) (s : State) : DemandsOnly s (drivePedal p s) := by
  unfold drivePedal
  dsimp only
  split
  · split
    · rfl
    · rfl
    · split <;> rfl
  · rfl

theorem setLayer_only (s : State) (y : LayerId) (l : Layer) : DemandsOnly s (s.setLayer y l) := by cases y <;> rfl

theorem setDemand_only (y : LayerId) (p : Pedal) (v : Option Nat) (s : State) : DemandsOnly s (setDemand y p v s) := by
  unfold setDemand
  split
  · rfl
  · exact (setLayer_only ..).trans (drivePedal_only ..)

theorem dropDemands_only (y : LayerId) (s : State) : DemandsOnly s (dropDemands y s) :=
  foldl_keeps (Q := DemandsOnly s) (fun _ p _ h => h.trans (setDemand_only y p none _)) s rfl

theorem dropDemands_layer_other {y z : LayerId} (h : z ≠ y) (s : State) : (dropDemands y s).layer z = s.layer z :=
  foldl_keeps (Q := fun t => t.layer z = s.layer z)
    (fun t p _ ht => by rw [setDemand_layer, if_neg h, ht]) s rfl

/-- A layer whose demands are dropped has none, and its other fields as before. -/
theorem dropDemands_layer (y : LayerId) (s : State) :
    (dropDemands y s).layer y = { (s.layer y) with demands := Vector.replicate 3 none } := by
  obtain ⟨b, hb⟩ := dropDemands_layer_same y s
  have hnone : ∀ p, bankGet ((dropDemands y s).layer y).demands p = none := fun p =>
    foldl_establishes (f := fun s p => setDemand y p none s) (P := fun _ => True)
      (Q := fun t => bankGet (t.layer y).demands p = none) (x := p) (fun _ _ _ _ => trivial)
      (fun t _ => by rw [setDemand_layer, if_pos rfl, bankGet_bankSet_same])
      (fun t q hq ht => by rw [setDemand_layer, if_pos rfl, bankGet_bankSet_other _ _ (Ne.symm hq), ht])
      (List.mem_finRange p) (List.nodup_finRange 3) s trivial
  have hbank : b = Vector.replicate 3 none := bank_ext fun p => by
    rw [hb] at hnone
    rw [hnone p, bankGet_replicate]
  rw [hb, hbank]

/-! ### The layer released (R33, R88) -/

/-- A layer freed: its marks and its settings kept, all else of it gone. -/
def Layer.freed (l : Layer) : Layer :=
  { Layer.reset with low := l.low, high := l.high, staged := l.staged, latched := l.latched }

/-- The take store with the count of a freed layer's take lowered (R33). -/
def Store.unbound (st : Store) (source : Option Source) : Store :=
  match source with
  | some (.take t) => st.setBound t (· - 1)
  | _ => st

theorem unbound_bound (st : Store) (source : Option Source) (n : TakeNo) :
    ((st.unbound source).entry n).bound =
      if source = some (.take n) then (st.entry n).bound - 1 else (st.entry n).bound := by
  unfold Store.unbound
  split
  · next t =>
    rw [entry_setBound]
    by_cases h : n = t
    · subst h; rw [if_pos rfl, if_pos rfl]
    · rw [if_neg h, if_neg (by simpa using Ne.symm h)]
  · next h => exact (if_neg (h n)).symm

theorem unbound_mem (st : Store) (source : Option Source) : (st.unbound source).mem = st.mem := by
  unfold Store.unbound
  split <;> rfl

theorem unbound_pool (st : Store) (source : Option Source) : (st.unbound source).pool = st.pool := by
  unfold Store.unbound
  split <;> rfl

/-- A layer's release as one update, once its demands are dropped. -/
theorem releaseLayer_eq (y : LayerId) (s : State) :
    releaseLayer y s =
      State.setLayer { dropDemands y s with store := s.store.unbound (s.layer y).source } y (s.layer y).freed := by
  have hstore : (dropDemands y s).store = s.store := (dropDemands_outputs y s).store
  unfold releaseLayer Store.unbound
  dsimp only
  rw [dropDemands_layer]
  dsimp only
  cases hsource : (s.layer y).source with
  | none => rw [← hstore]; rfl
  | some src =>
    cases src with
    | take t => rw [← hstore]; rfl
    | stream l => rw [← hstore]; rfl

/-- What a layer's release leaves: all but the layers, the pedal outputs and the count of its take. -/
structure Released (y : LayerId) (s t : State) : Prop where
  rest  : t = { s with
    layer0 := t.layer0, layer1 := t.layer1, store := s.store.unbound (s.layer y).source
    drive := { s.drive with pedals := t.drive.pedals } }
  layer : t.layer y = (s.layer y).freed
  other : ∀ z, z ≠ y → t.layer z = s.layer z

theorem released_releaseLayer (y : LayerId) (s : State) : Released y s (releaseLayer y s) := by
  rw [releaseLayer_eq]
  refine ⟨?_, layer_setLayer_same .., fun z hz => ?_⟩
  · have hdrop := dropDemands_only y s
    unfold DemandsOnly at hdrop
    rw [hdrop]
    cases y <;> rfl
  · rw [layer_setLayer_other _ _ hz]
    exact (layer_eq_of_fields rfl rfl z).trans (dropDemands_layer_other hz s)

section
variable {y : LayerId} {s t : State}

theorem Released.sched (h : Released y s t) : t.sched = s.sched := by rw [h.rest]
theorem Released.keys (h : Released y s t) : t.drive.keys = s.drive.keys := by rw [h.rest]
theorem Released.queue (h : Released y s t) : t.drive.queue = s.drive.queue := by rw [h.rest]
theorem Released.clk (h : Released y s t) : t.clk = s.clk := by rw [h.rest]
theorem Released.store (h : Released y s t) : t.store = s.store.unbound (s.layer y).source := by rw [h.rest]

theorem Apart.release {l : Layer} {sound : Prop} (h : Apart y l sound s) : Apart y l.freed sound (releaseLayer y s) := by
  have hr := released_releaseLayer y s
  refine ⟨hr.layer.trans (by rw [h.layer]), by rw [hr.sched]; exact h.plan, by rw [hr.sched]; exact h.memory, fun k => ?_⟩
  rw [State.driveKey, hr.keys]
  exact h.owner k

end

/-! ### The keys let go (R138) -/

/-- A key's record where the layer's freeing lets it go (R138, R139). -/
def DriveKey.letGoIf (d : DriveKey) (f : DriveKey → Bool) (now : Nat) : DriveKey :=
  if d.state.holdsKey && f d then d.lettingGo now else d

/-- The keys let go, as one update of the drive unit's records. -/
theorem letGoKeys_eq (f : DriveKey → Bool) (s : State) :
    letGoKeys f s = { s with drive := { s.drive with keys := bankMap (fun _ d => d.letGoIf f s.now) s.drive.keys } } := by
  have hstep (s : State) (k : Key) :
      (if (s.driveKey k).state.holdsKey && f (s.driveKey k) then enterLetGo k s else s) =
        s.setDriveKey k ((s.driveKey k).letGoIf f s.now) := by
    unfold DriveKey.letGoIf
    split
    · next h =>
      refine putDriveKey_driven (fun hrest => ?_) (by simp [DriveKey.lettingGo])
      rw [hrest] at h
      exact nomatch h
    · rw [setDriveKey_driveKey]
  have hfold : ∀ (ks : List Key), ks.Nodup → ∀ s : State,
      ks.foldl (fun s k => if (s.driveKey k).state.holdsKey && f (s.driveKey k) then enterLetGo k s else s) s =
        { s with drive := { s.drive with
          keys := bankMap (fun k d => if k ∈ ks then d.letGoIf f s.now else d) s.drive.keys } } := by
    intro ks
    induction ks with
    | nil =>
      intro _ s
      have hsame : bankMap (fun (_ : Key) (d : DriveKey) => d) s.drive.keys = s.drive.keys := bank_ext fun k => by simp
      simp [hsame]
    | cons k ks ih =>
      intro hnodup s
      obtain ⟨hk, hnodup⟩ := List.nodup_cons.mp hnodup
      rw [List.foldl_cons, hstep, ih hnodup]
      have hbank : bankMap (fun j (d : DriveKey) => if j ∈ ks then d.letGoIf f s.now else d)
          (bankSet s.drive.keys k ((s.driveKey k).letGoIf f s.now)) =
            bankMap (fun j (d : DriveKey) => if j ∈ k :: ks then d.letGoIf f s.now else d) s.drive.keys := bank_ext fun j => by
        rw [bankGet_bankMap, bankGet_bankMap, bankGet_bankSet]
        by_cases hj : j = k
        · subst hj
          rw [if_pos rfl, if_neg hk, if_pos List.mem_cons_self]
          rfl
        · simp only [List.mem_cons, hj, false_or, if_false]
      exact congrArg (fun keys => { s with drive := { s.drive with keys := keys } }) hbank
  refine (hfold allKeys (List.nodup_finRange 88) s).trans ?_
  have hall : ∀ k : Key, k ∈ allKeys := List.mem_finRange
  simp only [hall, if_true]

theorem letGoKeys_driveKey (f : DriveKey → Bool) (s : State) (k : Key) :
    (letGoKeys f s).driveKey k = (s.driveKey k).letGoIf f s.now := by
  rw [letGoKeys_eq, State.driveKey, bankGet_bankMap]
  rfl

/-! ### The plan purged (R127) -/

theorem freePlan_plan (y : LayerId) (s : State) :
    (freePlan y s).sched.plan = s.sched.plan.filter fun a => a.layer ≠ y := rfl

theorem freePlan_memory {y : LayerId} {s : State} {k : Key} {m : KeyMemory}
    (h : bankGet (freePlan y s).sched.memory k = some m) : m.layer ≠ y := by
  unfold freePlan at h
  dsimp only at h
  rw [bankGet_bankMap] at h
  split at h
  · next n _ =>
    split at h
    · cases h
    · next hne => exact Option.some.inj h ▸ hne
  · cases h

/-- The part once a layer's actions, memories and keys are given up, before the drive unit reports it. -/
def State.givenUp (s : State) (y : LayerId) : State := letGoKeys (fun d => d.owner = some y) (freePlan y s)

theorem givenUp_driveKey (s : State) (y : LayerId) (k : Key) :
    (s.givenUp y).driveKey k = (s.driveKey k).letGoIf (fun d => d.owner = some y) s.now := letGoKeys_driveKey ..

/-- With its actions, memories and keys given up nothing of the layer is left with the scheduler and the drive unit. -/
theorem apart_givenUp (y : LayerId) (s : State) : Apart y (s.layer y) (DriveKeysSound s) (s.givenUp y) where
  layer := by
    rw [State.givenUp, letGoKeys_eq]
    exact layer_eq_of_fields rfl rfl y
  plan a ha := by
    rw [State.givenUp, letGoKeys_eq] at ha
    simpa using (List.mem_filter.mp ha).2
  memory k m hm := by
    rw [State.givenUp, letGoKeys_eq] at hm
    exact freePlan_memory hm
  owner k ho := by
    rw [givenUp_driveKey] at ho ⊢
    unfold DriveKey.letGoIf at ho ⊢
    split at ho
    · cases ho
    · next h =>
      rw [if_neg h]
      have hnot : (s.driveKey k).state.holdsKey = false := by simpa [ho] using h
      refine ⟨hnot, fun hsound => ?_⟩
      have hholds := (hsound k).1.mp (by rw [ho]; rfl)
      rw [hnot] at hholds
      cases hholds

/-! ### LAYER FREE -/

theorem answerLayerFree_badVal {layer : Byte} {s : State} (h : layerOf layer = none) :
    answerLayerFree layer s = refuse .badVal s := by
  simp only [answerLayerFree, h]

theorem answerLayerFree_state {layer : Byte} {y : LayerId} {s : State} (hy : layerOf layer = some y)
    (h : (s.layer y).state = .free) : answerLayerFree layer s = refuse .state s := by
  simp only [answerLayerFree, hy, if_pos h]

/-- The part once LAYER FREE has released the layer, before the takings it opens. -/
def State.layerFreed (s : State) (y : LayerId) : State := releaseLayer y (respond (freePlan y s) (s.givenUp y))

theorem answerLayerFree_freed {layer : Byte} {y : LayerId} {s : State} (hy : layerOf layer = some y)
    (h : (s.layer y).state ≠ .free) :
    answerLayerFree layer s =
      { status := .ok, body := layerReport ((s.layerFreed y).layer y), state := takeAll (s.layerFreed y) } := by
  simp only [answerLayerFree, hy, if_neg h]
  rfl

theorem apart_layerFreed (y : LayerId) (s : State) : Apart y (s.layer y).freed (DriveKeysSound s) (s.layerFreed y) :=
  (apart_givenUp y s).respond.release

theorem layerFreed_bound (y : LayerId) (s : State) (n : TakeNo) :
    ((s.layerFreed y).store.entry n).bound =
      if (s.layer y).source = some (.take n) then (s.store.entry n).bound - 1 else (s.store.entry n).bound := by
  have hlayer : (respond (freePlan y s) (s.givenUp y)).layer y = s.layer y := (apart_givenUp y s).respond.layer
  have hbound : ((respond (freePlan y s) (s.givenUp y)).store.entry n).bound = (s.store.entry n).bound :=
    (letGoReported_acts (fun d => d.owner = some y) (freePlan y s)).takings.bound n
  rw [State.layerFreed, (released_releaseLayer y _).store, unbound_bound, hlayer, hbound]

/-- With the clock not RUNNING and nothing waiting for a slot, a layer's freeing is its release alone. -/
theorem takeAll_layerFreed {y : LayerId} {s : State} (hr : s.clk.state ≠ .running) (hq : s.drive.queue = []) :
    takeAll (s.layerFreed y) = releaseLayer y (s.givenUp y) := by
  have hnothing : NothingToSchedule (s.givenUp y) := by
    rw [State.givenUp, letGoKeys_eq]
    refine ⟨?_, .inl hr⟩
    exact (congrArg (List.filter _) hq).trans List.filter_nil
  rw [State.layerFreed, respond_of_nothing hnothing]
  refine takeAll_of_not_running ?_
  rw [(released_releaseLayer y _).clk, State.givenUp, letGoKeys_eq]
  exact hr

theorem otherLayer_ne (y : LayerId) : y.other ≠ y := by cases y <;> decide

theorem otherLink_ne (l : Link) : l.other ≠ l := by cases l <;> decide

theorem letGoIf_eq (d : DriveKey) (y : LayerId) (now : Nat) :
    d.letGoIf (fun d => d.owner = some y) now =
      if (d.state = .strike ∨ d.state = .sustain) ∧ d.owner = some y then
        { d with
          state := .letgo, owner := none, sustainDemand := none, reboundGap := none, sustain := none, reboundEnd := none
          letGoAt := some (now + 1000000) }
      else d := by
  simp only [DriveKey.letGoIf, Bool.and_eq_true, holdsKey_iff, decide_eq_true_eq, DriveKey.lettingGo, Config.letGoMicros]

/-- What a layer's release leaves once the layer is given up: the frame of LAYER FREE for a scheduler with nothing to process. -/
theorem released_givenUp (y : LayerId) (s : State) :
    ∃ st layer0 layer1 pedals, st.mem = s.store.mem ∧ st.pool = s.store.pool ∧
      releaseLayer y (s.givenUp y) = { s with
        store := st, layer0 := layer0, layer1 := layer1, sched := (freePlan y s).sched
        drive := { (freePlan y s).drive with keys := (s.givenUp y).drive.keys, pedals := pedals } } := by
  refine ⟨s.store.unbound ((s.givenUp y).layer y).source, (releaseLayer y (s.givenUp y)).layer0,
    (releaseLayer y (s.givenUp y)).layer1, (releaseLayer y (s.givenUp y)).drive.pedals, unbound_mem .., unbound_pool ..,
    (released_releaseLayer y (s.givenUp y)).rest.trans ?_⟩
  rw [State.givenUp, letGoKeys_eq]
  rfl

/-- Settles O42: the refusals, the layer freed with nothing of it left, and the whole effect for a scheduler with nothing to
process. -/
theorem layerFreeReleasesTheSource : Obligations.LayerFreeReleasesTheSource := by
  refine ⟨fun l layer s hl h => exec_of_refusal rfl hl (answerLayerFree_badVal (layerOf_eq_none h)),
    fun l layer y s hl hlayer => ⟨fun h => ?_, fun h => ?_⟩⟩
  · exact exec_of_refusal rfl hl (answerLayerFree_state (layerOf_eq_some hlayer) h)
  · have hfreed := apart_layerFreed y s
    have hapart := hfreed.takeAll rfl
    refine ⟨_, exec_of_answer rfl hl (answerLayerFree_freed (layerOf_eq_some hlayer) h), ?_, ?_, ?_, ?_, ?_, fun n => ?_,
      fun hr hq => ?_⟩
    · exact (layer_replied ..).trans hapart.layer
    · rw [replied_link, hfreed.layer]
      rfl
    · rw [replied_sched]
      exact hapart.plan
    · rw [replied_sched]
      exact hapart.memory
    · intro hsound k ho
      rw [driveKey_replied] at ho
      exact (hapart.owner k ho).2 hsound
    · rw [replied_store, (takeAll_takings _).bound]
      exact layerFreed_bound y s n
    · have hother : ((releaseLayer y (s.givenUp y)).layer y.other) = s.layer y.other := by
        rw [(released_releaseLayer y _).other _ (otherLayer_ne y), State.givenUp, letGoKeys_eq]
        exact layer_eq_of_fields rfl rfl _
      obtain ⟨st, layer0, layer1, pedals, hmem, hpool, heq⟩ := released_givenUp y s
      have hkey (k : Key) : (releaseLayer y (s.givenUp y)).driveKey k = (s.givenUp y).driveKey k := by
        rw [State.driveKey, (released_releaseLayer y _).keys, State.driveKey]
      rw [takeAll_layerFreed hr hq, layer_replied, hother, replied_otherLink _ _ _ _ (otherLink_ne l), replied_sched,
        replied_store, replied_cap, replied_clk, replied_map, replied_run, replied_wall]
      refine ⟨rfl, ?_, ?_, ?_, fun k => ?_, ?_⟩
      · rw [heq]; exact freePlan_plan y s
      · rw [heq]; rfl
      · rw [heq]; cases l <;> rfl
      · rw [driveKey_replied, hkey, givenUp_driveKey, letGoIf_eq]
      · rw [heq]
        exact ⟨hmem, hpool, rfl, rfl, rfl, rfl, rfl⟩

end Sys2Proof.Machine
end

section
/-! SUPPORT. CLOCK LOCATE, CLOCK SOURCE and the clock report (R39, R45, R47), and SYNC: a pulse's error against the nearest
multiple of the sync length, and the loss interval (R48, R49). The statements O30 and O35 made of these. -/

namespace Sys2Proof.Machine

/-! ### The clock report (R39) -/

theorem byte2_eq (x : Nat) : byte2 x = bytes16 (BitVec.ofNat 16 x) := by
  simp [byte2, bytesOfNat, bytes16, extractByte_ofNat]

theorem clockReport_eq (c : Clock) :
    clockReport c =
      [BitVec.ofNat 8 c.state.code] ++ bytes32 (BitVec.ofNat 32 c.position) ++ [BitVec.ofNat 8 c.source.code] ++
        bytes16 (BitVec.ofNat 16 c.syncLength) ++ [BitVec.ofNat 8 c.tracking.code, BitVec.ofInt 8 c.owed] := by
  simp [clockReport, byte1_eq, byte2_eq, byte4_eq, signed1]

/-- A clock request answered with a status gives the report of the clock it leaves. -/
theorem exec_of_clockAnswer {i : Instr} {l : Link} {q : Request} {answer : State → Answer} {s t : State} {st : Status}
    (hexec : exec i s = .next (serve l q answer s)) (hl : (s.link l).slots = .serving q) (ha : answer s = clockAnswer st t) :
    exec i s = .next (t.replied l q st (clockReport t.clk)) := exec_of_answer hexec hl ha

/-! ### CLOCK LOCATE (R45) -/

theorem clampInt_eq {lo hi x : Int} (h : lo ≤ hi) : clampInt lo hi x = max lo (min hi x) := by
  unfold clampInt
  split
  · omega
  · split <;> omega

theorem answerClockLocate_state {p : Word32} {s : State} (h : s.clk.state ≠ .stopped) :
    answerClockLocate p s = clockAnswer .state s := if_neg h

theorem answerClockLocate_ok {p : Word32} {s : State} (h : s.clk.state = .stopped) :
    answerClockLocate p s = clockAnswer .ok { s with clk := { s.clk with
      position := (max 0 (min 2147483647 p.toInt)).toNat, owed := 0, withheld := false } } := by
  have hclamp : clampInt 0 Config.clockLimit p.toInt = max 0 (min 2147483647 p.toInt) := clampInt_eq (by decide)
  rw [answerClockLocate, if_pos h, hclamp]

/-! ### CLOCK SOURCE (R47) -/

theorem answerClockSource_internal (length : Word16) (s : State) :
    answerClockSource 0 length s =
      clockAnswer .ok { s with clk := { s.clk with source := .internal, tracking := .tracking, owed := 0 } } := if_pos rfl

theorem answerClockSource_sync (length : Word16) (s : State) :
    answerClockSource 1 length s = clockAnswer .ok { s with clk := { s.clk with
      source := .sync, syncLength := max 100 (min 8000 length.toNat), tracking := .tracking, owed := 0
      lastPulse := s.now } } := by
  rw [answerClockSource, if_neg (by decide), if_pos rfl, clampNat_eq (by decide)]

theorem answerClockSource_badVal {source : Byte} {length : Word16} {s : State} (h : 1 < source.toNat) :
    answerClockSource source length s = clockAnswer .badVal s := by
  have h0 : source ≠ 0 := fun e => by rw [e] at h; exact absurd h (by decide)
  have h1 : source ≠ 1 := fun e => by rw [e] at h; exact absurd h (by decide)
  rw [answerClockSource, if_neg h0, if_neg h1]

/-- Settles O30: LOCATE outside and in STOPPED, and SOURCE by its three kinds of value. -/
theorem locateAndSource : Obligations.LocateAndSource := by
  refine ⟨fun l v s hl => ?_, fun l source length s hl => ⟨?_, ?_, fun h => ?_⟩⟩
  · intro report
    have hreport (c : Clock) : clockReport c = report c := by
      rw [clockReport_eq]
      obtain ⟨state, position, source, length, follows⟩ := c
      cases state <;> cases source <;> cases follows <;> rfl
    refine ⟨fun h => ?_, fun h => ?_⟩
    · rw [← hreport]
      exact exec_of_clockAnswer rfl hl (answerClockLocate_state h)
    · intro c
      rw [← hreport]
      exact exec_of_clockAnswer rfl hl (answerClockLocate_ok h)
  · rintro rfl
    exact exec_of_clockAnswer rfl hl (answerClockSource_internal ..)
  · rintro rfl
    exact exec_of_clockAnswer rfl hl (answerClockSource_sync ..)
  · exact exec_of_clockAnswer rfl hl (answerClockSource_badVal h)

/-! ### SYNC (R48, R49) -/

/-- The error leads from the position to a multiple of the sync length, the nearest one, and of two equally near the higher. -/
theorem syncError_nearest {c : Clock} (h : 0 < c.syncLength) :
    (c.syncLength : Int) ∣ c.position + c.syncError ∧ -(c.syncLength : Int) < 2 * c.syncError ∧
      2 * c.syncError ≤ c.syncLength := by
  have hdiv := Nat.div_add_mod (2 * c.position + c.syncLength) (2 * c.syncLength)
  have hmod := Nat.mod_lt (2 * c.position + c.syncLength) (y := 2 * c.syncLength) (by omega)
  have herr : c.syncError = (expectedPosition c.position c.syncLength : Int) - c.position := rfl
  have htwice : 2 * expectedPosition c.position c.syncLength =
      2 * c.syncLength * ((2 * c.position + c.syncLength) / (2 * c.syncLength)) := (Nat.mul_assoc ..).symm
  refine ⟨?_, by omega, by omega⟩
  rw [herr, add_sub_cancel]
  exact Int.natCast_dvd_natCast.mpr (Nat.dvd_mul_right ..)

theorem running_iff {s : State} : s.running = true ↔ s.clk.state = .running := decide_eq_true_iff

/-- A pulse is measured where the clock follows SYNC, runs and is not in FAULT (R48). -/
def State.takesPulse (s : State) : Prop := s.clk.source = .sync ∧ s.clk.state = .running ∧ s.clk.tracking ≠ .fault

theorem syncPulse_discarded {s : State} (h : ¬ s.takesPulse) : syncPulse s = s :=
  if_neg fun g => h ⟨g.1, running_iff.mp g.2.1, g.2.2⟩

theorem syncPulse_near {s : State} (h : s.takesPulse) (he : -64 ≤ s.clk.syncError ∧ s.clk.syncError ≤ 64) :
    syncPulse s = { s with clk := { s.clk with
      tracking := .tracking, owed := max (-8) (min 8 s.clk.syncError), lastPulse := s.now } } := by
  obtain ⟨hsource, hrun, hfault⟩ := h
  rw [syncPulse, if_pos ⟨hsource, running_iff.mpr hrun, hfault⟩, if_pos he, clampInt_eq (by decide)]

theorem syncPulse_far {s : State} (h : s.takesPulse) (he : s.clk.syncError < -64 ∨ 64 < s.clk.syncError) :
    syncPulse s = raiseBoth .sync { s with clk := { s.clk with tracking := .fault, owed := 0, lastPulse := s.now } } := by
  obtain ⟨hsource, hrun, hfault⟩ := h
  rw [syncPulse, if_pos ⟨hsource, running_iff.mpr hrun, hfault⟩, if_neg (by omega)]

/-- The loss interval runs out 100·L µs after the later of the last pulse and the last entry to RUNNING (R49). -/
theorem lossAt_le {c : Clock} {now : Nat} :
    c.lossAt ≤ now ↔ c.lastPulse + 100 * c.syncLength ≤ now ∧ c.entered + 100 * c.syncLength ≤ now := by
  unfold Clock.lossAt Config.tickMicros
  omega

theorem lossExpired_lost {s : State} (hsource : s.clk.source = .sync) (hrun : s.clk.state = .running)
    (htracking : s.clk.tracking = .tracking) (hat : s.clk.lossAt ≤ s.now) :
    lossExpired s = raiseBoth .sync { s with clk := { s.clk with tracking := .lost } } :=
  if_pos ⟨hsource, running_iff.mpr hrun, htracking, hat⟩

/-- Settles O35: pulses discarded, near and far, and the loss interval run out or not. -/
theorem syncPulsesAreMeasuredAndMissed : Obligations.SyncPulsesAreMeasuredAndMissed := by
  have hpulse (s : State) : exec .syncPulse s = .next (syncPulse s) := rfl
  have hloss (s : State) : exec .lossIntervalExpiry s = .next (lossExpired s) := rfl
  refine ⟨fun s => ⟨fun h => ?_, fun hsource hrun hfault hlen => ?_⟩, fun s => ⟨?_, fun h => ?_⟩⟩
  · rw [hpulse, syncPulse_discarded h]
  · have htakes : s.takesPulse := ⟨hsource, hrun, hfault⟩
    obtain ⟨hdvd, hlow, hhigh⟩ := syncError_nearest (Int.natCast_pos.mp hlen)
    refine ⟨s.clk.syncError, hdvd, hlow, hhigh, fun he => ?_, fun he => ?_⟩
    · rw [hpulse, syncPulse_near htakes he]
    · rw [hpulse, syncPulse_far htakes he]
  · rintro ⟨hsource, hrun, htracking, hpulses, hentered⟩
    rw [hloss, lossExpired_lost hsource hrun htracking (lossAt_le.mpr ⟨hpulses, hentered⟩)]
  · rw [hloss, lossExpired, if_neg fun ⟨hsource, hrun, htracking, hat⟩ =>
      h ⟨hsource, running_iff.mp hrun, htracking, lossAt_le.mp hat⟩]

end Sys2Proof.Machine
end

section
/-! SUPPORT. A layer's pending settings latched and its stop, each as one update of the layer (R77, R87); the clock's entry into
PAUSED, and the statement O32. -/

namespace Sys2Proof.Machine

/-! ### Settings latched (R77) -/

/-- A layer whose pending settings are latched: the set replaced whole, the demands of pedals no longer passed absent. -/
def Layer.latching (l : Layer) : Layer :=
  match l.staged with
  | none => l
  | some st =>
    { l with
      latched := st, staged := none
      demands := bankMap (fun p v => if st.passes p then v else none) l.demands }

theorem latching_settings (l : Layer) :
    l.latching = { l with latched := l.staged.getD l.latched, staged := none, demands := l.latching.demands } := by
  unfold Layer.latching
  cases hst : l.staged with
  | none =>
    dsimp only [Option.getD_none]
    rw [← hst]
  | some st => rfl

theorem latching_demands (l : Layer) (p : Pedal) :
    bankGet l.latching.demands p =
      if l.staged.isSome = true ∧ bankGet l.latching.latched.pass p = false then none else bankGet l.demands p := by
  unfold Layer.latching
  cases hst : l.staged with
  | none => simp
  | some st =>
    rw [bankGet_bankMap]
    cases hpass : bankGet st.pass p <;> simp [Settings.passes, hpass]

/-- A layer is latched one pedal at a time, which comes to one update of it. -/
theorem latch_layer_same (y : LayerId) (s : State) : (latch y s).layer y = (s.layer y).latching := by
  unfold latch Layer.latching
  cases hst : (s.layer y).staged with
  | none => rfl
  | some st =>
    dsimp only
    generalize hu : s.setLayer y { (s.layer y) with latched := st, staged := none } = u
    have huy : u.layer y = { (s.layer y) with latched := st, staged := none } := by rw [← hu, layer_setLayer_same]
    have hstep (t : State) (p : Pedal) : (if st.passes p then t else setDemand y p none t) = t ∨
        ∃ z v, (if st.passes p then t else setDemand y p none t) = setDemand z p v t := by
      split
      · exact .inl rfl
      · exact .inr ⟨y, none, rfl⟩
    have hother (t : State) (p q : Pedal) (h : p ≠ q) :
        bankGet ((if st.passes q then t else setDemand y q none t).layer y).demands p = bankGet (t.layer y).demands p := by
      split
      · rfl
      · rw [setDemand_layer, if_pos rfl, bankGet_bankSet_other _ _ h]
    have hdemand (p : Pedal) :
        bankGet ((allPedals.foldl (fun t q => if st.passes q then t else setDemand y q none t) u).layer y).demands p =
          if st.passes p then bankGet (s.layer y).demands p else none := by
      refine foldl_establishes (P := fun t => bankGet (t.layer y).demands p = bankGet (s.layer y).demands p) (x := p)
        (fun t q hq ht => (hother t p q (Ne.symm hq)).trans ht) (fun t ht => ?_)
        (fun t q hq ht => (hother t p q (Ne.symm hq)).trans ht) (List.mem_finRange p) (List.nodup_finRange 3) u (by rw [huy])
      split
      · exact ht
      · rw [setDemand_layer, if_pos rfl, bankGet_bankSet_same]
    obtain ⟨b, hb⟩ := setDemands_layer hstep allPedals u y
    have hbank : b = bankMap (fun p v => if st.passes p then v else none) (s.layer y).demands := bank_ext fun p => by
      rw [bankGet_bankMap, ← hdemand p, hb]
    rw [hb, huy, hbank]

theorem latch_layer_other {y z : LayerId} (h : z ≠ y) (s : State) : (latch y s).layer z = s.layer z := by
  unfold latch
  split
  · rfl
  · refine foldl_keeps (Q := fun t => t.layer z = s.layer z) (fun t p _ ht => ?_) _ (layer_setLayer_other _ _ h)
    split
    · exact ht
    · rw [setDemand_layer, if_neg h, ht]

theorem latch_only (y : LayerId) (s : State) : DemandsOnly s (latch y s) := by
  unfold latch
  split
  · rfl
  · refine foldl_keeps (Q := DemandsOnly s) (fun t p _ ht => ?_) _ (setLayer_only ..)
    split
    · exact ht
    · exact ht.trans (setDemand_only ..)

theorem latchBoth_only (s : State) : DemandsOnly s (latchBoth s) := (latch_only ..).trans (latch_only ..)

theorem latchBoth_layer (s : State) (y : LayerId) : (latchBoth s).layer y = (s.layer y).latching := by
  unfold latchBoth
  cases y with
  | l0 => rw [latch_layer_other (by decide), latch_layer_same]
  | l1 => rw [latch_layer_same, latch_layer_other (by decide)]

/-! ### CLOCK PAUSE (R43, R17, R119) -/

theorem capturePause_eq (s : State) :
    capturePause s = { s with cap := { s.cap with state := if s.cap.state = .recording then .paused else s.cap.state } } := by
  unfold capturePause
  split <;> rfl

/-- The part as the clock enters PAUSED: settings latched, the capture unit paused, the wait queue given up. -/
def State.pausing (s : State) : State :=
  withdrawQueue (capturePause (latchBoth { s with clk := { s.clk with state := .paused } }))

theorem pausing_eq (s : State) :
    s.pausing = { s with
      clk := { s.clk with state := .paused }
      cap := { s.cap with state := if s.cap.state = .recording then .paused else s.cap.state }
      layer0 := s.pausing.layer0, layer1 := s.pausing.layer1
      drive := { s.drive with queue := [], pedals := s.pausing.drive.pedals } } := by
  have h := latchBoth_only { s with clk := { s.clk with state := .paused } }
  unfold DemandsOnly at h
  rw [State.pausing, capturePause_eq, h]
  rfl

theorem pausing_layer (s : State) (y : LayerId) : s.pausing.layer y = (s.layer y).latching := by
  have h := latchBoth_layer { s with clk := { s.clk with state := .paused } } y
  rw [State.pausing, capturePause_eq]
  exact (layer_eq_of_fields rfl rfl y).trans (h.trans (congrArg Layer.latching (layer_eq_of_fields rfl rfl y)))

theorem answerClockPause_stopped {s : State} (h : s.clk.state = .stopped) : answerClockPause s = clockAnswer .state s := by
  simp only [answerClockPause, h]

theorem answerClockPause_paused {s : State} (h : s.clk.state = .paused) : answerClockPause s = clockAnswer .ok s := by
  simp only [answerClockPause, h]

theorem answerClockPause_running {s : State} (h : s.clk.state = .running) :
    answerClockPause s = clockAnswer .ok s.pausing := by
  simp only [answerClockPause, h, State.pausing]

/-- Settles O32: the refusal, the request that changes nothing, and the clock's entry into PAUSED. -/
theorem clockPauseHoldsTheReplay : Obligations.ClockPauseHoldsTheReplay := by
  refine fun l s hl => ⟨fun h => exec_of_clockAnswer rfl hl (answerClockPause_stopped h),
    fun h => exec_of_clockAnswer rfl hl (answerClockPause_paused h), fun h => ?_⟩
  refine ⟨_, exec_of_clockAnswer rfl hl (answerClockPause_running h), ?_⟩
  simp only [replied_clk, replied_link, replied_sched, replied_drive, replied_store, replied_map, replied_run, replied_wall,
    replied_cap, replied_otherLink _ _ _ _ (otherLink_ne l), layer_replied, pausing_layer]
  have hclk : s.pausing.clk = { s.clk with state := .paused } := by rw [pausing_eq]
  refine ⟨hclk, by rw [hclk]; rfl, ?sched, ?keys, ?queue, ?power, ?store, ?map, ?run, ?wall, ?link, ?cap,
    fun y => latching_settings _, fun y p => latching_demands _ p⟩
  case link => rw [pausing_eq]; cases l <;> rfl
  all_goals rw [pausing_eq]

end Sys2Proof.Machine
end

section
/-! SUPPORT. The stop of the clock as every block takes it (R44): the keys let go with their fire ticks gone, the layers back to
BOUND, and the capture take closed; the statement O33. -/

namespace Sys2Proof.Machine

/-! ### A layer stopped (R87) -/

/-- A CUED or PLAYING layer at a stop: BOUND, its cue gone, a stream's ring emptied. -/
def Layer.unplayed (l : Layer) : Layer :=
  let bound : Layer :=
    { l with
      state := .bound, cue := none, origin := none, chase := Vector.replicate 3 none, endFetched := false
      demands := Vector.replicate 3 none }
  match l.source with
  | some (.stream _) => { bound with ring := [], fedTime := 0, endFed := false, highArmed := true, lowArmed := true }
  | _ => bound

/-- A layer at a stop. -/
def Layer.stopped (l : Layer) : Layer := if l.state = .cued ∨ l.state = .playing then l.unplayed else l

theorem unplayed_fields (l : Layer) :
    l.unplayed.state = .bound ∧ l.unplayed.cue = none ∧ l.unplayed.origin = none ∧ l.unplayed.endFetched = false ∧
      ∀ p, bankGet l.unplayed.chase p = none ∧ bankGet l.unplayed.demands p = none := by
  unfold Layer.unplayed
  dsimp only
  split <;> exact ⟨rfl, rfl, rfl, rfl, fun p => ⟨bankGet_replicate .., bankGet_replicate ..⟩⟩

theorem unplayed_stream {l : Layer} {link : Link} (h : l.source = some (.stream link)) :
    l.unplayed.ring = [] ∧ l.unplayed.fedTime = 0 ∧ l.unplayed.endFed = false ∧ l.unplayed.highArmed = true ∧
      l.unplayed.lowArmed = true := by
  simp only [Layer.unplayed, h, and_self]

/-- What a stop leaves of every layer: its source, its marks and its settings. -/
theorem stopped_kept (l : Layer) :
    l.stopped.source = l.source ∧ l.stopped.low = l.low ∧ l.stopped.high = l.high ∧ l.stopped.latched = l.latched ∧
      l.stopped.staged = l.staged := by
  unfold Layer.stopped Layer.unplayed
  dsimp only
  split
  · split <;> exact ⟨rfl, rfl, rfl, rfl, rfl⟩
  · exact ⟨rfl, rfl, rfl, rfl, rfl⟩

theorem stopLayer_layer_same (y : LayerId) (s : State) : (stopLayer y s).layer y = (s.layer y).stopped := by
  unfold stopLayer Layer.stopped Layer.unplayed
  dsimp only
  split
  · rw [dropDemands_layer, layer_setLayer_same]
    cases (s.layer y).source with
    | none => rfl
    | some src => cases src <;> rfl
  · rfl

theorem stopLayer_layer_other {y z : LayerId} (h : z ≠ y) (s : State) : (stopLayer y s).layer z = s.layer z := by
  unfold stopLayer
  dsimp only
  split
  · rw [dropDemands_layer_other h, layer_setLayer_other _ _ h]
  · rfl

theorem stopLayer_only (y : LayerId) (s : State) : DemandsOnly s (stopLayer y s) := by
  unfold stopLayer
  dsimp only
  split
  · exact (setLayer_only ..).trans (dropDemands_only ..)
  · rfl

/-- Both layers stopped. -/
def stopLayers (s : State) : State := stopLayer .l1 (stopLayer .l0 s)

theorem stopLayers_only (s : State) : DemandsOnly s (stopLayers s) := (stopLayer_only ..).trans (stopLayer_only ..)

theorem stopLayers_layer (s : State) (y : LayerId) : (stopLayers s).layer y = (s.layer y).stopped := by
  unfold stopLayers
  cases y with
  | l0 => rw [stopLayer_layer_other (by decide), stopLayer_layer_same]
  | l1 => rw [stopLayer_layer_same, stopLayer_layer_other (by decide)]

/-! ### The plan emptied and the keys let go (R126, R138) -/

/-- A key's record at a stop: let go from STRIKE and SUSTAIN, its last fire tick gone. -/
def DriveKey.stopped (d : DriveKey) (now : Nat) : DriveKey := { d.letGoIf (fun _ => true) now with lastFire := none }

theorem stoppedKey_eq (d : DriveKey) (now : Nat) :
    d.stopped now =
      if d.state = .strike ∨ d.state = .sustain then
        { d with
          state := .letgo, owner := none, sustainDemand := none, reboundGap := none, sustain := none, reboundEnd := none
          letGoAt := some (now + 1000000), lastFire := none }
      else { d with lastFire := none } := by
  simp only [DriveKey.stopped, DriveKey.letGoIf, Bool.and_true, holdsKey_iff]
  split <;> rfl

/-- The scheduler's and the drive unit's part of a stop. -/
def silence (s : State) : State := dropLastFires (letGoReported (fun _ => true) (clearPlan s))

/-- With the clock no longer RUNNING and the wait queue empty, the keys let go leave the scheduler nothing to process. -/
theorem silence_eq {s : State} (h : s.clk.state ≠ .running) :
    silence s = { s with
      sched := { s.sched with plan := [], memory := Vector.replicate 88 none }
      drive := { s.drive with keys := bankMap (fun _ d => d.stopped s.now) s.drive.keys, queue := [] } } := by
  have hnothing : NothingToSchedule (letGoKeys (fun _ => true) (clearPlan s)) := by
    rw [letGoKeys_eq]
    exact ⟨rfl, .inl h⟩
  have hkeys : bankMap (fun _ (d : DriveKey) => { d with lastFire := none })
      (bankMap (fun _ d => d.letGoIf (fun _ => true) s.now) s.drive.keys) =
        bankMap (fun _ d => d.stopped s.now) s.drive.keys := bank_ext fun k => by
    simp only [bankGet_bankMap, DriveKey.stopped]
  rw [silence, letGoReported, respond_of_nothing hnothing, letGoKeys_eq, ← hkeys]
  rfl

/-! ### The capture take closed (R18) -/

/-- The capture unit's part of a stop. -/
def endCapture (s : State) : State := if s.cap.state = .idle then s else stopCapture s

/-- Closing the capture take touches the store and the capture unit alone. -/
theorem stopCapture_only (s : State) :
    stopCapture s = { s with
      store := (stopCapture s).store, cap := { s.cap with state := .idle, target := none, origin := none } } := by
  cases ht : s.cap.target with
  | none => rw [stopCapture, closeCapture_of_no_target _ ht]
  | some t => rw [stopCapture, closeCapture_eq _ ht]

theorem endCapture_only (s : State) :
    endCapture s = { s with store := (endCapture s).store, cap := (endCapture s).cap } := by
  unfold endCapture
  split
  · rfl
  · rw [stopCapture_only]

theorem endCapture_layer (s : State) (y : LayerId) : (endCapture s).layer y = s.layer y := by
  unfold endCapture
  split
  · rfl
  · exact closeCapture_layer ..

/-! ### The stop, block by block (R44) -/

/-- The settings a stop latches on leaving RUNNING (R77). -/
def latchLeaving (running : Bool) (s : State) : State := if running then latchBoth s else s

theorem stopWork_eq (running : Bool) (s : State) :
    stopWork running s = endCapture (stopLayers (silence (latchLeaving running s))) := rfl

theorem latchLeaving_only (running : Bool) (s : State) : DemandsOnly s (latchLeaving running s) := by
  cases running
  · rfl
  · exact latchBoth_only s

theorem latchLeaving_layer (running : Bool) (s : State) (y : LayerId) :
    (latchLeaving running s).layer y = if running then (s.layer y).latching else s.layer y := by
  cases running
  · rfl
  · exact latchBoth_layer s y

/-- The part at a stop before the capture unit's part of it. -/
theorem stopLayers_silence_eq {s : State} (running : Bool) (h : s.clk.state ≠ .running) :
    let t := stopLayers (silence (latchLeaving running s))
    t = { s with
      sched := { s.sched with plan := [], memory := Vector.replicate 88 none }, layer0 := t.layer0, layer1 := t.layer1
      drive := { s.drive with
        keys := bankMap (fun _ d => d.stopped s.now) s.drive.keys, queue := [], pedals := t.drive.pedals } } := by
  have hlatch := latchLeaving_only running s
  unfold DemandsOnly at hlatch
  have hclk : (latchLeaving running s).clk.state ≠ .running := by rw [hlatch]; exact h
  have hlayers := stopLayers_only (silence (latchLeaving running s))
  unfold DemandsOnly at hlayers
  dsimp only
  generalize stopLayers (silence (latchLeaving running s)) = t at hlayers
  rw [hlayers, silence_eq hclk, hlatch]
  rfl

/-- What a stop leaves of the blocks other than the layers and the capture unit. -/
theorem stopWork_only {s : State} (running : Bool) (h : s.clk.state ≠ .running) :
    let t := stopWork running s
    t = { s with
      sched := { s.sched with plan := [], memory := Vector.replicate 88 none }, layer0 := t.layer0, layer1 := t.layer1
      cap := t.cap, store := t.store
      drive := { s.drive with
        keys := bankMap (fun _ d => d.stopped s.now) s.drive.keys, queue := [], pedals := t.drive.pedals } } := by
  have hbefore := stopLayers_silence_eq running h
  dsimp only at hbefore ⊢
  rw [stopWork_eq]
  generalize stopLayers (silence (latchLeaving running s)) = u at hbefore
  rw [endCapture_only, hbefore]

theorem stopWork_layer {s : State} (running : Bool) (h : s.clk.state ≠ .running) (y : LayerId) :
    (stopWork running s).layer y = (if running then (s.layer y).latching else s.layer y).stopped := by
  have hlatch := latchLeaving_only running s
  unfold DemandsOnly at hlatch
  have hclk : (latchLeaving running s).clk.state ≠ .running := by rw [hlatch]; exact h
  have hsilence : (silence (latchLeaving running s)).layer y = (latchLeaving running s).layer y := by
    rw [silence_eq hclk]
    exact layer_eq_of_fields rfl rfl y
  rw [stopWork_eq, endCapture_layer, stopLayers_layer, hsilence, latchLeaving_layer]

/-- The capture unit at a stop: as it is in IDLE; else IDLE, its take closed (R18). -/
theorem stopWork_capture {s : State} (running : Bool) (h : s.clk.state ≠ .running) :
    (s.cap.state = .idle → (stopWork running s).cap = s.cap ∧ (stopWork running s).store = s.store) ∧
      (s.cap.state ≠ .idle →
        (stopWork running s).cap = { s.cap with state := .idle, target := none, origin := none } ∧
          ∀ n, s.cap.target = some n → MemoryCanonical s →
            match s.cap.origin with
            | some o => s.store.ClosedAt n (s.clk.position - o) (stopWork running s).store
            | none => (s.store.setOrigin n s.clk.position).ClosedAt n 0 (stopWork running s).store) := by
  have hbefore := stopLayers_silence_eq running h
  dsimp only at hbefore
  rw [stopWork_eq]
  generalize stopLayers (silence (latchLeaving running s)) = u at hbefore
  have hcap : u.cap = s.cap := by rw [hbefore]
  have hstore : u.store = s.store := by rw [hbefore]
  have hclk : u.clk = s.clk := by rw [hbefore]
  rw [← hcap, ← hstore, ← hclk]
  refine ⟨fun hidle => ?_, fun hidle => ?_⟩
  · rw [endCapture, if_pos hidle]
    exact ⟨rfl, rfl⟩
  · rw [endCapture, if_neg hidle]
    refine ⟨by rw [stopCapture_only], fun n hn hmem => ?_⟩
    obtain ⟨st', hclosed, heq⟩ := stopCapture_eq hn (show MemoryCanonical u by rw [MemoryCanonical, hstore]; exact hmem)
    rw [heq]
    exact hclosed

/-! ### CLOCK STOP -/

theorem answerClockStop_eq (s : State) :
    answerClockStop s =
      clockAnswer .ok (stopWork s.running { s with clk := { s.clk with state := .stopped, owed := 0 } }) := by
  rw [answerClockStop, stopClock_eq]

/-- A layer at CLOCK STOP, its settings latched first where the clock leaves RUNNING. -/
theorem stopped_latching (l : Layer) (running : Bool) :
    let m := (if running then l.latching else l).stopped
    (l.state = .cued ∨ l.state = .playing →
      m.state = .bound ∧ m.cue = none ∧ m.origin = none ∧ m.endFetched = false ∧
        (∀ p, bankGet m.chase p = none ∧ bankGet m.demands p = none) ∧
        ∀ link, l.source = some (.stream link) →
          m.ring = [] ∧ m.fedTime = 0 ∧ m.endFed = false ∧ m.highArmed = true ∧ m.lowArmed = true) ∧
      (l.state ≠ .cued → l.state ≠ .playing → m.state = l.state) ∧
      m.source = l.source ∧ m.low = l.low ∧ m.high = l.high ∧
      (m.latched, m.staged) = if running then (l.staged.getD l.latched, none) else (l.latched, l.staged) := by
  intro m
  generalize hn : (if running then l.latching else l) = n
  have hkept : n.state = l.state ∧ n.source = l.source ∧ n.low = l.low ∧ n.high = l.high ∧
      (n.latched, n.staged) = if running then (l.staged.getD l.latched, none) else (l.latched, l.staged) := by
    rw [← hn]
    cases running
    · exact ⟨rfl, rfl, rfl, rfl, rfl⟩
    · rw [if_pos rfl, latching_settings]
      exact ⟨rfl, rfl, rfl, rfl, rfl⟩
  obtain ⟨hstate, hsource, hlow, hhigh, hsettings⟩ := hkept
  obtain ⟨ksource, klow, khigh, klatched, kstaged⟩ := stopped_kept n
  have hm : m = n.stopped := congrArg Layer.stopped hn
  rw [hm, ksource, klow, khigh, klatched, kstaged, ← hstate, ← hsource]
  refine ⟨fun hreplay => ?_, fun hcued hplaying => ?_, rfl, hlow, hhigh, hsettings⟩
  · rw [Layer.stopped, if_pos hreplay]
    obtain ⟨hbound, hcue, horigin, hend, hbanks⟩ := unplayed_fields n
    exact ⟨hbound, hcue, horigin, hend, hbanks, fun link hl => unplayed_stream hl⟩
  · rw [Layer.stopped, if_neg (not_or.mpr ⟨hcued, hplaying⟩)]

/-- Settles O33: the stop's work, block by block, with the reply in its link's slot. -/
theorem clockStopIsTakenByEveryBlock : Obligations.ClockStopIsTakenByEveryBlock := by
  intro l s hl c
  have hstopped : ({ s with clk := c } : State).clk.state ≠ .running := nofun
  have honly := stopWork_only s.running hstopped
  have hlayer := stopWork_layer s.running hstopped
  obtain ⟨hidle, hclosed⟩ := stopWork_capture s.running hstopped
  refine ⟨_, exec_of_clockAnswer rfl hl (answerClockStop_eq s), ?_⟩
  change stopWork s.running { s with clk := c } = _ at honly
  simp only [replied_clk, replied_link, replied_sched, replied_drive, replied_store, replied_map, replied_run, replied_wall,
    replied_cap, driveKey_replied, layer_replied]
  generalize stopWork s.running { s with clk := c } = t at honly hlayer hidle hclosed
  have hclk : t.clk = c := by rw [honly]
  have hsched : t.sched = { s.sched with plan := [], memory := Vector.replicate 88 none } := by rw [honly]
  refine ⟨hclk, by rw [hclk]; rfl, by rw [hsched], fun k => by rw [hsched, bankGet_replicate], by rw [honly], by rw [honly],
    by rw [honly], fun k => ?_, fun y => ?_, hidle, hclosed, by rw [honly], by rw [honly], by rw [honly]⟩
  · have hkeys : t.drive.keys = bankMap (fun _ d => d.stopped s.now) s.drive.keys := by rw [honly]; rfl
    rw [State.driveKey, hkeys, bankGet_bankMap, stoppedKey_eq]
    rfl
  · have hrun : (s.clk.state = .running) = (s.running = true) := propext running_iff.symm
    have hsame : ({ s with clk := c } : State).layer y = s.layer y := layer_eq_of_fields rfl rfl y
    rw [hlayer, hsame]
    simp only [hrun]
    exact stopped_latching (s.layer y) s.running

end Sys2Proof.Machine
end

section
/-! SUPPORT. The service-period event: every key's heat, and the map's count with the check at the 64th (R38, R65, R66, R105,
R142); INTEGRITY_CHECK as the map's half of that event. The statement O39. -/

namespace Sys2Proof.Machine

/-! ### The map's half of the event (R65, R66) -/

/-- The count comes to 64 and the check, made in GOOD alone, finds the storage differing from the check word. -/
abbrev CalMap.findsFault (m : CalMap) : Prop := m.count + 1 ≥ 64 ∧ m.integrity = .good ∧ m.sum ≠ m.check

/-- The map after a counted period. -/
def CalMap.periodCounted (m : CalMap) : CalMap :=
  { m with
    count := if m.count + 1 < 64 then m.count + 1 else 0, integrity := if m.findsFault then .fault else m.integrity }

theorem integrityTest_found {s : State} (h : s.map.integrity = .good ∧ s.map.sum ≠ s.map.check) :
    integrityTest s = raiseBoth .mapFault { s with map := { s.map with integrity := .fault } } := if_pos h

theorem integrityTest_unfound {s : State} (h : ¬ (s.map.integrity = .good ∧ s.map.sum ≠ s.map.check)) :
    integrityTest s = s := if_neg h

theorem countPeriod_found {s : State} (h : s.map.findsFault) :
    countPeriod s = raiseBoth .mapFault { s with map := s.map.periodCounted } := by
  have hcount : ¬ s.map.count + 1 < 64 := Nat.not_lt.mpr h.1
  rw [CalMap.periodCounted, if_neg hcount, if_pos h, countPeriod, Config.checkPeriods, if_neg hcount]
  exact integrityTest_found h.2

theorem countPeriod_unfound {s : State} (h : ¬ s.map.findsFault) : countPeriod s = { s with map := s.map.periodCounted } := by
  rw [CalMap.periodCounted, if_neg h, countPeriod, Config.checkPeriods]
  split
  · rfl
  · next hcount => exact integrityTest_unfound fun g => h ⟨Nat.not_lt.mp hcount, g⟩

/-- The 64th period: the count back at 0, the check made. -/
theorem periodCounted_of_full {m : CalMap} (h : m.count = 63) :
    m.periodCounted =
      { m with count := 0, integrity := if m.integrity = .good ∧ m.sum ≠ m.check then .fault else m.integrity } := by
  have hfull : m.count + 1 ≥ 64 := by omega
  simp only [CalMap.periodCounted, CalMap.findsFault, hfull, true_and, if_neg (Nat.not_lt.mpr hfull)]

/-! ### SERVICE_PERIOD and INTEGRITY_CHECK (R38, R105) -/

/-- The drive unit's half of a due event, with the next period begun. -/
def State.heated (s : State) : State :=
  { s with
    wall := { s.wall with service := s.wall.service + 10000 }
    drive := { s.drive with keys := bankMap (fun _ d => d.period) s.drive.keys } }

theorem servicePeriodEnd_due {s : State} (hdue : s.wall.service ≤ s.now) (hcounted : s.map.counted = false) :
    servicePeriodEnd s = countPeriod s.heated := by
  rw [servicePeriodEnd, if_pos hdue]
  exact if_neg (by rw [Bool.not_eq_true]; exact hcounted)

theorem servicePeriodEnd_counted {s : State} (hdue : s.wall.service ≤ s.now) (hcounted : s.map.counted = true) :
    servicePeriodEnd s = { s.heated with map := { s.map with counted := false } } := by
  rw [servicePeriodEnd, if_pos hdue]
  exact if_pos hcounted

/-- The part after the map's half of the event has been taken, but for the notice. -/
def State.halfCounted (s : State) : State := { s with map := { s.map.periodCounted with counted := true } }

/-- The map's half of the event is due. -/
structure State.MapHalfDue (s : State) : Prop where
  due     : s.wall.service ≤ s.now
  counted : s.map.counted = false
  count   : s.map.count = 63

theorem integrityPeriod_due {s : State} (h : s.MapHalfDue) :
    integrityPeriod s = { countPeriod s with map := { (countPeriod s).map with counted := true } } :=
  if_pos ⟨h.due, by rw [h.counted]; decide, by rw [h.count]⟩

theorem integrityPeriod_found {s : State} (h : s.MapHalfDue) (hfound : s.map.findsFault) :
    integrityPeriod s = raiseBoth .mapFault s.halfCounted := by
  rw [integrityPeriod_due h, countPeriod_found hfound]
  rfl

theorem integrityPeriod_unfound {s : State} (h : s.MapHalfDue) (hfound : ¬ s.map.findsFault) :
    integrityPeriod s = s.halfCounted := by
  rw [integrityPeriod_due h, countPeriod_unfound hfound]
  rfl

theorem integrityPeriod_absent {s : State} (h : s.now < s.wall.service ∨ s.map.count ≠ 63) : integrityPeriod s = s := by
  refine if_neg fun ⟨hdue, _, hcount⟩ => ?_
  have hfull : s.map.count = 63 := Nat.succ.inj hcount
  omega

/-- The map's half taken first leaves the rest of the event to SERVICE_PERIOD, and the two are the whole event. -/
theorem servicePeriodEnd_integrityPeriod {s : State} (hcounted : s.map.counted = false) :
    servicePeriodEnd (integrityPeriod s) = servicePeriodEnd s := by
  by_cases hhalf : s.wall.service ≤ s.now ∧ s.map.count = 63
  · obtain ⟨hdue, hcount⟩ := hhalf
    have hmap : ({ s.map.periodCounted with counted := false } : CalMap) = s.map.periodCounted := by
      rw [← hcounted]
      rfl
    rw [servicePeriodEnd_due hdue hcounted]
    by_cases hfound : s.map.findsFault
    · rw [integrityPeriod_found ⟨hdue, hcounted, hcount⟩ hfound,
        servicePeriodEnd_counted (s := raiseBoth .mapFault s.halfCounted) hdue rfl,
        countPeriod_found (s := s.heated) hfound]
      exact congrArg (fun m => raiseBoth .mapFault { s.heated with map := m }) hmap
    · rw [integrityPeriod_unfound ⟨hdue, hcounted, hcount⟩ hfound,
        servicePeriodEnd_counted (s := s.halfCounted) hdue rfl, countPeriod_unfound (s := s.heated) hfound]
      exact congrArg (fun m => { s.heated with map := m }) hmap
  · rw [integrityPeriod_absent (by omega)]

/-- Settles O39: the heat and the count of a whole event, and INTEGRITY_CHECK as its map's half. -/
theorem servicePeriodCoolsAndCounts : Obligations.ServicePeriodCoolsAndCounts := by
  have hservice (s : State) : exec .servicePeriod s = .next (servicePeriodEnd s) := rfl
  have hcheck (s : State) : exec .integrityCheck s = .next (integrityPeriod s) := rfl
  refine ⟨fun s hdue hcounted => ?_, fun s hcounted => ⟨fun hdue hcount => ?_, fun h => ?_, fun u hu => ?_⟩⟩
  · intro heated found
    have hkeys : (countPeriod s.heated).drive.keys = bankMap (fun _ d => d.period) s.drive.keys := by
      by_cases hfound : s.heated.map.findsFault
      · rw [countPeriod_found hfound]; rfl
      · rw [countPeriod_unfound hfound]; rfl
    refine ⟨_, by rw [hservice, servicePeriodEnd_due hdue hcounted], fun k => ?_, ?_⟩
    · rw [State.driveKey, hkeys, bankGet_bankMap]
      rfl
    · rw [hkeys]
      by_cases hfound : found
      · exact (countPeriod_found (s := s.heated) hfound).trans (if_pos hfound).symm
      · exact (countPeriod_unfound (s := s.heated) hfound).trans (if_neg hfound).symm
  · intro found u
    have hhalf : s.halfCounted = u := by
      rw [State.halfCounted, periodCounted_of_full hcount]
    have hfull : s.map.count + 1 ≥ 64 := by omega
    rw [hcheck, ← hhalf]
    by_cases hfound : found
    · rw [if_pos hfound, integrityPeriod_found ⟨hdue, hcounted, hcount⟩ ⟨hfull, hfound⟩]
    · rw [if_neg hfound, integrityPeriod_unfound ⟨hdue, hcounted, hcount⟩ fun g => hfound g.2]
  · rw [hcheck, integrityPeriod_absent h]
  · rw [hcheck] at hu
    rw [hservice, hservice, ← Host.Outcome.next.inj hu, servicePeriodEnd_integrityPeriod hcounted]

end Sys2Proof.Machine
end

section
/-! SUPPORT. The map's entries in their ranges (R53, R55) and the levels of a threshold search (R154, R155): what every write of
an entry and every operation of a run keeps of them, of the check word (R57) and of FAULT (R66). -/

namespace Sys2Proof.Machine

/-! ### Knots and fields in range (R59) -/

theorem zip_tail_all_iff {l : List Nat} :
    (l.zip l.tail).all (fun d => decide (d.1 ≤ d.2)) = true ↔ l.Pairwise (· ≤ ·) := by
  rw [← List.isChain_iff_pairwise]
  induction l with
  | nil => simp
  | cons a l ih =>
    cases l with
    | nil => simp
    | cons b l =>
      rw [List.isChain_cons_cons, ← ih]
      simp

/-- The knots of a body: each in range, and none below one before it. -/
theorem knotsGood_iff {ks : Bank Word16 9} :
    knotsGood ks = true ↔
      (∀ i : Fin 9, (bankGet ks i).toNat ≤ 4095) ∧
        ∀ i j : Fin 9, i ≤ j → (bankGet ks i).toNat ≤ (bankGet ks j).toNat := by
  have hall : (ks.toList.all fun d => decide (d.toNat ≤ 4095)) = true ↔ ∀ i : Fin 9, (bankGet ks i).toNat ≤ 4095 := by
    simp only [List.all_eq_true, decide_eq_true_eq, List.forall_mem_iff_getElem, Vector.length_toList, Vector.getElem_toList]
    exact ⟨fun h i => h i.val i.isLt, fun h i hi => h ⟨i, hi⟩⟩
  have hzip : ((ks.toList.zip ks.toList.tail).all fun d => decide (d.1.toNat ≤ d.2.toNat)) =
      (((ks.toList.map BitVec.toNat).zip (ks.toList.map BitVec.toNat).tail).all fun d => decide (d.1 ≤ d.2)) := by
    rw [← List.map_tail, List.zip_map, List.all_map]
    rfl
  have hrise : (ks.toList.map BitVec.toNat).Pairwise (· ≤ ·) ↔
      ∀ i j : Fin 9, i ≤ j → (bankGet ks i).toNat ≤ (bankGet ks j).toNat := by
    simp only [List.pairwise_iff_getElem, List.length_map, Vector.length_toList, List.getElem_map, Vector.getElem_toList]
    refine ⟨fun h i j hij => ?_, fun h i j hi hj hij => h ⟨i, hi⟩ ⟨j, hj⟩ hij.le⟩
    obtain rfl | hlt := eq_or_lt_of_le hij
    · exact le_rfl
    · exact h i.val j.val i.isLt j.isLt hlt
  rw [knotsGood, Bool.and_eq_true, hall, hzip, zip_tail_all_iff, hrise]

theorem keyFieldsGood_iff {f : KeyFields} :
    keyFieldsGood f = true ↔
      f.t.toNat ≤ 4095 ∧ f.sd.toNat ≤ 4094 ∧ f.sd.toNat < f.t.toNat ∧
        (∀ i : Fin 9, (bankGet f.knots i).toNat ≤ 4095) ∧
        (∀ i j : Fin 9, i ≤ j → (bankGet f.knots i).toNat ≤ (bankGet f.knots j).toNat) ∧
        8192 ≤ f.g.toNat ∧ f.g.toNat ≤ 32767 ∧ f.lfix.toNat ≤ 20000 ∧ 1000 ≤ f.s.toNat ∧ f.s.toNat ≤ 6000 ∧
        400 ≤ f.rm.toNat ∧ f.rm.toNat ≤ 4000 ∧ f.rebound.toNat ≤ 40 := by
  simp only [keyFieldsGood, Bool.and_eq_true, decide_eq_true_eq, knotsGood_iff, and_assoc]

theorem pedalFieldsGood_iff {f : PedalFields} :
    pedalFieldsGood f = true ↔
      f.rest.toNat ≤ 4095 ∧ f.rest.toNat ≤ f.full.toNat ∧ f.full.toNat ≤ 4095 ∧ f.lead.toNat ≤ 2000 ∧
        1 ≤ f.deadband.toNat ∧ f.deadband.toNat ≤ 32 := by
  simp only [pedalFieldsGood, Bool.and_eq_true, decide_eq_true_eq, and_assoc]

/-! ### Entries in range (R53, R55) -/

/-- Every SET entry of a map stands in range. -/
def CalMap.EntriesSound (m : CalMap) : Prop := (∀ k, (bankGet m.keys k).Sound) ∧ ∀ p, (bankGet m.pedals p).Sound

theorem mapInRange_iff {s : State} : MapInRange s ↔ s.map.EntriesSound ∧ s.run.LevelsSound := and_assoc.symm

theorem CalMap.EntriesSound.writeKey {m : CalMap} (h : m.EntriesSound) {k : Key} {e : KeyEntry} (he : e.Sound) :
    (m.writeKey k e).EntriesSound := by
  refine ⟨fun j => ?_, h.2⟩
  rw [CalMap.writeKey, bankGet_bankSet]
  split
  · exact he
  · exact h.1 j

theorem CalMap.EntriesSound.writePedal {m : CalMap} (h : m.EntriesSound) {p : Pedal} {e : PedalEntry} (he : e.Sound) :
    (m.writePedal p e).EntriesSound := by
  refine ⟨h.1, fun q => ?_⟩
  rw [CalMap.writePedal, bankGet_bankSet]
  split
  · exact he
  · exact h.2 q

theorem storedKey_sound {f : KeyFields} (h : keyFieldsGood f = true) (result : Word16) : (storedKey f result).Sound := by
  obtain ⟨ht, -, hsd, hknots, hrise, hg, hg', -⟩ := keyFieldsGood_iff.mp h
  exact fun _ => ⟨hsd, ht, hg, hg', hknots, hrise⟩

theorem storedPedal_sound {f : PedalFields} (h : pedalFieldsGood f = true) : (storedPedal f).Sound := by
  obtain ⟨-, hrest, hfull, hlead, hlow, hhigh⟩ := pedalFieldsGood_iff.mp h
  have hband : (storedPedal f).deadband.toNat = f.deadband.toNat := BitVec.toNat_setWidth_of_le (by decide)
  refine fun _ => ⟨hrest, hfull, hlead, ?_⟩
  rw [hband]
  exact ⟨hlow, hhigh⟩

theorem toNat_word16 {n : Nat} (h : n < 65536) : (BitVec.ofNat 16 n).toNat = n := by
  rw [BitVec.toNat_ofNat]; exact Nat.mod_eq_of_lt h

/-- A threshold a search can find leaves a SET entry in range: SD is moved below it (R157, R64). -/
theorem KeyEntry.Sound.withThreshold {e : KeyEntry} (h : e.Sound) {t : Nat} (hlow : 4 ≤ t) (hhigh : t ≤ 4095) :
    (e.withThreshold t).Sound := by
  intro hset
  obtain ⟨-, -, hrest⟩ := h hset
  have ht : (e.withThreshold t).t.toNat = t := toNat_word16 (by omega)
  have hsd : (e.withThreshold t).sd.toNat < t := by
    simp only [KeyEntry.withThreshold]
    split
    · rw [toNat_word16 (by unfold sustainBelow; omega)]
      unfold sustainBelow
      omega
    · next hbelow => exact Nat.not_le.mp hbelow
  exact ⟨by rw [ht]; exact hsd, by rw [ht]; exact hhigh, hrest⟩

theorem createdKnot_le {t i : Nat} (ht : t ≤ 4095) (hi : i ≤ 8) : createdKnot t i ≤ 4095 := by
  have hmul : (4095 - t) * i ≤ (4095 - t) * 8 := Nat.mul_le_mul_left _ hi
  unfold createdKnot
  omega

theorem createdKnot_mono (t : Nat) {i j : Nat} (hij : i ≤ j) : createdKnot t i ≤ createdKnot t j := by
  have hmul : (4095 - t) * i ≤ (4095 - t) * j := Nat.mul_le_mul_left _ hij
  unfold createdKnot
  omega

/-- The entry a search creates stands in range (R157). -/
theorem createdEntry_sound {t : Nat} (hlow : 4 ≤ t) (hhigh : t ≤ 4095) : (createdEntry t).Sound := by
  have hknot (i : Fin 9) : (createdEntry t).knot i = createdKnot t i.val := by
    have hle := createdKnot_le (i := i.val) hhigh (by omega)
    simp only [createdEntry, KeyEntry.knot, bankGet, Vector.getElem_ofFn]
    exact toNat_word16 (by omega)
  have ht : (createdEntry t).t.toNat = t := toNat_word16 (by omega)
  have hsd : (createdEntry t).sd.toNat = t - 64 := toNat_word16 (by unfold sustainBelow; omega)
  intro _
  refine ⟨by rw [ht, hsd]; omega, by rw [ht]; exact hhigh, Nat.le_of_ble_eq_true rfl, Nat.le_of_ble_eq_true rfl,
    fun i => ?_, fun i j hij => ?_⟩
  · rw [hknot]; exact createdKnot_le hhigh (by omega)
  · rw [hknot, hknot]; exact createdKnot_mono t hij

/-- A proved gain leaves an entry in range (R159). -/
theorem KeyEntry.Sound.withGain {e : KeyEntry} (h : e.Sound) (g target average : Nat) (lfix : Word16) :
    KeyEntry.Sound { e with g := BitVec.ofNat 16 (provedGain g target average), lfix := lfix } := by
  obtain ⟨hlow, hhigh⟩ : 8192 ≤ provedGain g target average ∧ provedGain g target average ≤ 32767 :=
    clampNat_bounds (by decide) _
  intro hset
  obtain ⟨hsd, ht, -, -, hknots⟩ := h hset
  have hg : (BitVec.ofNat 16 (provedGain g target average)).toNat = provedGain g target average := toNat_word16 (by omega)
  exact ⟨hsd, ht, by rw [hg]; exact hlow, by rw [hg]; exact hhigh, hknots⟩

/-! ### The check word of a map written (R57) -/

theorem sum_sub_check_writePedal (m : CalMap) (p : Pedal) (e : PedalEntry) :
    (m.writePedal p e).sum - (m.writePedal p e).check = m.sum - m.check := by
  have hsum := sum_bankSet (fun e : PedalEntry => wordSum e.words) m.pedals p e
  have hbits : (m.writePedal p e).sum + BitVec.ofNat 32 (wordSum (bankGet m.pedals p).words) =
      m.sum + BitVec.ofNat 32 (wordSum e.words) := by
    simp only [CalMap.sum, CalMap.writePedal, ← BitVec.ofNat_add]
    congr 1
    omega
  simp only [CalMap.writePedal, checkAfter] at hbits ⊢
  linear_combination hbits

theorem checkWordCurrent_of_sub {s t : State} (h : t.map.sum - t.map.check = s.map.sum - s.map.check)
    (hs : CheckWordCurrent s) : CheckWordCurrent t := by
  unfold CheckWordCurrent at hs ⊢
  rw [hs, sub_self] at h
  exact sub_eq_zero.mp h

/-! ### What an operation keeps of the map -/

/-- From `s` to `t` the check word stays current and FAULT stands; where `P` holds, `t` has the map in range. -/
structure MapWork (P : Prop) (s t : State) : Prop where
  check : CheckWordCurrent s → CheckWordCurrent t
  fault : s.map.integrity = .fault → t.map.integrity = .fault
  range : P → MapInRange t

/-- The check word, FAULT and the map's ranges are kept. -/
abbrev MapKept (s t : State) : Prop := MapWork (MapInRange s) s t

section
variable {P : Prop} {s t u : State}

theorem MapWork.trans (h : MapWork P s t) (g : MapKept t u) : MapWork P s u :=
  ⟨g.check ∘ h.check, g.fault ∘ h.fault, g.range ∘ h.range⟩

theorem MapWork.mono {Q : Prop} (h : MapWork P s t) (hQ : Q → P) : MapWork Q s t := ⟨h.check, h.fault, h.range ∘ hQ⟩

theorem MapWork.sameMap (hm : t.map = s.map) (h : P → MapInRange t) : MapWork P s t :=
  ⟨fun hc => by unfold CheckWordCurrent; rw [hm]; exact hc, fun hf => by rw [hm]; exact hf, h⟩

/-- Work that goes on from a state with the same map. -/
theorem MapWork.after {Q : Prop} (g : MapWork Q t u) (hm : t.map = s.map) (h : P → Q) : MapWork P s u :=
  ⟨fun hc => g.check (by unfold CheckWordCurrent; rw [hm]; exact hc), fun hf => g.fault (by rw [hm]; exact hf), g.range ∘ h⟩

theorem MapKept.refl (s : State) : MapKept s s := ⟨id, id, id⟩

theorem MapKept.unmoved (hm : t.map = s.map) (hr : t.run = s.run) : MapKept s t :=
  .sameMap hm fun h => by
    rw [mapInRange_iff] at h ⊢
    rw [hm, hr]
    exact h

theorem Keeps.mapKept (h : Keeps s t) : MapKept s t := .unmoved h.map h.run

theorem MapKept.foldl {α : Type} {f : State → α → State} (h : ∀ s x, MapKept s (f s x)) (xs : List α) (s : State) :
    MapKept s (xs.foldl f s) := by
  induction xs generalizing s with
  | nil => exact .refl s
  | cons x xs ih => exact (h s x).trans (ih _)

/-- The run controller replaced by one with its levels where they may stand. -/
theorem MapKept.setRun {r : RunController} (h : MapInRange s → r.LevelsSound) : MapKept s (setRun r s) :=
  .sameMap rfl fun hr => mapInRange_iff.mpr ⟨(mapInRange_iff.mp hr).1, h hr⟩

/-- A key entry written by the rule of R57, by one in range where the old one is. -/
theorem MapKept.writeKey {k : Key} {e : KeyEntry} (hm : t.map = s.map.writeKey k e)
    (hr : s.run.LevelsSound → t.run.LevelsSound) (he : MapInRange s → e.Sound) : MapKept s t where
  check := checkWordCurrent_of_sub (by rw [hm]; exact sum_sub_check_writeKey ..)
  fault hf := by rw [hm]; exact hf
  range h := by
    obtain ⟨hentries, hlevels⟩ := mapInRange_iff.mp h
    exact mapInRange_iff.mpr ⟨by rw [hm]; exact hentries.writeKey (he h), hr hlevels⟩

end

/-! ### Working the keys of a run (R151, R161) -/

/-- Where the levels of a threshold search may stand (R154, R155). -/
structure SearchLevels (phase : SearchPhase) (level : Nat) (coarse : Option Nat) : Prop where
  bound   : level ≤ 4095
  first   : phase = .first → level ≤ 3967
  strikes : ∀ c, coarse = some c → 4 ≤ c ∧ c ≤ 4095
  found   : phase = .down ∨ phase = .fine → coarse.isSome = true

theorem levelsSound_iff {r : RunController} :
    r.LevelsSound ↔ (r.state = .running → r.kind = .threshold → SearchLevels r.phase r.level r.coarse) :=
  forall_congr' fun _ => forall_congr' fun _ =>
    ⟨fun ⟨h1, h2, h3, h4⟩ => ⟨h1, h2, h3, h4⟩, fun ⟨h1, h2, h3, h4⟩ => ⟨h1, h2, h3, h4⟩⟩

theorem SearchLevels.sound {r : RunController} (h : SearchLevels r.phase r.level r.coarse) : r.LevelsSound :=
  levelsSound_iff.mpr fun _ _ => h

/-- Past the first pulse any level up to the highest may be probed. -/
theorem SearchLevels.move {phase : SearchPhase} {level next : Nat} {coarse : Option Nat} (h : SearchLevels phase level coarse)
    (hp : phase ≠ .first) (hn : next ≤ 4095) : SearchLevels phase next coarse :=
  ⟨hn, fun e => absurd e hp, h.strikes, h.found⟩

/-- A level of at least 4 that struck becomes the coarse strike. -/
theorem SearchLevels.strike {phase : SearchPhase} {level : Nat} {coarse : Option Nat} (h : SearchLevels phase level coarse)
    (hlow : ¬ level < 4) {next : SearchPhase} (hn : next ≠ .first) : SearchLevels next level (some level) :=
  ⟨h.bound, fun e => absurd e hn, fun _ hc => Option.some.inj hc ▸ ⟨Nat.not_lt.mp hlow, h.bound⟩, fun _ => rfl⟩

theorem MapInRange.search {s : State} (h : MapInRange s) (hs : s.run.state = .running) (hk : s.run.kind = .threshold) :
    SearchLevels s.run.phase s.run.level s.run.coarse := levelsSound_iff.mp (mapInRange_iff.mp h).2 hs hk

theorem MapInRange.setRun {s : State} (h : MapInRange s) {r : RunController} (hr : r.LevelsSound) :
    MapInRange (setRun r s) := mapInRange_iff.mpr ⟨(mapInRange_iff.mp h).1, hr⟩

theorem levelsSound_of_state {r : RunController} (h : r.state ≠ .running) : r.LevelsSound := fun e => absurd e h

theorem levelsSound_of_proof {r : RunController} (h : r.kind = .proof) : r.LevelsSound := fun _ e => nomatch h.symm.trans e

theorem finishRun_work (s : State) : MapWork s.map.EntriesSound s (finishRun s) :=
  .sameMap (finishRun_map s) fun h => mapInRange_iff.mpr
    ⟨by rw [finishRun_map]; exact h, levelsSound_of_state (by rw [finishRun_run]; exact nofun)⟩

theorem finishRun_mapKept (s : State) : MapKept s (finishRun s) :=
  (finishRun_work s).after rfl fun h => (mapInRange_iff.mp h).1

theorem beginRest_mapKept (s : State) : MapKept s (beginRest s) := .setRun fun h => (mapInRange_iff.mp h).2

theorem writeResult_mapKept {f : KeyEntry → KeyEntry} {s : State} (k : Key) (r : RunResult)
    (hf : MapInRange s → ∀ e : KeyEntry, e.Sound → (f e).Sound) : MapKept s (writeResult k r f s) :=
  .writeKey (writeResult_map k r f s) id fun h => hf h _ ((mapInRange_iff.mp h).1.1 k)

/-- The first level of a search lies at most 128 below the highest threshold (R154). -/
theorem prepareKey_levels {e : KeyEntry} (he : e.Sound) (i : Integrity) {r : RunController} (hc : r.coarse = none)
    (hp : r.phase = .first) : (prepareKey e i r).LevelsSound := by
  unfold prepareKey
  split
  · have hlevel : (if e.isSet then e.t.toNat - 128 else 0) ≤ 3967 := by
      split
      · next hset =>
        obtain ⟨-, ht, -⟩ := he hset
        omega
      · omega
    refine SearchLevels.sound ⟨hlevel.trans (by decide), fun _ => hlevel, fun c h => ?_, fun h => ?_⟩
    · rw [hc] at h; cases h
    · rw [hp] at h; cases h <;> contradiction
  · next hk => exact levelsSound_of_proof hk

/-- The keys still to be worked leave the run at a level where a search may begin, or at its end. -/
theorem workBelow_work (n : Nat) (s : State) : MapWork s.map.EntriesSound s (workBelow n s) := by
  induction n generalizing s with
  | zero => exact finishRun_work s
  | succ n ih =>
    unfold workBelow
    split
    · exact ih s
    · next k _ =>
      split
      · have hfree := freeForRun_keeps k (copyKey k s)
        have hmap : (freeForRun k (copyKey k s)).map = s.map := hfree.map
        have hrun : (freeForRun k (copyKey k s)).run = (copyKey k s).run := hfree.run
        dsimp only
        generalize freeForRun k (copyKey k s) = s1 at hmap hrun
        split
        · next hproof =>
          have hcopied : MapWork s.map.EntriesSound s s1 := .sameMap hmap fun h => mapInRange_iff.mpr
            ⟨by rw [hmap]; exact h, levelsSound_of_proof hproof.1⟩
          have hwritten := hcopied.trans (writeResult_mapKept k .noStrike (f := id) fun _ _ => id)
          split
          · exact hwritten.trans (finishRun_mapKept _)
          · exact hwritten.trans ((ih _).after rfl fun h => (mapInRange_iff.mp h).1)
        · refine .sameMap hmap fun h => mapInRange_iff.mpr ⟨?_, ?_⟩
          · exact hmap ▸ h
          · exact prepareKey_levels (by rw [hmap]; exact h.1 k) s1.map.integrity (by rw [hrun]; rfl) (by rw [hrun]; rfl)
      · exact ih s

theorem endKey_mapKept {f : KeyEntry → KeyEntry} {s : State} (k : Key) (r : RunResult)
    (hf : MapInRange s → ∀ e : KeyEntry, e.Sound → (f e).Sound) : MapKept s (endKey k r f s) := by
  unfold endKey
  dsimp only
  split
  · exact (writeResult_mapKept k r hf).trans (finishRun_mapKept _)
  · exact (writeResult_mapKept k r hf).trans ((workBelow_work ..).after rfl fun h => (mapInRange_iff.mp h).1)

theorem endKey_id_mapKept (k : Key) (r : RunResult) (s : State) : MapKept s (endKey k r id s) :=
  endKey_mapKept k r fun _ _ => id

/-! ### The threshold search (R154 to R157) -/

theorem searchFound_mapKept {k : Key} {t : Nat} {s : State} (h : MapInRange s → 4 ≤ t ∧ t ≤ 4095) :
    MapKept s (searchFound k t s) := by
  refine endKey_mapKept k .ok fun hr e he => ?_
  obtain ⟨hlow, hhigh⟩ := h hr
  cases s.run.copy with
  | none => exact createdEntry_sound hlow hhigh
  | some c =>
    dsimp only
    split
    · exact he.withThreshold hlow hhigh
    · exact createdEntry_sound hlow hhigh

section
variable {P : Prop} {k : Key} {level : Nat} {s : State}

theorem searchNext_work (hr : P → MapInRange s) (h : P → SearchLevels s.run.phase level s.run.coarse) :
    MapWork P s (searchNext k level s) := by
  unfold searchNext
  split
  · exact (endKey_id_mapKept ..).mono hr
  · exact .sameMap rfl fun p => (hr p).setRun (h p).sound

/-- A fine search ends at the coarse strike, so it finds no other threshold and probes no level beyond it (R155). -/
theorem searchFine_mapKept (hs : s.run.state = .running) (hk : s.run.kind = .threshold)
    (hc : MapInRange s → s.run.coarse.isSome = true) : MapKept s (searchFine k level s) := by
  have hfine (hr : MapInRange s) : SearchLevels .fine s.run.level s.run.coarse :=
    have h := hr.search hs hk
    ⟨h.bound, nofun, h.strikes, fun _ => hc hr⟩
  have hfineState (hr : MapInRange s) : MapInRange (setRun { s.run with phase := .fine } s) := hr.setRun (hfine hr).sound
  unfold searchFine
  dsimp only
  split
  · next c hsome =>
    split
    · refine .trans ?_ (searchFound_mapKept fun hr => (hr.search hs hk).strikes c hsome)
      exact .sameMap rfl hfineState
    · next hlt =>
      refine .after (searchNext_work (P := MapInRange s) hfineState fun hr => (hfine hr).move nofun ?_) rfl id
      have hhigh := ((hfine hr).strikes c hsome).2
      omega
  · next hnone =>
    refine .after (searchNext_work (P := MapInRange s) hfineState fun hr => ?_) rfl id
    have hsome := hc hr
    rw [hnone] at hsome
    cases hsome

theorem searchHit_mapKept (hs : s.run.state = .running) (hk : s.run.kind = .threshold) : MapKept s (searchHit k s) := by
  unfold searchHit
  dsimp only
  split
  · exact endKey_id_mapKept ..
  · next hlow =>
    have hstrike (hr : MapInRange s) (next : SearchPhase) (hn : next ≠ .first) :
        SearchLevels next s.run.level (some s.run.level) := (hr.search hs hk).strike hlow hn
    split
    · refine .after (searchNext_work (P := MapInRange s) (fun hr => ?_) fun hr => ?_) rfl id
      · exact hr.setRun (hstrike hr .down nofun).sound
      · exact (hstrike hr .down nofun).move nofun ((Nat.sub_le ..).trans (hr.search hs hk).bound)
    · next hp =>
      have hn : s.run.phase ≠ .first := by rw [hp]; exact nofun
      refine .after (searchNext_work (P := MapInRange s) (fun hr => ?_) fun hr => ?_) rfl id
      · exact hr.setRun (hstrike hr _ hn).sound
      · exact (hstrike hr _ hn).move hn ((Nat.sub_le ..).trans (hr.search hs hk).bound)
    · next hp =>
      have hn : s.run.phase ≠ .first := by rw [hp]; exact nofun
      refine .trans ?_ (searchFine_mapKept hs hk fun _ => rfl)
      exact .sameMap rfl fun hr => hr.setRun (hstrike hr _ hn).sound
    · exact searchFound_mapKept fun hr => ⟨Nat.not_lt.mp hlow, (hr.search hs hk).bound⟩

theorem searchMiss_mapKept (hs : s.run.state = .running) (hk : s.run.kind = .threshold) : MapKept s (searchMiss k s) := by
  have hmissed (hr : MapInRange s) : MapInRange (setRun { s.run with lastMiss := some s.run.level } s) :=
    hr.setRun (hr.search hs hk).sound
  unfold searchMiss
  dsimp only
  split
  · next hp =>
    have hup (hr : MapInRange s) : SearchLevels .up s.run.level s.run.coarse :=
      have h := hr.search hs hk
      ⟨h.bound, nofun, h.strikes, by rintro (h | h) <;> cases h⟩
    refine .after (searchNext_work (P := MapInRange s) (fun hr => ?_) fun hr => (hup hr).move nofun ?_) rfl id
    · exact hr.setRun (hup hr).sound
    · have hfirst := (hr.search hs hk).first hp
      omega
  · next hp =>
    have hn : s.run.phase ≠ .first := by rw [hp]; exact nofun
    split
    · refine .trans ?_ (endKey_id_mapKept ..)
      exact .sameMap rfl hmissed
    · next hle =>
      exact .after (searchNext_work (P := MapInRange s) hmissed fun hr => (hr.search hs hk).move hn (Nat.not_lt.mp hle)) rfl id
  · next hp =>
    refine .trans ?_ (searchFine_mapKept hs hk fun hr => (hr.search hs hk).found (.inl hp))
    exact .sameMap rfl hmissed
  · next hp => exact searchFine_mapKept hs hk fun hr => (hr.search hs hk).found (.inr hp)

end

/-! ### Proofs (R158 to R160) -/

theorem proofDone_mapKept (k : Key) (s : State) : MapKept s (proofDone k s) := by
  unfold proofDone
  dsimp only
  split
  · exact endKey_id_mapKept ..
  · split
    · exact endKey_id_mapKept ..
    · split
      · exact endKey_id_mapKept ..
      · split <;> exact endKey_mapKept _ _ fun _ _ he => he.withGain _ _ _ _

theorem proofNext_mapKept (k : Key) (s : State) : MapKept s (proofNext k s) := by
  unfold proofNext
  split
  · exact proofDone_mapKept ..
  · exact beginRest_mapKept s

/-! ### Pulses and the end of a run (R141, R152, R153, R162) -/

theorem runHit_mapKept (k : Key) (firedAt gate2At : Nat) (velocity : Option Nat) (s : State) :
    MapKept s (runHit k firedAt gate2At velocity s) := by
  unfold runHit
  split
  · next h =>
    split
    · next hk => exact searchHit_mapKept h.1 hk
    · split
      · refine .trans ?_ (proofNext_mapKept ..)
        exact .sameMap rfl id
      · exact proofNext_mapKept ..
  · exact .refl s

theorem runMiss_mapKept (k : Key) (s : State) : MapKept s (runMiss k s) := by
  unfold runMiss
  split
  · next h =>
    split
    · next hk => exact searchMiss_mapKept h.1 hk
    · exact proofNext_mapKept ..
  · exact .refl s

theorem endPulse_keeps (k : Key) (s : State) : Keeps s (endPulse k s) := (putDriveKey_keeps ..).trans (respond_keeps ..)

theorem requestPulse_mapKept (s : State) : MapKept s (requestPulse s) := by
  have hask (b : Prop) [Decidable b] (k : Key) : MapKept s (if b then
      setRun { s.run with wait := .pending }
        { s with drive := { s.drive with pulse := some { key := k, level := s.run.level } } } else s) := by
    split <;> exact .sameMap rfl id
  unfold requestPulse
  split
  · exact hask ..
  · exact .refl s

theorem firePending_mapKept (s : State) : MapKept s (firePending s) := by
  unfold firePending
  split
  · exact .refl s
  · next p _ =>
    dsimp only
    have hfire : Keeps s (firePulse p.key p.level { s with drive := { s.drive with pulse := none } }) :=
      (Keeps.inner ..).trans (firePulse_keeps ..)
    split
    · split
      · exact hfire.mapKept.trans (.sameMap rfl id)
      · exact hfire.mapKept
    · exact .refl s

theorem restDeadlineReached_mapKept (s : State) : MapKept s (restDeadlineReached s) := by
  unfold restDeadlineReached
  split
  · split
    · exact endKey_id_mapKept ..
    · exact .refl s
  · exact .refl s

theorem runSample_mapKept (k : Key) (p : KeyPos) (s : State) : MapKept s (runSample k p s) := by
  unfold runSample
  split <;> exact .sameMap rfl id

theorem endStopping_mapKept (k : Key) (s : State) : MapKept s (endStopping k s) := by
  unfold endStopping
  split
  · exact finishRun_mapKept s
  · exact .refl s

theorem withdrawPulse_keeps (k : Key) (s : State) : Keeps s (withdrawPulse k s) := by
  unfold withdrawPulse
  dsimp only
  split
  · exact (Keeps.inner ..).trans (endPulse_keeps ..)
  · exact .inner ..

/-- A run that begins works its keys from the map as it stands, whatever levels an earlier run left (R150, R151). -/
theorem answerCalRun_mapKept (kind : Byte) (keys : BitVec 88) (stop : Byte) (v : Word16) (n : Byte) (s : State) :
    MapKept s (answerCalRun kind keys stop v n s).state := by
  have hwork (r : RunController) : MapKept s (workBelow 88 (setRun r s)) :=
    (workBelow_work 88 (setRun r s)).after rfl fun h => (mapInRange_iff.mp h).1
  unfold answerCalRun
  split
  · exact .refl s
  · split
    · exact .refl s
    · split
      · exact .refl s
      · split
        · exact .refl s
        · split
          · exact .refl s
          · exact hwork _

theorem answerCalStop_mapKept (s : State) : MapKept s (answerCalStop s).state := by
  unfold answerCalStop
  split
  · exact .refl s
  · exact .refl s
  · exact finishRun_mapKept s
  · next k _ _ =>
    dsimp only
    have hstop := ((withdrawPulse_keeps k s).mapKept.trans (writeResult_mapKept k .aborted (f := id) fun _ _ => id)).trans
      (MapKept.setRun (r := { (writeResult k .aborted id (withdrawPulse k s)).run with state := .stopping })
        fun _ => levelsSound_of_state nofun)
    split
    · exact hstop
    · exact hstop.trans (finishRun_mapKept _)

theorem softResetRun_mapKept (s : State) : MapKept s (softResetRun s) := by
  have hidle (u : State) : MapKept u (setRun { u.run with
      state := .idle, keys := 0, current := none, copy := none, wait := .none, failed := false } u) :=
    .setRun fun _ => levelsSound_of_state nofun
  unfold softResetRun
  split
  · exact .refl s
  · dsimp only
    split
    · next k _ _ =>
      refine .trans ?_ (hidle (runWrite k _ s))
      exact MapKept.writeKey rfl id fun h => (mapInRange_iff.mp h).1.1 k
    · exact hidle s

end Sys2Proof.Machine
end

section
/-! SUPPORT. Every command keeps the map's check word, its ranges and, but for three, its FAULT: the statement O40. -/

namespace Sys2Proof.Machine

/-- The three commands by which FAULT ends (R62, R63, R68). -/
def Instr.EndsFault (c : Instr) : Prop := (∃ l, c = .mapClear l) ∨ (∃ l, c = .mapAccept l) ∨ c = .powerOnReset

/-- What a command does to the map: the check word and the ranges kept, and FAULT left by the three alone. -/
structure MapStep (c : Instr) (s t : State) : Prop where
  check  : CheckWordCurrent s → CheckWordCurrent t
  range  : MapInRange s → MapInRange t
  leaves : s.map.integrity = .fault → t.map.integrity = .good → Instr.EndsFault c

section
variable {c : Instr} {s t : State}

theorem MapWork.step (h : MapKept s t) : MapStep c s t :=
  ⟨h.check, h.range, fun hf hg => nomatch (h.fault hf).symm.trans hg⟩

theorem Keeps.mapStep (h : Keeps s t) : MapStep c s t := h.mapKept.step

/-- An update of anything but the map and the run. -/
theorem MapStep.unmoved (hm : t.map = s.map) (hr : t.run = s.run) : MapStep c s t := (MapKept.unmoved hm hr).step

theorem MapStep.setLink (h : MapStep c s t) (l : Link) (r : LinkRec) : MapStep c s (t.setLink l r) := by
  have hset : MapKept t (t.setLink l r) := .unmoved (setLink_map ..) (setLink_run ..)
  refine ⟨hset.check ∘ h.check, hset.range ∘ h.range, fun hf hg => h.leaves hf ?_⟩
  rwa [setLink_map] at hg

/-- A request row does to the map what its answer does. -/
theorem MapStep.serve {l : Link} {q : Request} {answer : State → Answer} (h : MapStep c s (answer s).state) :
    MapStep c s (serve l q answer s) := by
  unfold Machine.serve placeAnswer
  split
  · exact h.setLink ..
  · exact .unmoved rfl rfl

/-- A request row whose answer leaves the part as it was. -/
theorem MapStep.serve_same {l : Link} {q : Request} {answer : State → Answer} (h : (answer s).state = s) :
    MapStep c s (Machine.serve l q answer s) := .serve (.unmoved (by rw [h]) (by rw [h]))

theorem MapStep.serve_keeps {l : Link} {q : Request} {answer : State → Answer} (h : Keeps s (answer s).state) :
    MapStep c s (Machine.serve l q answer s) := .serve h.mapStep

end

/-! ### The map's requests and its check (R59 to R66) -/

theorem MapKept.writePedal {s t : State} {p : Pedal} {e : PedalEntry} (hm : t.map = s.map.writePedal p e)
    (hr : t.run = s.run) (he : e.Sound) : MapKept s t where
  check := checkWordCurrent_of_sub (by rw [hm]; exact sum_sub_check_writePedal ..)
  fault hf := by rw [hm]; exact hf
  range h := by
    obtain ⟨hentries, hlevels⟩ := mapInRange_iff.mp h
    exact mapInRange_iff.mpr ⟨by rw [hm]; exact hentries.writePedal he, hr ▸ hlevels⟩

theorem answerMapWrite_mapKept (b : MapBody) (s : State) : MapKept s (answerMapWrite b s).state := by
  unfold answerMapWrite
  split
  · split
    · exact .refl s
    · split
      · exact .refl s
      · split
        · exact .refl s
        · next hgood =>
          refine MapKept.writeKey rfl id fun _ => storedKey_sound ?_ _
          simpa using fun h => hgood (.inr h)
  · split
    · exact .refl s
    · split
      · exact .refl s
      · next hgood =>
        refine MapKept.writePedal rfl rfl (storedPedal_sound ?_)
        simpa using fun h => hgood (.inr h)
  · exact .refl s

/-- A map with every word 0 sums to 0. -/
theorem sum_zero {m : CalMap} (hk : m.keys = Vector.replicate 88 KeyEntry.zero)
    (hp : m.pedals = Vector.replicate 3 PedalEntry.zero) : m.sum = 0 := by
  have hkey : wordSum KeyEntry.zero.words = 0 := by decide
  have hpedal : wordSum PedalEntry.zero.words = 0 := by decide
  simp [CalMap.sum, hk, hp, hkey, hpedal]

theorem entriesSound_zero {m : CalMap} (hk : m.keys = Vector.replicate 88 KeyEntry.zero)
    (hp : m.pedals = Vector.replicate 3 PedalEntry.zero) : m.EntriesSound := by
  unfold CalMap.EntriesSound
  rw [hk, hp]
  refine ⟨fun k => ?_, fun p => ?_⟩ <;> rw [bankGet_replicate] <;> exact nofun

theorem answerMapClear_mapStep (l : Link) (s : State) : MapStep (.mapClear l) s (answerMapClear s).state := by
  unfold answerMapClear
  split
  · exact .unmoved rfl rfl
  · refine ⟨fun _ => sum_zero rfl rfl, fun h => ?_, fun _ _ => .inl ⟨l, rfl⟩⟩
    exact mapInRange_iff.mpr ⟨entriesSound_zero rfl rfl, (mapInRange_iff.mp h).2⟩

theorem answerMapAccept_mapStep (l : Link) (s : State) : MapStep (.mapAccept l) s (answerMapAccept s).state :=
  ⟨fun _ => rfl, id, fun _ _ => .inr (.inl ⟨l, rfl⟩)⟩

theorem integrityTest_mapKept (s : State) : MapKept s (integrityTest s) := by
  unfold integrityTest
  split
  · exact ⟨id, fun _ => rfl, id⟩
  · exact .refl s

theorem countPeriod_mapKept (s : State) : MapKept s (countPeriod s) := by
  unfold countPeriod
  split
  · exact ⟨id, id, id⟩
  · have hcount : MapKept s { s with map := { s.map with count := 0 } } := ⟨id, id, id⟩
    exact hcount.trans (integrityTest_mapKept _)

theorem servicePeriodEnd_mapKept (s : State) : MapKept s (servicePeriodEnd s) := by
  unfold servicePeriodEnd
  dsimp only
  split
  · split
    · exact ⟨id, id, id⟩
    · exact (countPeriod_mapKept _).after rfl id
  · exact .refl s

theorem integrityPeriod_mapKept (s : State) : MapKept s (integrityPeriod s) := by
  unfold integrityPeriod
  split
  · refine (countPeriod_mapKept s).trans ?_
    exact ⟨id, id, id⟩
  · exact .refl s

/-! ### The events -/

theorem driveSample_mapKept (k : Key) (p : KeyPos) (s : State) : MapKept s (driveSample k p s) := by
  have hset : Keeps s (s.setDriveKey k ((s.driveKey k).sampled p s.cap.repetition)) := .inner ..
  unfold driveSample
  dsimp only
  split
  · split
    · exact hset.mapKept
    · exact (hset.trans (settleRest_keeps ..)).mapKept.trans (endStopping_mapKept ..)
  · split
    · exact hset.mapKept
    · exact (hset.trans (reportKey_keeps ..)).mapKept
  · exact hset.mapKept

theorem sampleKey_mapKept (s : State) (x : Key × KeyPos) : MapKept s (sampleKey s x) :=
  ((captureSample_keeps ..).mapKept.trans (driveSample_mapKept ..)).trans (runSample_mapKept ..)

theorem keySample_mapKept (rs : List (Key × KeyPos)) (s : State) : MapKept s (keySample rs s) := by
  unfold keySample
  split
  · exact ((MapKept.foldl sampleKey_mapKept rs _).trans (takeAll_keeps _).mapKept).after rfl id
  · exact .refl s

theorem takeEcho_mapKept (k : Key) (v : Option Nat) (s : State) : MapKept s (takeEcho k v s) := by
  unfold takeEcho
  dsimp only
  split
  · exact ((detect_keeps ..).trans ((respond_keeps ..).trans (takeAll_keeps _))).mapKept
  · exact (endPulse_keeps ..).mapKept.trans (runHit_mapKept ..)
  · exact .unmoved rfl rfl
  · exact .unmoved rfl rfl
  · exact .refl s

theorem gate2_mapKept (k : Key) (s : State) : MapKept s (gate2 k s) := by
  unfold gate2
  split
  · exact (takeEcho_mapKept ..).after rfl id
  · exact (captureGate2_keeps k s).mapKept

theorem windowEnd_keeps (k : Key) (s : State) : Keeps s (windowEnd k s) := by
  unfold windowEnd
  split
  · split
    · exact captureWindowEnd_keeps k s
    · exact .refl s
  · exact .refl s

theorem readSupply_mapKept (v : SupplyReading) (s : State) : MapKept s (readSupply v s) := by
  unfold readSupply
  dsimp only
  split
  · split
    · exact (judgeSag_keeps _).mapKept.after rfl id
    · exact ((judgeSag_keeps _).trans ((reportSupply_keeps _).trans (takeAll_keeps _))).mapKept.after rfl id
  · exact .refl s

theorem missStrike_keeps (k : Key) (y : LayerId) (e v : Nat) (s : State) : Keeps s (missStrike k y e v s) :=
  ((addDrop_keeps ..).trans (putDriveKey_keeps ..)).trans
    ((beginSustain_keeps ..).trans ((respond_keeps ..).trans (takeAll_keeps _)))

theorem strikeGrace_keeps (k : Key) (s : State) : Keeps s (strikeGrace k s) := by
  unfold strikeGrace
  dsimp only
  split
  · split
    · split
      · exact missStrike_keeps ..
      · exact .inner ..
      · exact .inner ..
      · exact .refl s
    · exact .refl s
  · exact .refl s

theorem reboundOver_keeps (k : Key) (s : State) : Keeps s (reboundOver k s) := by
  unfold reboundOver
  dsimp only
  split
  · split
    · exact beginSustain_keeps ..
    · exact .refl s
  · exact .refl s

theorem letGoOver_mapKept (k : Key) (s : State) : MapKept s (letGoOver k s) := by
  unfold letGoOver
  dsimp only
  split
  · split
    · exact (((putDriveKey_keeps ..).trans ((Keeps.raiseBoth ..).trans (reportKey_keeps ..))).mapKept.trans
        (endStopping_mapKept ..)).trans (takeAll_keeps _).mapKept
    · exact .refl s
  · exact .refl s

theorem wakeOver_keeps (s : State) : Keeps s (wakeOver s) := by
  unfold wakeOver
  split
  · split
    · exact (enterActive_keeps s).trans ((reportSupply_keeps _).trans (takeAll_keeps _))
    · exact .refl s
  · exact .refl s

theorem pulseGrace_mapKept (k : Key) (s : State) : MapKept s (pulseGrace k s) := by
  unfold pulseGrace
  dsimp only
  split
  · split
    · exact (endPulse_keeps ..).mapKept.trans (runMiss_mapKept ..)
    · exact .refl s
  · exact .refl s

/-! ### The clock and the resets -/

theorem stopClock_mapKept (s : State) : MapKept s (stopClock s) := by
  rw [stopClock_eq]
  exact (stopWork_keeps ..).mapKept.after rfl id

theorem advanceClock_mapKept (r : PedalReadings) (order : List Phase) (s : State) : MapKept s (advanceClock r order s) := by
  unfold advanceClock
  dsimp only
  split
  · split
    · exact .unmoved rfl rfl
    · split
      · exact ((stopClock_mapKept _).trans (Keeps.raiseBoth ..).mapKept).after rfl id
      · exact (instantWork_keeps ..).mapKept.after rfl id
  · exact .refl s

theorem answerClockRun_mapKept (r : PedalReadings) (order : List Phase) (s : State) :
    MapKept s (answerClockRun r order s).state := by
  unfold answerClockRun
  split
  · exact .refl s
  · split
    · exact .refl s
    · exact (instantWork_keeps ..).mapKept.after rfl id
    · split
      · exact .refl s
      · exact (instantWork_keeps ..).mapKept.after rfl id

theorem answerClockPause_mapKept (s : State) : MapKept s (answerClockPause s).state := by
  unfold answerClockPause
  split
  · exact .refl s
  · exact .refl s
  · exact ((latchBoth_keeps _).trans ((capturePause_keeps _).trans (withdrawQueue_keeps _))).mapKept.after rfl id

theorem answerClockLocate_mapKept (p : Word32) (s : State) : MapKept s (answerClockLocate p s).state := by
  unfold answerClockLocate
  split <;> exact .unmoved rfl rfl

theorem answerClockSource_mapKept (b : Byte) (n : Word16) (s : State) : MapKept s (answerClockSource b n s).state := by
  unfold answerClockSource
  split
  · exact .unmoved rfl rfl
  · split <;> exact .unmoved rfl rfl

theorem syncPulse_mapKept (s : State) : MapKept s (syncPulse s) := by
  unfold syncPulse
  dsimp only
  split
  · split <;> exact .unmoved rfl rfl
  · exact .refl s

theorem lossExpired_mapKept (s : State) : MapKept s (lossExpired s) := by
  unfold lossExpired
  split <;> exact .unmoved rfl rfl

theorem softResetCapture_keeps (s : State) : Keeps s (softResetCapture s) := by
  unfold softResetCapture
  dsimp only
  split
  · exact .inner ..
  · exact (stopCapture_keeps s).trans (.inner ..)

theorem softResetLinks_mapKept (l : Link) (now : Nat) (s : State) :
    MapKept s ((s.setLink l (s.link l).softReset).setLink l.other ((s.link l.other).softResetByOther now)) :=
  .unmoved ((setLink_map ..).trans (setLink_map ..)) ((setLink_run ..).trans (setLink_run ..))

/-- A soft reset keeps the map but for the result of a key under a run (R69, R163). -/
theorem softReset_mapKept (l : Link) (s : State) : MapKept s (softReset l s) := by
  have hblocks := (softResetCapture_keeps s).mapKept.trans (softResetRun_mapKept _)
  have hlayers (u : State) : MapKept u { softResetClock u with
      layer0 := Layer.reset, layer1 := Layer.reset, store := (softResetClock u).store.unbindAll } := .unmoved rfl rfl
  have hcause (u : State) : MapKept u { u with cause := causeOf l } := .unmoved rfl rfl
  exact ((hblocks.trans (hlayers _)).trans ((softResetPlan_keeps _).trans (softResetDrive_keeps _)).mapKept).trans
    ((hcause _).trans (softResetLinks_mapKept ..))

theorem takePartReset_mapKept (l : Link) (s : State) : MapKept s (takePartReset l s) := by
  unfold takePartReset placeAnswer answerPartReset
  split
  · refine (softReset_mapKept l s).trans (.unmoved ?_ ?_)
    · exact setLink_map ..
    · exact setLink_run ..
  · exact .refl s

theorem powerOn_mapStep (s : State) : MapStep .powerOnReset s (powerOn s) :=
  ⟨fun _ => sum_zero rfl rfl,
    fun _ => mapInRange_iff.mpr ⟨entriesSound_zero rfl rfl, levelsSound_of_state nofun⟩, fun _ _ => .inr (.inr rfl)⟩

/-! ### Every command -/

theorem onWires_mapKept (l : Link) (b : Bool) (f : LinkRec → LinkRec) (s : State) : MapKept s (onWires l b f s) := by
  unfold onWires
  split
  · exact .refl s
  · exact .unmoved (setLink_map ..) (setLink_run ..)

theorem exec_mapStep {c : Instr} {s t : State} (h : exec c s = .next t) : MapStep c s t := by
  cases c with
  | powerOnReset => cases h; exact powerOn_mapStep s
  | keySample rs => cases h; exact (keySample_mapKept rs s).step
  | gate1Event k dir =>
    cases h
    cases dir with
    | toward => exact (captureGate1_keeps k s).mapStep
    | away => exact .unmoved rfl rfl
  | gate2Event k dir =>
    cases h
    cases dir with
    | toward => exact (gate2_mapKept k s).step
    | away => exact .unmoved rfl rfl
  | windowExpiry k => cases h; exact (windowEnd_keeps k s).mapStep
  | clockAdvance r order => cases h; exact (advanceClock_mapKept r order s).step
  | servicePeriod => cases h; exact (servicePeriodEnd_mapKept s).step
  | integrityCheck => cases h; exact (integrityPeriod_mapKept s).step
  | supplyReading v => cases h; exact (readSupply_mapKept v s).step
  | syncPulse => cases h; exact (syncPulse_mapKept s).step
  | lossIntervalExpiry => cases h; exact (lossExpired_mapKept s).step
  | strikeGraceExpiry k => cases h; exact (strikeGrace_keeps k s).mapStep
  | reboundEnd k => cases h; exact (reboundOver_keeps k s).mapStep
  | letGoExpiry k => cases h; exact (letGoOver_mapKept k s).step
  | wakeExpiry => cases h; exact (wakeOver_keeps s).mapStep
  | pulseRequest => cases h; exact (requestPulse_mapKept s).step
  | pulseFire => cases h; exact (firePending_mapKept s).step
  | pulseGraceExpiry k => cases h; exact (pulseGrace_mapKept k s).step
  | restDeadline => cases h; exact (restDeadlineReached_mapKept s).step
  | requestTransaction l bytes b => cases h; exact (onWires_mapKept ..).step
  | transactionDiscarded l bytes => cases h; exact .unmoved rfl rfl
  | fetch l b => cases h; exact (onWires_mapKept ..).step
  | captureStart l r => cases h; exact .serve_keeps (answerCaptureStart_keeps r s)
  | captureStop l => cases h; exact .serve_keeps (answerCaptureStop_keeps s)
  | captureSet l r p d db => cases h; exact .serve_keeps (answerCaptureSet_keeps r p d db s)
  | takeOpen l => cases h; exact .serve_keeps (answerTakeOpen_keeps l s)
  | append l take rs => cases h; exact .serve_keeps (answerAppend_keeps l take rs s)
  | close l take e => cases h; exact .serve_keeps (answerClose_keeps l take e s)
  | read l take start count => cases h; exact .serve_same (answerRead_state take start count s)
  | info l take => cases h; exact .serve_same (answerInfo_state take s)
  | erase l take => cases h; exact .serve_keeps (answerErase_keeps take s)
  | clockRun l r order => cases h; exact .serve (answerClockRun_mapKept r order s).step
  | clockPause l => cases h; exact .serve (answerClockPause_mapKept s).step
  | clockStop l => cases h; exact .serve (stopClock_mapKept s).step
  | clockLocate l p => cases h; exact .serve (answerClockLocate_mapKept p s).step
  | clockSource l b n => cases h; exact .serve (answerClockSource_mapKept b n s).step
  | mapRead l cls number => cases h; exact .serve_same (answerMapRead_state cls number s)
  | mapWrite l b => cases h; exact .serve (answerMapWrite_mapKept b s).step
  | mapClear l => cases h; exact .serve (answerMapClear_mapStep l s)
  | mapAccept l => cases h; exact .serve (answerMapAccept_mapStep l s)
  | layerBind l y source take => cases h; exact .serve_keeps (answerLayerBind_keeps l y source take s)
  | layerMarks l y low high => cases h; exact .serve_keeps (answerLayerMarks_keeps y low high s)
  | layerFeed l y rs => cases h; exact .serve_keeps (thenTake_keeps (answerLayerFeed_keeps l y rs s))
  | layerSet l y raw => cases h; exact .serve_keeps (answerLayerSet_keeps y raw s)
  | layerCue l y ck cv ek et => cases h; exact .serve_keeps (thenTake_keeps (answerLayerCue_keeps y ck cv ek et s))
  | layerFree l y => cases h; exact .serve_keeps (answerLayerFree_keeps y s)
  | layerInfo l y => cases h; exact .serve_same (answerLayerInfo_state y s)
  | dropsRead l => cases h; exact .serve_same rfl
  | planSet l late rise => cases h; exact .serve (.unmoved rfl rfl)
  | allOff l => cases h; exact .serve_keeps (thenTake_keeps (answerAllOff_keeps s))
  | keysClear l keys => cases h; exact .serve_keeps (answerKeysClear_keeps keys s)
  | quietEnter l => cases h; exact .serve_keeps (answerQuietEnter_keeps s)
  | quietLeave l => cases h; exact .serve_keeps (answerQuietLeave_keeps s)
  | driveSet l n v p => cases h; exact .serve_keeps (answerDriveSet_keeps n v p s)
  | driveInfo l first count => cases h; exact .serve_same (answerDriveInfo_state first count s)
  | calRun l kind keys stop v n => cases h; exact .serve (answerCalRun_mapKept kind keys stop v n s).step
  | calStop l => cases h; exact .serve (answerCalStop_mapKept s).step
  | status l => cases h; exact .serve_same rfl
  | noticeClear l flags => cases h; exact .serve (.unmoved (setLink_map ..) (setLink_run ..))
  | noticeMask l mask => cases h; exact .serve (.unmoved (setLink_map ..) (setLink_run ..))
  | partReset l => cases h; exact (takePartReset_mapKept l s).step
  | resetLineLow => cases h; exact .unmoved rfl rfl
  | fetchSelectInactive l shifted => cases h; exact (onWires_mapKept ..).step

/-- Settles O40: each command is a chain of operations, each of which keeps the map, but for the three that end FAULT. -/
theorem everyStepKeepsTheMap : Obligations.EveryStepKeepsTheMap := by
  intro s t h
  obtain ⟨-, rfl⟩ | ⟨c, rest, hp, hc⟩ := step_cases h
  · exact ⟨id, id, fun hf hg => nomatch hf.symm.trans hg⟩
  · have hstep := exec_mapStep hc
    exact ⟨hstep.check, hstep.range, fun hf hg => ⟨c, rest, hp, hstep.leaves hf hg⟩⟩

end Sys2Proof.Machine
end

section
/-! SUPPORT. The map's requests (R58 to R63, section 11.4): the numbers they name, the entry MAP WRITE stores, the bytes MAP READ
gives, and the sum MAP ACCEPT takes. The statements O36, O37 and O38. -/

namespace Sys2Proof.Machine

/-! ### The numbers a request names (R176) -/

theorem keyOf_of_eq {n : Nat} {k : Key} (h : n = k.val) : keyOf n = some k := by
  subst h; exact dif_pos k.isLt

theorem keyOf_of_gt {n : Nat} (h : 87 < n) : keyOf n = none := dif_neg (by omega)

theorem pedalOf_of_eq {n : Nat} {p : Pedal} (h : n = p.val) : pedalOf n = some p := by
  subst h; exact dif_pos p.isLt

theorem pedalOf_of_gt {n : Nat} (h : 2 < n) : pedalOf n = none := dif_neg (by omega)

/-! ### MAP WRITE (R59, R60, R61) -/

theorem runHolds_iff {s : State} {k : Key} :
    s.runHolds k = true ↔ s.run.state ≠ .idle ∧ s.run.keys.getLsbD k.val = true := by
  simp [State.runHolds, State.runActive, inKeySet]

/-- Dtravel and the rebound gap of a body as the words that store them (R56). -/
theorem storedKey_eq (f : KeyFields) (result : Word16) :
    storedKey f result =
      { state := 1, t := f.t, sd := f.sd, knots := f.knots, g := f.g, lfix := f.lfix
        dLow := BitVec.ofNat 16 (f.dtravel.toNat % 65536), dHigh := BitVec.ofNat 16 (f.dtravel.toNat / 65536)
        s := f.s, rm := f.rm, rebound := BitVec.ofNat 16 f.rebound.toNat, result := result } := by
  have hlow : f.dtravel.extractLsb' 0 16 = BitVec.ofNat 16 (f.dtravel.toNat % 65536) := by
    apply BitVec.eq_of_toNat_eq
    simp
  have hhigh : (f.dtravel.extractLsb' 16 8).setWidth 16 = BitVec.ofNat 16 (f.dtravel.toNat / 65536) := by
    apply BitVec.eq_of_toNat_eq
    have hlt := f.dtravel.isLt
    simp [Nat.shiftRight_eq_div_pow]
    omega
  have hrebound : f.rebound.setWidth 16 = BitVec.ofNat 16 f.rebound.toNat := by
    apply BitVec.eq_of_toNat_eq
    simp
  rw [storedKey, hlow, hhigh, hrebound]

theorem storedPedal_eq (f : PedalFields) :
    storedPedal f =
      { state := 1, rest := f.rest, full := f.full, lead := f.lead, deadband := BitVec.ofNat 16 f.deadband.toNat } := by
  have hband : f.deadband.setWidth 16 = BitVec.ofNat 16 f.deadband.toNat := by
    apply BitVec.eq_of_toNat_eq
    simp
  rw [storedPedal, hband]

section
variable {n : Byte} {k : Key} {f : KeyFields} {reserved : Word16} {s : State}

theorem answerMapWrite_key_unnamed (h : 87 < n.toNat) : answerMapWrite (.key n f reserved) s = refuse .badVal s := by
  simp only [answerMapWrite, keyOf_of_gt h]

theorem answerMapWrite_key_held (hn : n.toNat = k.val) (h : s.runHolds k = true) :
    answerMapWrite (.key n f reserved) s = { status := .calRun, body := keyEntryBody s.map k, state := s } := by
  simp only [answerMapWrite, keyOf_of_eq hn, if_pos h]

theorem answerMapWrite_key_bad (hn : n.toNat = k.val) (h : ¬ s.runHolds k = true)
    (hbad : ¬ (reserved = 0 ∧ keyFieldsGood f = true)) :
    answerMapWrite (.key n f reserved) s = { status := .badVal, body := keyEntryBody s.map k, state := s } := by
  have hcond : reserved ≠ 0 ∨ (!keyFieldsGood f) = true := by
    rw [Bool.not_eq_true', ← Bool.not_eq_true]
    exact not_and_or.mp hbad
  simp only [answerMapWrite, keyOf_of_eq hn, if_neg h, if_pos hcond]

theorem answerMapWrite_key_good (hn : n.toNat = k.val) (h : ¬ s.runHolds k = true)
    (hgood : reserved = 0 ∧ keyFieldsGood f = true) :
    let m := s.map.writeKey k (storedKey f (bankGet s.map.keys k).result)
    answerMapWrite (.key n f reserved) s = { status := .ok, body := keyEntryBody m k, state := { s with map := m } } := by
  have hcond : ¬ (reserved ≠ 0 ∨ (!keyFieldsGood f) = true) := by
    simp [hgood.1, hgood.2]
  simp only [answerMapWrite, keyOf_of_eq hn, if_neg h, if_neg hcond]

end

section
variable {n : Byte} {p : Pedal} {f : PedalFields} {reserved : Byte} {s : State}

theorem answerMapWrite_pedal_unnamed (h : 2 < n.toNat) : answerMapWrite (.pedal n f reserved) s = refuse .badVal s := by
  simp only [answerMapWrite, pedalOf_of_gt h]

theorem answerMapWrite_pedal_bad (hn : n.toNat = p.val) (hbad : ¬ (reserved = 0 ∧ pedalFieldsGood f = true)) :
    answerMapWrite (.pedal n f reserved) s = { status := .badVal, body := pedalEntryBody s.map p, state := s } := by
  have hcond : reserved ≠ 0 ∨ (!pedalFieldsGood f) = true := by
    rw [Bool.not_eq_true', ← Bool.not_eq_true]
    exact not_and_or.mp hbad
  simp only [answerMapWrite, pedalOf_of_eq hn, if_pos hcond]

theorem answerMapWrite_pedal_good (hn : n.toNat = p.val) (hgood : reserved = 0 ∧ pedalFieldsGood f = true) :
    let m := s.map.writePedal p (storedPedal f)
    answerMapWrite (.pedal n f reserved) s = { status := .ok, body := pedalEntryBody m p, state := { s with map := m } } := by
  have hcond : ¬ (reserved ≠ 0 ∨ (!pedalFieldsGood f) = true) := by
    simp [hgood.1, hgood.2]
  simp only [answerMapWrite, pedalOf_of_eq hn, if_neg hcond]

end

/-- Settles O36: a key's write by the tests of R59 in their order, and a pedal's. -/
theorem mapWriteReplacesTheEntryWhole : Obligations.MapWriteReplacesTheEntryWhole := by
  have hexec (l : Link) (w : MapBody) (s : State) :
      exec (.mapWrite l w) s = .next (serve l (.mapWrite w) (answerMapWrite w) s) := rfl
  refine ⟨fun l n f reserved s hl => ?_, fun l n f reserved bytes s => ?_⟩
  · dsimp only
    rw [← keyFieldsGood_iff]
    refine ⟨fun h => exec_of_refusal (hexec ..) hl (answerMapWrite_key_unnamed h), fun k hn => ?_⟩
    rw [← runHolds_iff, ← storedKey_eq]
    exact ⟨fun h => exec_of_answer (hexec ..) hl (answerMapWrite_key_held hn h),
      fun h hbad => exec_of_answer (hexec ..) hl (answerMapWrite_key_bad hn h hbad),
      fun h hgood => ⟨_, sum_sub_check_writeKey .., exec_of_answer (hexec ..) hl (answerMapWrite_key_good hn h hgood)⟩⟩
  · dsimp only
    rw [← pedalFieldsGood_iff, ← storedPedal_eq]
    exact ⟨fun hl => exec_of_refusal (hexec ..) hl rfl,
      fun h hl => exec_of_refusal (hexec ..) hl (answerMapWrite_pedal_unnamed h), fun p hn =>
      ⟨fun hbad hl => exec_of_answer (hexec ..) hl (answerMapWrite_pedal_bad hn hbad), fun hgood =>
        ⟨_, sum_sub_check_writePedal .., fun hl => exec_of_answer (hexec ..) hl (answerMapWrite_pedal_good hn hgood)⟩⟩⟩

/-! ### MAP READ (R58, section 11.4) -/

/-- The items of a bank in order. -/
theorem toList_eq_map {α : Type} {n : Nat} (b : Bank α n) : b.toList = (List.finRange n).map (bankGet b) := by
  refine List.ext_getElem (by simp) fun i h1 h2 => ?_
  simp [bankGet]

/-- The three bytes of Dtravel are those of its two words; of the upper word the low byte alone (notes/assumptions/19). -/
theorem bytes24_dtravel (e : KeyEntry) :
    bytes24 (BitVec.ofNat 24 e.dtravel) = BitVec.ofNat 8 e.dHigh.toNat :: bytes16 e.dLow := by
  have hlt := e.dLow.isLt
  have hword (i : Nat) (hi : i + 8 ≤ 16) : e.dLow.extractLsb' i 8 = BitVec.ofNat 8 (e.dLow.toNat / 2 ^ i) := by
    simpa using extractByte_ofNat (w := 16) e.dLow.toNat i hi
  have hbyte (x y : Nat) (h : x % 256 = y % 256) : BitVec.ofNat 8 x = BitVec.ofNat 8 y := by
    apply BitVec.eq_of_toNat_eq
    rwa [BitVec.toNat_ofNat, BitVec.toNat_ofNat]
  rw [bytes24, bytes16, extractByte_ofNat _ _ (by decide), extractByte_ofNat _ _ (by decide), extractByte_ofNat _ _ (by decide),
    hword 8 (by decide), hword 0 (by decide)]
  unfold KeyEntry.dtravel
  refine congrArg₂ _ (hbyte _ _ ?_) (congrArg₂ _ (hbyte _ _ ?_) (congrArg (· :: []) (hbyte _ _ ?_))) <;> omega

theorem integrityByte (i : Integrity) : BitVec.ofNat 8 i.code = if i = .fault then (1 : Byte) else 0 := by cases i <;> rfl

theorem keyEntryBody_eq {m : CalMap} {k : Key} {number : Byte} (hn : number.toNat = k.val) :
    keyEntryBody m k =
      [BitVec.ofNat 8 (bankGet m.keys k).state.toNat, 0, number] ++ bytes16 (bankGet m.keys k).t ++
        bytes16 (bankGet m.keys k).sd ++
        ((List.finRange 9).flatMap fun i => bytes16 (bankGet (bankGet m.keys k).knots i)) ++
        bytes16 (bankGet m.keys k).g ++ bytes16 (bankGet m.keys k).lfix ++
        [BitVec.ofNat 8 (bankGet m.keys k).dHigh.toNat] ++ bytes16 (bankGet m.keys k).dLow ++
        bytes16 (bankGet m.keys k).s ++ bytes16 (bankGet m.keys k).rm ++
        [BitVec.ofNat 8 (bankGet m.keys k).rebound.toNat, 0, 0, BitVec.ofNat 8 (bankGet m.keys k).result.toNat] ++
        ([if m.integrity = .fault then 1 else 0] ++ bytes32 m.check) := by
  have hnumber : byte1 k.val = [number] := by rw [byte1_eq, ← hn, BitVec.ofNat_toNat, BitVec.setWidth_eq]
  have hzero : byte2 0 = [0, 0] := rfl
  simp only [keyEntryBody, bytes24_dtravel, integrityByte, hnumber, hzero, byte1_eq, toList_eq_map, List.flatMap_map,
    List.append_assoc, List.cons_append, List.nil_append]
  rfl

theorem pedalEntryBody_eq {m : CalMap} {p : Pedal} {number : Byte} (hn : number.toNat = p.val) :
    pedalEntryBody m p =
      [BitVec.ofNat 8 (bankGet m.pedals p).state.toNat, 1, number] ++ bytes16 (bankGet m.pedals p).rest ++
        bytes16 (bankGet m.pedals p).full ++ bytes16 (bankGet m.pedals p).lead ++
        [BitVec.ofNat 8 (bankGet m.pedals p).deadband.toNat, 0] ++
        ([if m.integrity = .fault then 1 else 0] ++ bytes32 m.check) := by
  have hnumber : byte1 p.val = [number] := by rw [byte1_eq, ← hn, BitVec.ofNat_toNat, BitVec.setWidth_eq]
  simp only [pedalEntryBody, integrityByte, hnumber, byte1_eq, List.append_assoc, List.cons_append, List.nil_append]
  rfl

theorem answerMapRead_unnamed {cls number : Byte} (s : State)
    (h : 1 < cls.toNat ∨ cls = 0 ∧ 87 < number.toNat ∨ cls = 1 ∧ 2 < number.toNat) :
    answerMapRead cls number s = refuse .badVal s := by
  obtain h | ⟨rfl, h⟩ | ⟨rfl, h⟩ := h
  · have h0 : cls ≠ 0 := by rintro rfl; exact absurd h (by decide)
    have h1 : cls ≠ 1 := by rintro rfl; exact absurd h (by decide)
    simp only [answerMapRead, if_neg h0, if_neg h1]
  · simp only [answerMapRead, keyOf_of_gt h, if_pos]
  · simp only [answerMapRead, pedalOf_of_gt h, if_pos, if_neg (show (1 : Byte) ≠ 0 by decide)]

theorem answerMapRead_key {number : Byte} {k : Key} (s : State) (hn : number.toNat = k.val) :
    answerMapRead 0 number s = { status := .ok, body := keyEntryBody s.map k, state := s } := by
  simp only [answerMapRead, keyOf_of_eq hn, if_pos]

theorem answerMapRead_pedal {number : Byte} {p : Pedal} (s : State) (hn : number.toNat = p.val) :
    answerMapRead 1 number s = { status := .ok, body := pedalEntryBody s.map p, state := s } := by
  simp only [answerMapRead, pedalOf_of_eq hn, if_pos, if_neg (show (1 : Byte) ≠ 0 by decide)]

/-- Settles O37: the refusals, and the bytes of a key's entry and of a pedal's. -/
theorem mapReadGivesTheEntry : Obligations.MapReadGivesTheEntry := by
  intro l cls number s hl
  have hexec : exec (.mapRead l cls number) s = .next (serve l (.mapRead cls number) (answerMapRead cls number) s) := rfl
  refine ⟨fun h => exec_of_refusal hexec hl (answerMapRead_unnamed s h), fun k hc hn => ?_, fun p hc hn => ?_⟩
  · subst hc
    dsimp only
    rw [← keyEntryBody_eq hn]
    exact exec_of_answer hexec hl (answerMapRead_key s hn)
  · subst hc
    dsimp only
    rw [← pedalEntryBody_eq hn]
    exact exec_of_answer hexec hl (answerMapRead_pedal s hn)

/-! ### MAP CLEAR and MAP ACCEPT (R62, R63) -/

/-- The map's sum over its keys and pedals by number (R56). -/
theorem sum_eq (m : CalMap) :
    m.sum = BitVec.ofNat 32
      ((allKeys.flatMap fun k => (bankGet m.keys k).words.map BitVec.toNat).sum +
        (allPedals.flatMap fun p => (bankGet m.pedals p).words.map BitVec.toNat).sum) := by
  simp only [CalMap.sum, toList_eq_map, List.map_map, List.flatMap, List.sum_flatten, allKeys, allPedals]
  rfl

theorem answerMapClear_run {s : State} (h : s.run.state ≠ .idle) : answerMapClear s = refuse .calRun s :=
  if_pos (by simpa [State.runActive] using h)

/-- A map with every word and the check word 0, in GOOD, its count kept (R62). -/
def CalMap.cleared (m : CalMap) : CalMap :=
  { m with
    keys := Vector.replicate 88 KeyEntry.zero, pedals := Vector.replicate 3 PedalEntry.zero, check := 0, integrity := .good }

theorem answerMapClear_idle {s : State} (h : s.run.state = .idle) :
    answerMapClear s = { status := .ok, body := [0, 0, 0, 0, 0], state := { s with map := s.map.cleared } } := by
  have hactive : ¬ s.runActive = true := by simp [State.runActive, h]
  have hbody : mapStateBody s.map.cleared = [0, 0, 0, 0, 0] := show byte1 0 ++ bytes32 0 = _ by decide
  rw [← hbody, answerMapClear, if_neg hactive]
  rfl

theorem zeroKey_words : ∀ w ∈ KeyEntry.zero.words, w = 0 := by simp [KeyEntry.words, KeyEntry.zero]

theorem zeroPedal_words : ∀ w ∈ PedalEntry.zero.words, w = 0 := by simp [PedalEntry.words, PedalEntry.zero]

theorem cleared_key (m : CalMap) (k : Key) : bankGet m.cleared.keys k = KeyEntry.zero := bankGet_replicate ..

theorem cleared_pedal (m : CalMap) (p : Pedal) : bankGet m.cleared.pedals p = PedalEntry.zero := bankGet_replicate ..

theorem answerMapAccept_eq (s : State) :
    answerMapAccept s =
      { status := .ok, body := [0] ++ bytes32 s.map.sum
        state := { s with map := { s.map with check := s.map.sum, integrity := .good } } } := by
  have hgood : byte1 Integrity.good.code = [0] := by decide
  rw [← hgood]
  rfl

/-- Settles O38: MAP CLEAR under a run and without one, and MAP ACCEPT. -/
theorem mapClearAndAcceptEndFault : Obligations.MapClearAndAcceptEndFault := by
  refine ⟨fun l s hl => ?_, fun l s hl => ⟨?_, sum_eq s.map⟩⟩
  · have hexec : exec (.mapClear l) s = .next (serve l .mapClear answerMapClear s) := rfl
    refine ⟨fun h => exec_of_refusal hexec hl (answerMapClear_run h), fun h => ⟨s.map.cleared,
      exec_of_answer hexec hl (answerMapClear_idle h), fun k => ?_, fun p => ?_, rfl, sum_zero rfl rfl, rfl, rfl⟩⟩
    · rw [cleared_key]
      exact zeroKey_words
    · rw [cleared_pedal]
      exact zeroPedal_words
  · have hexec : exec (.mapAccept l) s = .next (serve l .mapAccept answerMapAccept s) := rfl
    exact exec_of_answer hexec hl (answerMapAccept_eq s)

end Sys2Proof.Machine
end

section
/-! SUPPORT. Merged pedal demands (R86, R146), the judgement of SAG (R143), and the entries to ACTIVE and QUIET (R144, R145) for a
scheduler with nothing to process. The statement O53. -/

namespace Sys2Proof.Machine

/-! ### The merged demand (R86, R146) -/

theorem mergedDemand_eq_none {s : State} {p : Pedal} :
    s.mergedDemand p = none ↔ ∀ y, bankGet (s.layer y).demands p = none := by
  have hboth : (∀ y, bankGet (s.layer y).demands p = none) ↔
      bankGet s.layer0.demands p = none ∧ bankGet s.layer1.demands p = none :=
    ⟨fun h => ⟨h .l0, h .l1⟩, fun ⟨h0, h1⟩ y => by cases y <;> assumption⟩
  rw [hboth, State.mergedDemand]
  cases bankGet s.layer0.demands p <;> cases bankGet s.layer1.demands p <;> simp

/-- A merged demand is one of the layers' demands, and none of them is above it. -/
theorem mergedDemand_greatest {s : State} {p : Pedal} {n : Nat} (h : s.mergedDemand p = some n) :
    (∃ y, bankGet (s.layer y).demands p = some n) ∧ ∀ y v, bankGet (s.layer y).demands p = some v → v ≤ n := by
  unfold State.mergedDemand at h
  split at h
  · next a b h0 h1 =>
    obtain rfl := Option.some.inj h
    refine ⟨?_, fun y v hv => ?_⟩
    · obtain hab | hab := le_total a b
      · exact ⟨.l1, by rw [layer_l1, h1, max_eq_right hab]⟩
      · exact ⟨.l0, by rw [layer_l0, h0, max_eq_left hab]⟩
    · cases y with
      | l0 => exact Option.some.inj (h0.symm.trans hv) ▸ le_max_left a b
      | l1 => exact Option.some.inj (h1.symm.trans hv) ▸ le_max_right a b
  · next a h0 h1 =>
    refine ⟨⟨.l0, h0.trans h⟩, fun y v hv => ?_⟩
    cases y with
    | l0 => exact (Option.some.inj ((h0.trans h).symm.trans hv)).ge
    | l1 => exact nomatch h1.symm.trans hv
  · next h0 =>
    refine ⟨⟨.l1, h⟩, fun y v hv => ?_⟩
    cases y with
    | l0 => exact nomatch h0.symm.trans hv
    | l1 => exact (Option.some.inj (h.symm.trans hv)).ge

/-! ### Every pedal driven (R145, R146) -/

/-- A pedal driven is its record replaced by the judged one. -/
theorem drivePedal_eq (p : Pedal) (s : State) :
    drivePedal p s = { s with drive := { s.drive with pedals := bankSet s.drive.pedals p (s.judgedPedal p) } } := by
  have h0 := drivePedal_layer p s .l0
  have h1 := drivePedal_layer p s .l1
  rw [layer_l0, layer_l0] at h0
  rw [layer_l1, layer_l1] at h1
  have honly := drivePedal_only p s
  rw [DemandsOnly, h0, h1, drivePedal_pedals] at honly
  exact honly

/-- A pedal's judgement does not look at the other pedals' records. -/
theorem judgedPedal_of_pedals {s : State} {b : Bank PedalDrive 3} {p : Pedal} (h : bankGet b p = bankGet s.drive.pedals p) :
    State.judgedPedal { s with drive := { s.drive with pedals := b } } p = s.judgedPedal p := by
  simp only [State.judgedPedal, h]
  rfl

/-- The entry to ACTIVE judges every pedal by the state it found. -/
theorem driveAllPedals_eq (s : State) :
    driveAllPedals s =
      { s with drive := { s.drive with pedals := bankMap (fun p _ => s.judgedPedal p) s.drive.pedals } } := by
  have hfold : ∀ ps : List Pedal, ps.Nodup → ∀ s : State, ps.foldl (fun s p => drivePedal p s) s =
      { s with drive := { s.drive with
        pedals := bankMap (fun p r => if p ∈ ps then s.judgedPedal p else r) s.drive.pedals } } := by
    intro ps
    induction ps with
    | nil =>
      intro _ s
      have hsame : bankMap (fun (_ : Pedal) (r : PedalDrive) => r) s.drive.pedals = s.drive.pedals := bank_ext fun p => by simp
      simp [hsame]
    | cons p ps ih =>
      intro hnodup s
      obtain ⟨hp, hnodup⟩ := List.nodup_cons.mp hnodup
      rw [List.foldl_cons, drivePedal_eq, ih hnodup]
      refine congrArg (fun b : Bank PedalDrive 3 => { s with drive := { s.drive with pedals := b } }) (bank_ext fun q => ?_)
      rw [bankGet_bankMap, bankGet_bankMap, bankGet_bankSet]
      by_cases hq : q = p
      · subst hq
        rw [if_neg hp, if_pos rfl, if_pos List.mem_cons_self]
      · simp only [List.mem_cons, hq, false_or, if_false]
        rw [judgedPedal_of_pedals (bankGet_bankSet_other _ _ hq)]
  have hall : ∀ p : Pedal, p ∈ allPedals := List.mem_finRange
  refine (hfold allPedals (List.nodup_finRange 3) s).trans ?_
  simp only [hall, if_true]

/-! ### SAG (R143) -/

/-- The hysteresis of live SAG: raised below the threshold, cleared 8 above it (R143). -/
theorem judgedSag_eq (d : Drive) :
    d.judgedSag =
      if d.sag then decide (d.vmeas < (d.vnom * d.sagPercent + 99) / 100 + 8)
      else decide (d.vmeas < (d.vnom * d.sagPercent + 99) / 100) := by
  unfold Drive.judgedSag
  split
  · rw [← decide_not, decide_eq_decide]
    exact not_le
  · rfl

/-- Live SAG set, with SAG raised in both sets where it becomes live. -/
def State.withSag (s : State) (live : Bool) : State :=
  let t : State := { s with drive := { s.drive with sag := live } }
  if live = true ∧ s.drive.sag = false then raiseBoth .sag t else t

/-- Live SAG after a reading or an entry: judged in ACTIVE and QUIET_PENDING, kept elsewhere. -/
def Drive.sagNow (d : Drive) : Bool := if d.power = .active ∨ d.power = .quietPending then d.judgedSag else d.sag

theorem judgesSag_iff {p : Power} : p.judgesSag = true ↔ p = .active ∨ p = .quietPending := by
  cases p <;> simp [Power.judgesSag]

theorem judgeSag_eq (s : State) : judgeSag s = s.withSag s.drive.sagNow := by
  unfold judgeSag Drive.sagNow
  by_cases h : s.drive.power = .active ∨ s.drive.power = .quietPending
  · simp only [if_pos (judgesSag_iff.mpr h), if_pos h, State.withSag, Bool.and_eq_true, Bool.not_eq_true']
  · have hkept : ¬ (s.drive.sag = true ∧ s.drive.sag = false) := fun ⟨h1, h2⟩ => nomatch h1.symm.trans h2
    rw [if_neg (mt judgesSag_iff.mp h), if_neg h, State.withSag, if_neg hkept]

theorem withSag_rest (s : State) (live : Bool) :
    s.withSag live = { s with
      linkA := (s.withSag live).linkA, linkB := (s.withSag live).linkB, drive := { s.drive with sag := live } } := by
  unfold State.withSag
  dsimp only
  split <;> rfl

theorem withSag_noticed {s : State} (h : s.drive.sag = false) (l : Link) : (s.withSag true).noticed l .sag = true := by
  rw [State.withSag, if_pos ⟨rfl, h⟩]
  exact noticed_raiseBoth ..

theorem NothingToSchedule.withSag {s : State} (h : NothingToSchedule s) (live : Bool) : NothingToSchedule (s.withSag live) := by
  rw [withSag_rest]
  exact h.of_eq rfl rfl rfl rfl rfl

/-- A reading at its instant, before SAG is judged. -/
def State.supplied (s : State) (v : SupplyReading) : State :=
  { s with wall := { s.wall with supply := s.wall.supply + 1000 }, drive := { s.drive with vmeas := v.val } }

theorem readSupply_due {s : State} (v : SupplyReading) (hdue : s.wall.supply ≤ s.now) (hn : NothingToSchedule s) :
    readSupply v s = (s.supplied v).withSag (s.supplied v).drive.sagNow := by
  have hnothing : NothingToSchedule (judgeSag (s.supplied v)) := by
    rw [judgeSag_eq]
    exact NothingToSchedule.withSag (s := s.supplied v) (hn.of_eq rfl rfl rfl rfl rfl) _
  have hread : readSupply v s =
      if (judgeSag (s.supplied v)).drive.sag = s.drive.sag then judgeSag (s.supplied v)
      else takeAll (reportSupply (judgeSag (s.supplied v))) := if_pos hdue
  rw [hread, reportSupply_of_nothing hnothing, takeAll_of_nothing hnothing, ite_self, judgeSag_eq]

theorem readSupply_early {s : State} (v : SupplyReading) (h : s.now < s.wall.supply) : readSupply v s = s :=
  if_neg (Nat.not_le.mpr h)

/-! ### The entry to ACTIVE (R143, R145, R146) -/

/-- `t` is `s` with the drive in ACTIVE: SAG judged, every pedal driven from its merged demand. -/
structure Awake (s t : State) : Prop where
  rest   : t = { s with
    linkA := t.linkA, linkB := t.linkB
    drive := { s.drive with power := .active, wakeAt := none, sag := s.drive.judgedSag, pedals := t.drive.pedals } }
  notice : s.drive.judgedSag = true → s.drive.sag = false → ∀ l, t.noticed l .sag = true
  pedals : ∀ p, PedalFollows s .active p (s.mergedDemand p) (bankGet t.drive.pedals p)

/-- The part with the drive put into ACTIVE, nothing yet judged. -/
def State.activated (s : State) : State := { s with drive := { s.drive with power := .active, wakeAt := none } }

theorem enterActive_eq (s : State) : enterActive s = driveAllPedals (s.activated.withSag s.drive.judgedSag) :=
  congrArg driveAllPedals (judgeSag_eq s.activated)

theorem enterActive_awake (s : State) : Awake s (enterActive s) := by
  have hrest := withSag_rest s.activated s.drive.judgedSag
  have hnotice (hlive : s.drive.judgedSag = true) (hsag : s.drive.sag = false) (l : Link) :
      (s.activated.withSag s.drive.judgedSag).noticed l .sag = true := by
    rw [hlive]
    exact withSag_noticed (s := s.activated) hsag l
  rw [enterActive_eq]
  have hkeeps := driveAllPedals_keeps (s.activated.withSag s.drive.judgedSag)
  have hfollows (p : Pedal) : PedalFollows s .active p (s.mergedDemand p)
      (bankGet (driveAllPedals (s.activated.withSag s.drive.judgedSag)).drive.pedals p) := by
    have hjudged := judgedPedal_follows p (s.activated.withSag s.drive.judgedSag)
    rw [hrest] at hjudged
    rw [driveAllPedals_eq, bankGet_bankMap, hrest]
    exact hjudged
  refine ⟨?_, fun hlive hsag l => hkeeps.noticed (hnotice hlive hsag l), hfollows⟩
  rw [driveAllPedals_eq, hrest]
  rfl

theorem Awake.nothing {s t : State} (h : Awake s t) (hn : NothingToSchedule s) : NothingToSchedule t := by
  rw [h.rest]
  exact hn.of_eq rfl rfl rfl rfl rfl

/-- The reports and takings after the entry to ACTIVE, for a scheduler with nothing to process. -/
theorem takeAll_enterActive {s : State} (hn : NothingToSchedule s) :
    takeAll (reportSupply (enterActive s)) = enterActive s := by
  have h := (enterActive_awake s).nothing hn
  rw [reportSupply_of_nothing h, takeAll_of_nothing h]

theorem wakeOver_due {s : State} {t : Nat} (hp : s.drive.power = .waking) (hw : s.drive.wakeAt = some t) (ht : t ≤ s.now)
    (hn : NothingToSchedule s) : wakeOver s = enterActive s := by
  simp only [wakeOver, hp, hw, if_pos ht]
  exact takeAll_enterActive hn

theorem wakeOver_absent {s : State} (h : s.drive.power ≠ .waking ∨ ∃ t, s.drive.wakeAt = some t ∧ s.now < t) :
    wakeOver s = s := by
  unfold wakeOver
  split
  · next t hp ht =>
    obtain h | ⟨u, hu, hlt⟩ := h
    · exact absurd hp h
    · rw [ht] at hu; cases hu
      rw [if_neg (Nat.not_le.mpr hlt)]
  · rfl

/-! ### QUIET ENTER and QUIET LEAVE (R144, R145) -/

theorem letGoIf_all (d : DriveKey) (now : Nat) :
    d.letGoIf (fun _ => true) now =
      if d.state = .strike ∨ d.state = .sustain then
        { d with
          state := .letgo, owner := none, sustainDemand := none, reboundGap := none, sustain := none, reboundEnd := none
          letGoAt := some (now + 1000000) }
      else d := by
  simp only [DriveKey.letGoIf, Bool.and_true, holdsKey_iff]
  rfl

theorem letGoIf_rest {d : DriveKey} {now : Nat} : (d.letGoIf (fun _ => true) now).state = .rest ↔ d.state = .rest := by
  rw [letGoIf_all]
  split
  · next h => obtain h | h := h <;> simp [h]
  · rfl

/-- The part with every key let go and the drive in QUIET_PENDING. -/
def State.hushed (s : State) : State :=
  { s with drive := { s.drive with
    power := .quietPending, wakeAt := none, keys := bankMap (fun _ d => d.letGoIf (fun _ => true) s.now) s.drive.keys } }

theorem hushed_driveKey (s : State) (k : Key) : s.hushed.driveKey k = (s.driveKey k).letGoIf (fun _ => true) s.now :=
  bankGet_bankMap ..

theorem goQuiet_eq {s : State} (hn : NothingToSchedule s) :
    goQuiet s = if ∀ k, (s.driveKey k).state = .rest then enterQuiet s.hushed else s.hushed := by
  have hlet : letGoReported (fun _ => true) { s with drive := { s.drive with power := .quietPending, wakeAt := none } } =
      s.hushed := by
    rw [letGoReported, letGoKeys_eq]
    exact respond_of_nothing (hn.of_eq rfl rfl rfl rfl rfl)
  have hrest : s.hushed.drive.power = .quietPending ∧ s.hushed.allRest = true ↔ ∀ k, (s.driveKey k).state = .rest := by
    rw [allRest_iff]
    simp only [hushed_driveKey, letGoIf_rest]
    exact and_iff_right rfl
  rw [goQuiet, hlet, quietIfAtRest]
  exact if_congr hrest rfl rfl

/-- What QUIET ENTER leaves from ACTIVE or WAKING: QUIET where every key rests, else QUIET_PENDING (R144). -/
structure WentQuiet (s t : State) : Prop where
  drive  : t = { s with drive := t.drive }
  wakeAt : t.drive.wakeAt = none
  rested : (∀ k, (s.driveKey k).state = .rest) → t.drive.power = .quiet ∧ t.drive.sag = false ∧
    ∀ p, (bankGet t.drive.pedals p).output = 0 ∧ (bankGet t.drive.pedals p).applied = none
  driven : ¬ (∀ k, (s.driveKey k).state = .rest) →
    t.drive.power = .quietPending ∧ t.drive.sag = s.drive.sag ∧ t.drive.pedals = s.drive.pedals
  keys   : ∀ k, t.driveKey k = (s.driveKey k).letGoIf (fun _ => true) s.now

theorem goQuiet_wentQuiet {s : State} (hn : NothingToSchedule s) : WentQuiet s (goQuiet s) := by
  rw [goQuiet_eq hn]
  split
  · next h =>
    refine ⟨rfl, rfl, fun _ => ⟨rfl, rfl, fun p => ?_⟩, fun hnot => absurd h hnot, hushed_driveKey s⟩
    have hoff : bankGet (enterQuiet s.hushed).drive.pedals p =
        { (bankGet s.drive.pedals p) with applied := none, output := 0 } := bankGet_bankMap ..
    rw [hoff]
    exact ⟨rfl, rfl⟩
  · next h => exact ⟨rfl, rfl, fun hall => absurd hall h, fun _ => ⟨rfl, rfl, rfl⟩, hushed_driveKey s⟩

theorem WentQuiet.code {s t : State} (h : WentQuiet s t) :
    byte1 t.drive.power.code = [if t.drive.power = .quiet then 2 else 1] := by
  by_cases hrest : ∀ k, (s.driveKey k).state = .rest
  · rw [(h.rested hrest).1]; decide
  · rw [(h.driven hrest).1]; decide

section
variable {s : State}

theorem answerQuietEnter_busy (h : s.clk.state = .running ∨ s.run.state ≠ .idle) :
    answerQuietEnter s = refuse .state s :=
  if_pos (by simpa [State.running, State.runActive] using h)

theorem quietEnter_free (hc : s.clk.state ≠ .running) (hr : s.run.state = .idle) :
    ¬ (s.running = true ∨ s.runActive = true) := by
  simp [State.running, State.runActive, hc, hr]

theorem answerQuietEnter_quiet (hc : s.clk.state ≠ .running) (hr : s.run.state = .idle) (hp : s.drive.power = .quiet) :
    answerQuietEnter s = { status := .ok, body := [2], state := s } := by
  have hcode : byte1 Power.quiet.code = [2] := by decide
  rw [answerQuietEnter, if_neg (quietEnter_free hc hr)]
  simp only [hp, hcode]

theorem answerQuietEnter_pending (hc : s.clk.state ≠ .running) (hr : s.run.state = .idle)
    (hp : s.drive.power = .quietPending) : answerQuietEnter s = { status := .ok, body := [1], state := s } := by
  have hcode : byte1 Power.quietPending.code = [1] := by decide
  rw [answerQuietEnter, if_neg (quietEnter_free hc hr)]
  simp only [hp, hcode]

theorem answerQuietEnter_awake (hc : s.clk.state ≠ .running) (hr : s.run.state = .idle)
    (hp : s.drive.power = .active ∨ s.drive.power = .waking) :
    answerQuietEnter s = { status := .ok, body := byte1 (goQuiet s).drive.power.code, state := goQuiet s } := by
  rw [answerQuietEnter, if_neg (quietEnter_free hc hr)]
  obtain hp | hp := hp <;> simp only [hp]

theorem answerQuietLeave_quiet (hn : NothingToSchedule s) (hp : s.drive.power = .quiet) :
    answerQuietLeave s =
      { status := .ok, body := []
        state := { s with drive := { s.drive with power := .waking, wakeAt := some (s.now + 200000) } } } := by
  have hwaking : NothingToSchedule
      { s with drive := { s.drive with power := .waking, wakeAt := some (s.now + Config.wakeMicros) } } :=
    hn.of_eq rfl rfl rfl rfl rfl
  simp only [answerQuietLeave, hp, reportSupply_of_nothing hwaking, takeAll_of_nothing hwaking]

theorem answerQuietLeave_awake (hp : s.drive.power = .active ∨ s.drive.power = .waking) :
    answerQuietLeave s = { status := .ok, body := [], state := s } := by
  obtain hp | hp := hp <;> simp only [answerQuietLeave, hp]

theorem answerQuietLeave_pending (hn : NothingToSchedule s) (hp : s.drive.power = .quietPending) :
    answerQuietLeave s = { status := .ok, body := [], state := enterActive s } := by
  simp only [answerQuietLeave, hp, takeAll_enterActive hn]

end

/-- Settles O53: the demand merged and judged, the supply read, and the drive's power states. -/
theorem supplyAndPowerStates : Obligations.SupplyAndPowerStates := by
  refine ⟨fun s p => ⟨mergedDemand_eq_none, fun n => mergedDemand_greatest, fun y v => ?_⟩, fun s hn => ?_⟩
  · intro t
    refine ⟨setDemand_of_same, fun h => ?_⟩
    obtain ⟨hfollows, hothers⟩ := setDemand_follows h
    have honly : DemandsOnly s t := setDemand_only y p v s
    have hdrive : t.drive = { s.drive with pedals := t.drive.pedals } := (setDemand_outputs y p v s).drive
    refine ⟨(setDemand_layer ..).trans (if_pos rfl), fun z hz => (setDemand_layer ..).trans (if_neg hz), hfollows, hothers,
      hdrive, ?_⟩
    rw [hdrive]
    exact honly
  · intro sags judged now awake
    have hsags (d : Drive) (hv : d.vnom = s.drive.vnom) (hp : d.sagPercent = s.drive.sagPercent) :
        d.judgedSag = sags d.sag d.vmeas := by
      rw [judgedSag_eq, hv, hp]
    have hawake {t : State} (h : Awake s t) : awake t := by
      have hdrive : t.drive = { s.drive with
        power := .active, wakeAt := none, sag := s.drive.judgedSag, pedals := t.drive.pedals } := congrArg State.drive h.rest
      have hnow : s.drive.judgedSag = now := hsags s.drive rfl rfl
      refine ⟨by rw [hdrive], by rw [hdrive], ?_, by rw [hdrive], ?_, h.pedals⟩
      · rw [hdrive]; exact hnow
      · rw [← hnow]; exact h.notice
    refine ⟨fun v => ⟨fun hdue => ?_, fun hearly => congrArg Host.Outcome.next (readSupply_early v hearly)⟩,
      fun t hp hw => ⟨fun hdue => ⟨enterActive s, congrArg Host.Outcome.next (wakeOver_due hp hw hdue hn),
          hawake (enterActive_awake s), ?_⟩,
        fun hearly => congrArg Host.Outcome.next (wakeOver_absent (.inr ⟨t, hw, hearly⟩))⟩,
      fun hp => congrArg Host.Outcome.next (wakeOver_absent (.inl hp)), fun l => ⟨fun hl => ?_, fun hl => ?_⟩⟩
    · have hlive : (s.supplied v).drive.sagNow = if judged then sags s.drive.sag v.val else s.drive.sag :=
        if_congr Iff.rfl (hsags (s.supplied v).drive rfl rfl) rfl
      refine congrArg Host.Outcome.next ((readSupply_due v hdue hn).trans ?_)
      rw [hlive]
      rfl
    · rw [(enterActive_awake s).rest]
      exact ⟨rfl, rfl, rfl, rfl, rfl, rfl⟩
    · have hexec : exec (.quietEnter l) s = .next (serve l .quietEnter answerQuietEnter s) := rfl
      refine ⟨fun h => exec_of_refusal hexec hl (answerQuietEnter_busy h), fun hc hr =>
        ⟨fun hp => exec_of_answer hexec hl (answerQuietEnter_quiet hc hr hp),
          fun hp => exec_of_answer hexec hl (answerQuietEnter_pending hc hr hp), fun hp => ?_⟩⟩
      have hquiet := goQuiet_wentQuiet hn
      refine ⟨goQuiet s, ?_, hquiet.drive, hquiet.wakeAt, hquiet.rested, hquiet.driven, fun k => ?_⟩
      · rw [← hquiet.code]
        exact exec_of_answer hexec hl (answerQuietEnter_awake hc hr hp)
      · rw [hquiet.keys, letGoIf_all]
    · have hexec : exec (.quietLeave l) s = .next (serve l .quietLeave answerQuietLeave s) := rfl
      exact ⟨fun hp => exec_of_answer hexec hl (answerQuietLeave_quiet hn hp),
        fun hp => exec_of_answer hexec hl (answerQuietLeave_awake hp),
        fun hp => ⟨enterActive s, exec_of_answer hexec hl (answerQuietLeave_pending hn hp), hawake (enterActive_awake s)⟩⟩

end Sys2Proof.Machine
end

section
/-! SUPPORT. `Upholds F s t`: the properties of the plan, the demands and the drive unit's keys that always hold pass from `s` to `t`,
and no key leaves BLOCKED but those `F` names (R70, R104, R105, R107, R129, R132, R140). The relation is reflexive and
transitive, so an operation upholds what its parts do. -/

namespace Sys2Proof.Machine

/-! ### The properties, part by part -/

/-- A key's owner, fire and heat agree with its drive state (R104, R105, R129). -/
structure DriveKey.Sound (d : DriveKey) : Prop where
  owner : d.owner.isSome ↔ d.state.holdsKey = true
  fire  : d.state = .strike → d.fire.isSome
  rest  : d.state = .rest → d.fire = none
  heat  : d.heat ≤ 65535

theorem driveKeysSound_iff {s : State} : DriveKeysSound s ↔ ∀ k, (s.driveKey k).Sound :=
  forall_congr' fun _ => ⟨fun ⟨h1, h2, h3, h4⟩ => ⟨h1, h2, h3, h4⟩, fun ⟨h1, h2, h3, h4⟩ => ⟨h1, h2, h3, h4⟩⟩

/-- A layer in replay: CUED or PLAYING. -/
def State.replays (s : State) (y : LayerId) : Prop := (s.layer y).state = .cued ∨ (s.layer y).state = .playing

/-- An action on a pedal. -/
def Action.OnPedal (a : Action) : Prop := ∃ p v, a.body = .pedal p v

theorem demandsOnlyInReplay_iff {s : State} :
    DemandsOnlyInReplay s ↔
      (∀ y p, (bankGet (s.layer y).demands p).isSome → s.replays y) ∧
        ∀ a ∈ s.sched.plan, a.OnPedal → s.replays a.layer := by
  constructor
  · exact fun h => ⟨fun y p hp => h y (.inl ⟨p, hp⟩), fun a ha hp => h a.layer (.inr ⟨a, ha, rfl, hp⟩)⟩
  · rintro ⟨hd, hp⟩ y (⟨p, h⟩ | ⟨a, ha, rfl, h⟩)
    · exact hd y p h
    · exact hp a ha h

/-- Demands and PEDAL actions depend on the plan and the layers alone. -/
theorem DemandsOnlyInReplay.congr {s t : State} (h : DemandsOnlyInReplay s) (hp : t.sched.plan = s.sched.plan)
    (hl : ∀ z, t.layer z = s.layer z) : DemandsOnlyInReplay t := by
  unfold DemandsOnlyInReplay
  simp only [hp, hl]
  exact h

/-- The plan in rising due tick (R107). -/
def PlanInOrder (s : State) : Prop := s.sched.plan.Pairwise fun a b => a.due ≤ b.due

/-- The plan within its places, and empty while the clock is STOPPED (R107). -/
def PlanInPlaces (s : State) : Prop :=
  s.sched.plan.length ≤ Config.planPlaces ∧ (s.clk.state = .stopped → s.sched.plan = [])

theorem planSound_iff {s : State} : PlanSound s ↔ PlanInPlaces s ∧ PlanInOrder s :=
  ⟨fun ⟨h1, h2, h3⟩ => ⟨⟨h1, h3⟩, h2⟩, fun ⟨⟨h1, h3⟩, h2⟩ => ⟨h1, h2, h3⟩⟩

/-! ### The relations -/

/-- All that passes from `s` to `t` whatever is inserted in the plan meanwhile: all but its places. -/
structure Orderly (F : Key → Prop) (s t : State) : Prop where
  order   : PlanInOrder s → PlanInOrder t
  serials : SerialsSound s → SerialsSound t
  demands : DemandsOnlyInReplay s → DemandsOnlyInReplay t
  keys    : DriveKeysSound s → DriveKeysSound t
  slots   : SlotsBounded s → SlotsBounded t
  blocked : ∀ k, (s.driveKey k).state = .blocked → (t.driveKey k).state = .blocked ∨ F k

/-- Every property of the statement passes from `s` to `t`; the keys `F` names may leave BLOCKED. -/
structure Upholds (F : Key → Prop) (s t : State) : Prop extends Orderly F s t where
  places : PlanInPlaces s → PlanInPlaces t

section
variable {F G : Key → Prop} {s t u : State}

theorem Orderly.refl (s : State) : Orderly F s s := ⟨id, id, id, id, id, fun _ h => .inl h⟩

theorem Orderly.trans (h : Orderly F s t) (g : Orderly F t u) : Orderly F s u :=
  ⟨g.order ∘ h.order, g.serials ∘ h.serials, g.demands ∘ h.demands, g.keys ∘ h.keys, g.slots ∘ h.slots,
    fun k hk => (h.blocked k hk).elim (g.blocked k) .inr⟩

theorem Upholds.refl (s : State) : Upholds F s s := ⟨.refl s, id⟩

theorem Upholds.trans (h : Upholds F s t) (g : Upholds F t u) : Upholds F s u :=
  ⟨h.toOrderly.trans g.toOrderly, g.places ∘ h.places⟩

theorem Upholds.after (g : Upholds F t u) (h : Upholds F s t) : Upholds F s u := h.trans g

theorem Upholds.mono (h : Upholds F s t) (hF : ∀ k, F k → G k) : Upholds G s t :=
  ⟨⟨h.order, h.serials, h.demands, h.keys, h.slots, fun k hk => (h.blocked k hk).imp_right (hF k)⟩, h.places⟩

theorem Upholds.foldl {α : Type} {f : State → α → State} (h : ∀ s x, Upholds F s (f s x)) (xs : List α) (s : State) :
    Upholds F s (xs.foldl f s) := by
  induction xs generalizing s with
  | nil => exact .refl s
  | cons x xs ih => exact (h s x).trans (ih _)

theorem Upholds.planSound (h : Upholds F s t) (hs : PlanSound s) : PlanSound t := by
  obtain ⟨hplaces, horder⟩ := planSound_iff.mp hs
  exact planSound_iff.mpr ⟨h.places hplaces, h.order horder⟩

/-! ### Updates of other values -/

/-- The values the properties speak of. -/
structure InPlay where
  plan       : List Action
  nextSerial : Nat
  clock      : ClockState
  state0     : LayerState
  state1     : LayerState
  demands0   : Bank (Option Nat) 3
  demands1   : Bank (Option Nat) 3
  keys       : Bank DriveKey 88
  slots      : Nat

/-- Those values of a state. -/
def State.inPlay (s : State) : InPlay where
  plan := s.sched.plan
  nextSerial := s.sched.nextSerial
  clock := s.clk.state
  state0 := s.layer0.state
  state1 := s.layer1.state
  demands0 := s.layer0.demands
  demands1 := s.layer1.demands
  keys := s.drive.keys
  slots := s.drive.slots

theorem driveKey_of_keys (h : t.drive.keys = s.drive.keys) (k : Key) : t.driveKey k = s.driveKey k := by
  rw [State.driveKey, State.driveKey, h]

theorem slotsHeld_of_keys (h : t.drive.keys = s.drive.keys) : t.slotsHeld = s.slotsHeld :=
  slotsHeld_congr fun j => by rw [driveKey_of_keys h]

/-- An update of the layers alone, as far as the properties go. -/
theorem Upholds.of_layers (hp : t.sched.plan = s.sched.plan) (hn : t.sched.nextSerial = s.sched.nextSerial)
    (hc : t.clk.state = s.clk.state) (hk : t.drive.keys = s.drive.keys) (hs : t.drive.slots = s.drive.slots)
    (hd : DemandsOnlyInReplay s → DemandsOnlyInReplay t) : Upholds F s t where
  order h := by unfold PlanInOrder; rw [hp]; exact h
  serials h := by unfold SerialsSound State.planSerials; rw [hp, hn]; exact h
  demands := hd
  keys h := by rw [driveKeysSound_iff] at h ⊢; exact fun k => by rw [driveKey_of_keys hk]; exact h k
  slots h := by unfold SlotsBounded; rw [hs, slotsHeld_of_keys hk]; exact h
  blocked k h := .inl (by rw [driveKey_of_keys hk]; exact h)
  places h := by unfold PlanInPlaces; rw [hp, hc]; exact h

/-- An update of the drive unit alone, as far as the properties go. -/
theorem Upholds.of_drive (hs : t.sched = s.sched) (hc : t.clk = s.clk) (hl : ∀ z, t.layer z = s.layer z)
    (hk : DriveKeysSound s → DriveKeysSound t) (hb : SlotsBounded s → SlotsBounded t)
    (hf : ∀ k, (s.driveKey k).state = .blocked → (t.driveKey k).state = .blocked ∨ F k) : Upholds F s t where
  order h := by unfold PlanInOrder; rw [hs]; exact h
  serials h := by unfold SerialsSound State.planSerials; rw [hs]; exact h
  demands h := h.congr (by rw [hs]) hl
  keys := hk
  slots := hb
  blocked := hf
  places h := by unfold PlanInPlaces; rw [hs, hc]; exact h

theorem Upholds.unmoved (h : t.inPlay = s.inPlay) : Upholds F s t := by
  have hstate : ∀ y, (t.layer y).state = (s.layer y).state := fun y => by
    cases y
    · exact congrArg InPlay.state0 h
    · exact congrArg InPlay.state1 h
  have hdemands : ∀ y, (t.layer y).demands = (s.layer y).demands := fun y => by
    cases y
    · exact congrArg InPlay.demands0 h
    · exact congrArg InPlay.demands1 h
  have hplan : t.sched.plan = s.sched.plan := congrArg InPlay.plan h
  refine .of_layers hplan (congrArg InPlay.nextSerial h) (congrArg InPlay.clock h) (congrArg InPlay.keys h)
    (congrArg InPlay.slots h) fun hd => ?_
  unfold DemandsOnlyInReplay
  simp only [hstate, hdemands, hplan]
  exact hd

theorem CaptureOnly.upholds (h : CaptureOnly s t) : Upholds F s t :=
  .unmoved (by simp only [State.inPlay, h.sched, h.drive, h.layer0, h.layer1, h.keeps.clk])

theorem Upholds.setLink (s : State) (l : Link) (r : LinkRec) : Upholds F s (s.setLink l r) := by
  cases l <;> exact .unmoved rfl

theorem Upholds.raise (l : Link) (n : Notice) (s : State) : Upholds F s (raise l n s) := .setLink ..

theorem Upholds.raiseBoth (n : Notice) (s : State) : Upholds F s (raiseBoth n s) := .unmoved rfl

theorem Upholds.setRun (r : RunController) (s : State) : Upholds F s (setRun r s) := .unmoved rfl

/-- A layer replaced by one in its state and with its demands. -/
theorem Upholds.setLayer_same {y : LayerId} {l : Layer} (hs : l.state = (s.layer y).state)
    (hd : l.demands = (s.layer y).demands) : Upholds F s (s.setLayer y l) := by
  refine .unmoved ?_
  cases y <;> simp only [State.inPlay, State.setLayer, hs, hd] <;> rfl

/-! ### A key's record replaced -/

/-- Key `k`'s drive record may become `d`: sound, on a slot of its own or a free one, and BLOCKED where it was or freed. -/
structure MayBecome (F : Key → Prop) (s : State) (k : Key) (d : DriveKey) : Prop where
  sound   : (s.driveKey k).Sound → d.Sound
  slot    : d.state.holdsSlot = true → (s.driveKey k).state.holdsSlot = true ∨ s.slotFree = true
  blocked : (s.driveKey k).state = .blocked → d.state = .blocked ∨ F k

theorem driveKey_setDriveKey (s : State) (k j : Key) (d : DriveKey) :
    (s.setDriveKey k d).driveKey j = if j = k then d else s.driveKey j := by
  split
  · next h => rw [h, driveKey_setDriveKey_same]
  · next h => exact driveKey_setDriveKey_other s d h

/-- A key's record replaced takes at most one slot more. -/
theorem slotsHeld_setDriveKey_le (s : State) (k : Key) (d : DriveKey) : (s.setDriveKey k d).slotsHeld ≤ s.slotsHeld + 1 := by
  refine (((List.nodup_finRange 88).filter _).subperm fun j hj => ?_).length_le
    (l₂ := k :: allKeys.filter fun j => (s.driveKey j).state.holdsSlot)
  obtain ⟨-, hj⟩ := List.mem_filter.mp hj
  rw [driveKey_setDriveKey] at hj
  by_cases h : j = k
  · exact h ▸ List.mem_cons_self
  · rw [if_neg h] at hj
    exact List.mem_cons_of_mem _ (List.mem_filter.mpr ⟨List.mem_finRange j, hj⟩)

/-- A key's record replaced takes no slot more where it held one already, or holds none. -/
theorem slotsHeld_setDriveKey_of_imp {k : Key} {d : DriveKey}
    (h : d.state.holdsSlot = true → (s.driveKey k).state.holdsSlot = true) : (s.setDriveKey k d).slotsHeld ≤ s.slotsHeld := by
  refine (((List.nodup_finRange 88).filter _).subperm fun j hj => ?_).length_le
  obtain ⟨hmem, hj⟩ := List.mem_filter.mp hj
  refine List.mem_filter.mpr ⟨hmem, ?_⟩
  rw [driveKey_setDriveKey] at hj
  split at hj
  · next hjk => rw [hjk]; exact h hj
  · exact hj

theorem Upholds.setDriveKey {k : Key} {d : DriveKey} (h : MayBecome F s k d) : Upholds F s (s.setDriveKey k d) := by
  refine .of_drive rfl rfl (layer_eq_of_fields rfl rfl) (fun hs => ?_) (fun ⟨hmax, hheld⟩ => ⟨hmax, ?_⟩) fun j hj => ?_
  · rw [driveKeysSound_iff] at hs ⊢
    intro j
    rw [driveKey_setDriveKey]
    split
    · exact h.sound (hs k)
    · exact hs j
  · by_cases hslot : d.state.holdsSlot = true → (s.driveKey k).state.holdsSlot = true
    · exact (slotsHeld_setDriveKey_of_imp hslot).trans hheld
    · obtain ⟨hd, hk⟩ := Classical.not_imp.mp hslot
      have hfree := slotFree_iff.mp ((h.slot hd).resolve_left hk)
      have hle := slotsHeld_setDriveKey_le s k d
      omega
  · rw [driveKey_setDriveKey]
    split
    · next hjk => subst hjk; exact h.blocked hj
    · exact .inl hj

theorem Upholds.putDriveKey {k : Key} {d : DriveKey} (h : MayBecome F s k d) : Upholds F s (putDriveKey k d s) :=
  (Upholds.setDriveKey h).trans (putDriveKey_only k d s).upholds

/-- A record that changes neither state, owner nor fire, its heat in range. -/
theorem MayBecome.of_same {k : Key} {d : DriveKey} (hs : d.state = (s.driveKey k).state) (ho : d.owner = (s.driveKey k).owner)
    (hf : d.fire = (s.driveKey k).fire) (hh : (s.driveKey k).heat ≤ 65535 → d.heat ≤ 65535) : MayBecome F s k d where
  sound h := ⟨by rw [ho, hs]; exact h.owner, by rw [hs, hf]; exact h.fire, by rw [hs, hf]; exact h.rest, hh h.heat⟩
  slot h := .inl (by rw [← hs]; exact h)
  blocked h := .inl (hs.trans h)

/-- A fire in flight removed from a key that is not in STRIKE. -/
theorem MayBecome.unfired {k : Key} (h : (s.driveKey k).state ≠ .strike) :
    MayBecome F s k { (s.driveKey k) with fire := none } where
  sound g := ⟨g.owner, fun e => absurd e h, fun _ => rfl, g.heat⟩
  slot h := .inl h
  blocked h := .inl h

/-- A key let go, with its fire in flight or without. -/
theorem MayBecome.lettingGo {k : Key} (fire : Option Fire) (h : (s.driveKey k).state = .blocked → F k) :
    MayBecome F s k { ((s.driveKey k).lettingGo s.now) with fire := fire } where
  sound g := ⟨by simp [DriveKey.lettingGo, DriveState.holdsKey], nofun, nofun, g.heat⟩
  slot e := by simp [DriveKey.lettingGo, DriveState.holdsSlot] at e
  blocked e := .inr (h e)

theorem MayBecome.resting {k : Key} (h : (s.driveKey k).state = .blocked → F k) :
    MayBecome F s k (s.driveKey k).resting where
  sound g := ⟨by simp [DriveKey.resting, DriveState.holdsKey], nofun, fun _ => rfl, g.heat⟩
  slot e := by simp [DriveKey.resting, DriveState.holdsSlot] at e
  blocked e := .inr (h e)

/-! ### The drive unit -/

theorem enterLetGo_upholds {k : Key} (h : (s.driveKey k).state ≠ .blocked) : Upholds F s (enterLetGo k s) :=
  .putDriveKey (.lettingGo (s.driveKey k).fire fun e => absurd e h)

theorem enterRest_upholds {k : Key} (h : (s.driveKey k).state = .blocked → F k) : Upholds F s (enterRest k s) :=
  .putDriveKey (.resting h)

theorem beginSustain_upholds (k : Key) (s : State) : Upholds F s (beginSustain k s) := .setDriveKey (.of_same rfl rfl rfl id)

/-- A key put into SUSTAIN with an owner, as a detection, a miss and a depression do. -/
theorem MayBecome.sustaining {k : Key} {d : DriveKey} (hs : d.state = .sustain) (hh : d.heat = (s.driveKey k).heat)
    (ho : (s.driveKey k).Sound → d.owner.isSome) (hb : (s.driveKey k).state ≠ .blocked) : MayBecome F s k d where
  sound g := ⟨by simp [hs, ho g, DriveState.holdsKey], by simp [hs], by simp [hs], hh ▸ g.heat⟩
  slot e := by simp [hs, DriveState.holdsSlot] at e
  blocked e := absurd e hb

theorem owner_of_strike {d : DriveKey} (h : d.state = .strike) (g : d.Sound) : d.owner.isSome :=
  g.owner.mpr (by rw [h]; rfl)

theorem detect_upholds {k : Key} (h : (s.driveKey k).state = .strike) : Upholds F s (detect k s) := by
  have hput := Upholds.putDriveKey (MayBecome.sustaining (F := F) (s := s) (k := k)
    (d := { (s.driveKey k) with
      state := .sustain, fire := none, sustain := none
      reboundEnd := some (s.now + Config.tickMicros * (s.driveKey k).reboundGap.getD 0) })
    rfl rfl (owner_of_strike h) (by simp [h]))
  unfold detect
  dsimp only
  split
  · exact hput.trans (beginSustain_upholds ..)
  · exact hput

theorem heatAfterFire_le (heat applied : Nat) : heatAfterFire heat applied ≤ 65535 := min_le_left ..

theorem fireStrike_upholds {k : Key} (h : (s.driveKey k).state = .rest) (hslot : s.slotFree = true) (y : LayerId)
    (event velocity demand flight : Nat) : Upholds F s (fireStrike k y event velocity demand flight s) :=
  .putDriveKey
    { sound := fun _ => ⟨by simp [DriveKey.withHeat, DriveState.holdsKey], fun _ => rfl, nofun, heatAfterFire_le ..⟩
      slot := fun _ => .inr hslot
      blocked := fun e => nomatch h.symm.trans e }

theorem firePulse_upholds {k : Key} (h : (s.driveKey k).state = .rest) (hslot : s.slotFree = true) (level : Nat) :
    Upholds F s (firePulse k level s) :=
  .putDriveKey
    { sound := fun _ => ⟨by simp [DriveKey.withHeat, DriveState.holdsKey], nofun, nofun, heatAfterFire_le ..⟩
      slot := fun _ => .inr hslot
      blocked := fun e => nomatch h.symm.trans e }

theorem depressKey_upholds {k : Key} (h : (s.driveKey k).state = .rest) (y : LayerId) (demand : Nat) :
    Upholds F s (depressKey k y demand s) := by
  have hput := Upholds.putDriveKey (MayBecome.sustaining (F := F) (s := s) (k := k)
    (d := { (s.driveKey k) with
      state := .sustain, owner := some y, sustainDemand := some demand, reboundGap := some 0, sustain := none
      reboundEnd := none })
    rfl rfl (fun _ => rfl) (by simp [h]))
  exact hput.trans (beginSustain_upholds ..)

theorem drivePedal_upholds (p : Pedal) (s : State) : Upholds F s (drivePedal p s) :=
  .unmoved (by rw [drivePedal_only p s, State.inPlay]; simp only [← layer_l0, ← layer_l1, drivePedal_layer]; rfl)

end

end Sys2Proof.Machine
end

section
/-! SUPPORT. The layers', the scheduler's and the arbiter's operations uphold the properties of the plan, the demands and the keys. -/

namespace Sys2Proof.Machine

section
variable {F : Key → Prop} {s t : State} {y : LayerId}

/-! ### Demands and ends of layers (R70, R85, R86) -/

/-- What touches the layers and the outputs alone upholds the rest. -/
theorem OutputsOnly.upholds (h : OutputsOnly s t) (hd : DemandsOnlyInReplay s → DemandsOnlyInReplay t) : Upholds F s t :=
  .of_layers (by rw [h.sched]) (by rw [h.sched]) (by rw [h.keeps.clk]) h.keys (by rw [h.drive]) hd

theorem isSome_bankSet {b : Bank (Option Nat) 3} {p q : Pedal} {v : Option Nat} (h : (bankGet (bankSet b p v) q).isSome) :
    v.isSome ∨ (bankGet b q).isSome := by
  rw [bankGet_bankSet] at h
  split at h
  · exact .inl h
  · exact .inr h

theorem setDemand_replays (y : LayerId) (p : Pedal) (v : Option Nat) (s : State) (z : LayerId) :
    (setDemand y p v s).replays z ↔ s.replays z := by
  rw [State.replays, State.replays, setDemand_layer]
  split
  · next hz => rw [hz]
  · rfl

/-- A demand is set for a layer in replay alone; any may be dropped (R70). -/
theorem setDemand_upholds {p : Pedal} {v : Option Nat} (h : DemandsOnlyInReplay s → v.isSome → s.replays y) :
    Upholds F s (setDemand y p v s) := by
  have houtputs := setDemand_outputs y p v s
  have hreplays := setDemand_replays y p v s
  refine houtputs.upholds fun hs => ?_
  obtain ⟨hd, hp⟩ := demandsOnlyInReplay_iff.mp hs
  rw [demandsOnlyInReplay_iff]
  refine ⟨fun z q hq => ?_, fun a ha hpedal => (hreplays _).mpr (hp a (by rwa [houtputs.sched] at ha) hpedal)⟩
  rw [hreplays]
  rw [setDemand_layer] at hq
  split at hq
  · next hz =>
    subst hz
    exact (isSome_bankSet hq).elim (h hs) (hd z q)
  · exact hd z q hq

/-- A layer that leaves replay with no demand and no PEDAL action in the plan. -/
theorem demandsOnlyInReplay_of_left (hs : DemandsOnlyInReplay s) (hsched : t.sched = s.sched)
    (hother : ∀ z, z ≠ y → t.layer z = s.layer z) (hd : ∀ p, bankGet (t.layer y).demands p = none)
    (hp : ∀ a ∈ s.sched.plan, a.OnPedal → a.layer ≠ y) : DemandsOnlyInReplay t := by
  rw [demandsOnlyInReplay_iff] at hs ⊢
  have hreplays (z : LayerId) (hz : z ≠ y) : t.replays z ↔ s.replays z := by
    rw [State.replays, State.replays, hother z hz]
  refine ⟨fun z p h => ?_, fun a ha hpedal => ?_⟩
  · by_cases hz : z = y
    · subst hz; rw [hd p] at h; cases h
    · rw [hreplays z hz]; exact hs.1 z p (by rwa [hother z hz] at h)
  · rw [hsched] at ha
    rw [hreplays _ (hp a ha hpedal)]
    exact hs.2 a ha hpedal

theorem planHolds_eq_false : s.planHolds y = false ↔ ∀ a ∈ s.sched.plan, a.layer ≠ y := by simp [State.planHolds]

theorem endIfDone_upholds (y : LayerId) (s : State) : Upholds F s (endIfDone y s) := by
  refine (endIfDone_outputs y s).upholds fun hs => ?_
  unfold endIfDone
  dsimp only
  split
  · next h =>
    obtain ⟨-, -, hplan⟩ := h
    have hnone := planHolds_eq_false.mp (Bool.eq_false_iff.mpr hplan)
    refine demandsOnlyInReplay_of_left (y := y) hs ?_ (fun z hz => ?_) (fun p => ?_) fun a ha _ => hnone a ha
    · exact (dropDemands_outputs ..).sched.trans (setLayer_sched ..)
    · exact (layer_eq_of_fields rfl rfl z).trans
        ((dropDemands_layer_other hz _).trans (layer_setLayer_other _ _ hz))
    · have hlayer := (layer_eq_of_fields (s := dropDemands y (s.setLayer y { (s.layer y) with state := .ended }))
        (t := Machine.raiseBoth .layerEnd (dropDemands y (s.setLayer y { (s.layer y) with state := .ended }))) rfl rfl y).trans
        (dropDemands_layer ..)
      rw [hlayer]
      exact bankGet_replicate ..
  · exact hs

/-! ### Actions answered and carried out -/

/-- Actions removed from the plan. -/
theorem Upholds.of_filter {p : Action → Bool} (hp : t.sched.plan = s.sched.plan.filter p)
    (hn : t.sched.nextSerial = s.sched.nextSerial) (hc : t.clk.state = s.clk.state) (hl : ∀ z, t.layer z = s.layer z)
    (hk : t.drive.keys = s.drive.keys) (hs : t.drive.slots = s.drive.slots) : Upholds F s t where
  order h := by unfold PlanInOrder; rw [hp]; exact h.sublist List.filter_sublist
  serials h := by
    unfold SerialsSound State.planSerials
    rw [hp, hn]
    exact ⟨h.1.sublist (List.filter_sublist.map _), fun a ha => h.2 a (List.mem_filter.mp ha).1⟩
  demands h := by
    rw [demandsOnlyInReplay_iff] at h ⊢
    unfold State.replays at h ⊢
    simp only [hl, hp]
    exact ⟨h.1, fun a ha => h.2 a (List.mem_filter.mp ha).1⟩
  keys h := by rw [driveKeysSound_iff] at h ⊢; exact fun k => by rw [driveKey_of_keys hk]; exact h k
  slots h := by unfold SlotsBounded; rw [hs, slotsHeld_of_keys hk]; exact h
  blocked k h := .inl (by rw [driveKey_of_keys hk]; exact h)
  places h := by
    unfold PlanInPlaces
    rw [hp, hc]
    exact ⟨(List.length_filter_le ..).trans h.1, fun e => by rw [h.2 e, List.filter_nil]⟩

theorem removeAction_upholds (n : Nat) (s : State) : Upholds F s (removeAction n s) :=
  .of_filter rfl rfl rfl (layer_eq_of_fields rfl rfl) rfl rfl

/-- An action told to wait is the same but for its reason. -/
theorem withWait_onPedal {a : Action} {w : WaitReason} (h : (a.withWait w).OnPedal) : a.OnPedal := by
  obtain ⟨p, v, h⟩ := h
  unfold Action.withWait at h
  split at h
  · cases h
  · exact ⟨p, v, h⟩

theorem waitStrike_upholds (w : WaitReason) (a : Action) (s : State) : Upholds F s (waitStrike w a s) := by
  let told (b : Action) : Action := if b.serial = a.serial then b.withWait w else b
  have hdue (b : Action) : (told b).due = b.due := by
    dsimp only [told]; split
    · exact withWait_due b w
    · rfl
  have hserial (b : Action) : (told b).serial = b.serial := by
    dsimp only [told]; split
    · exact withWait_serial b w
    · rfl
  have hlayer (b : Action) : (told b).layer = b.layer := by
    dsimp only [told]; split
    · exact withWait_layer b w
    · rfl
  have hpedal (b : Action) (h : (told b).OnPedal) : b.OnPedal := by
    dsimp only [told] at h; split at h
    · exact withWait_onPedal h
    · exact h
  have hplan : (waitStrike w a s).sched.plan = s.sched.plan.map told := rfl
  exact
    { order := fun h => by
        unfold PlanInOrder
        rw [hplan, List.pairwise_map]
        simp only [hdue]
        exact h
      serials := fun h => by
        refine ⟨?_, fun b hb => ?_⟩
        · have hsame : (waitStrike w a s).planSerials = s.planSerials := by
            rw [State.planSerials, hplan, List.map_map]
            exact List.map_congr_left fun b _ => hserial b
          rw [hsame]
          exact h.1
        · obtain ⟨c, hc, rfl⟩ := List.mem_map.mp hb
          exact lt_of_eq_of_lt (hserial c) (h.2 c hc)
      demands := fun h => by
        rw [demandsOnlyInReplay_iff] at h ⊢
        refine ⟨h.1, fun b hb hp => ?_⟩
        obtain ⟨c, hc, rfl⟩ := List.mem_map.mp hb
        have hreplays := h.2 c hc (hpedal c hp)
        rwa [← hlayer c] at hreplays
      keys := id
      slots := id
      blocked := fun _ => .inl
      places := fun h => ⟨by rw [hplan, List.length_map]; exact h.1, fun hc => by rw [hplan, h.2 hc, List.map_nil]⟩ }

theorem addDrop_upholds (e : DropEntry) (s : State) : Upholds F s (addDrop e s) := .unmoved rfl

theorem leavePlan_upholds (a : Action) (s : State) : Upholds F s (leavePlan a s) :=
  (removeAction_upholds ..).trans (endIfDone_upholds ..)

theorem dropStrike_upholds (r : DropReason) (a : Action) (s : State) : Upholds F s (dropStrike r a s) := by
  unfold dropStrike
  split
  · exact (addDrop_upholds ..).trans (leavePlan_upholds ..)
  · exact .refl s

/-- The drive unit takes a strike on a key in REST alone (R131). -/
theorem rest_of_offerTest {k : Key} (h : offerTest k s = none) : (s.driveKey k).state = .rest := by
  by_contra hrest
  have hwaits : (s.driveKey k).state ≠ .rest ∨ (s.driveKey k).touched = true ∨ firedTooSoon k s = true := .inl hrest
  unfold offerTest at h
  dsimp only at h
  rw [if_pos hwaits] at h
  repeat' split at h
  all_goals cases h

/-- A strike taken fires on a slot that is free (R132, R133). -/
theorem takeStrike_upholds {a : Action} {k : Key} (hk : a.strikeKey? = some k) (hrest : (s.driveKey k).state = .rest)
    (hslot : s.slotFree = true) : Upholds F s (takeStrike a s) := by
  obtain ⟨v, d, f, w, hb⟩ := body_of_strikeKey hk
  rw [takeStrike_eq s hb]
  exact (fireStrike_upholds hrest hslot ..).trans (leavePlan_upholds ..)

theorem applyAnswer_upholds {ans : OfferAnswer} {a : Action} {k : Key} (hk : a.strikeKey? = some k)
    (h : ans = .taken → (s.driveKey k).state = .rest ∧ s.slotFree = true) : Upholds F s (applyAnswer ans a s) := by
  cases ans with
  | taken => exact takeStrike_upholds hk (h rfl).1 (h rfl).2
  | wait w => exact waitStrike_upholds ..
  | refused r => exact dropStrike_upholds ..

theorem offerTest_ne_taken (k : Key) (s : State) : offerTest k s ≠ some .taken := by
  unfold offerTest
  dsimp only
  repeat' split
  all_goals exact nofun

theorem offerStrike_upholds {a : Action} {k : Key} (hk : a.strikeKey? = some k) : Upholds F s (offerStrike a k s) := by
  unfold offerStrike
  split
  · exact dropStrike_upholds ..
  · refine applyAnswer_upholds hk fun hans => ?_
    unfold offerAnswer at hans
    split at hans
    · next htest => exact absurd (htest.trans (congrArg some hans)) (offerTest_ne_taken k s)
    · next htest =>
      split at hans
      · next hslot => exact ⟨rest_of_offerTest htest, hslot⟩
      · cases hans

theorem arbiterLoop_upholds (fuel : Nat) (s : State) : Upholds F s (arbiterLoop fuel s) := by
  induction fuel generalizing s with
  | zero => exact .refl s
  | succ n ih =>
    unfold arbiterLoop
    split
    · next hslot =>
      split
      · exact .refl s
      · split
        · exact .refl s
        · next k hk =>
          refine (applyAnswer_upholds hk fun hans => ?_).trans (ih _)
          cases htest : offerTest k s with
          | none => exact ⟨rest_of_offerTest htest, hslot⟩
          | some ans =>
            rw [htest] at hans
            exact absurd (htest.trans (congrArg some hans)) (offerTest_ne_taken k s)
    · exact .refl s

theorem arbiter_upholds (s : State) : Upholds F s (arbiter s) := arbiterLoop_upholds ..

theorem ne_blocked_of_holdsKey {d : DriveState} (h : d.holdsKey = true) : d ≠ .blocked := by
  rintro rfl
  cases h

theorem handRelease_upholds (k : Key) (y : LayerId) (s : State) : Upholds F s (handRelease k y s) := by
  obtain ⟨-, heq⟩ | ⟨hholds, -, heq⟩ := handRelease_cases k y s <;> rw [heq]
  · exact .refl s
  · have hletgo : Upholds F s (enterLetGo k s) := enterLetGo_upholds (ne_blocked_of_holdsKey hholds)
    split
    · exact hletgo.trans (arbiter_upholds _)
    · exact hletgo

theorem handDepress_upholds (k : Key) (y : LayerId) (d : Nat) (s : State) : Upholds F s (handDepress k y d s) := by
  unfold handDepress
  split
  · next h => exact depressKey_upholds h.1 ..
  · exact .refl s

/-- An action of the plan carried out; a PEDAL action's layer is in replay while it stands there (R70). -/
theorem carryOut_upholds {a : Action} (hmem : a ∈ s.sched.plan) : Upholds F s (carryOut a s) := by
  cases h : a.body with
  | strike k v d f w =>
    obtain ⟨-, -, hc⟩ | ⟨-, hc⟩ := carryOut_strike (s := s) h <;> rw [hc]
    · exact dropStrike_upholds ..
    · exact offerStrike_upholds (by rw [Action.strikeKey?, h])
  | depress k d => rw [carryOut_depress h]; exact (handDepress_upholds ..).trans (leavePlan_upholds ..)
  | release k auto => rw [carryOut_release h]; exact (handRelease_upholds ..).trans (leavePlan_upholds ..)
  | pedal p v =>
    rw [carryOut_pedal h]
    refine Upholds.trans ?_ (leavePlan_upholds ..)
    split
    · exact setDemand_upholds fun hs _ => (demandsOnlyInReplay_iff.mp hs).2 a hmem ⟨p, v, h⟩
    · exact .refl s

/-! ### Processing, reports and the lateness judged -/

theorem processLoop_upholds (fuel : Nat) (again todo : List Nat) (s : State) : Upholds F s (processLoop fuel again todo s) := by
  induction fuel generalizing again todo s with
  | zero => rw [processLoop_fuel_zero]; exact .refl s
  | succ fuel ih =>
    cases todo with
    | nil => exact .refl s
    | cons n todo =>
      unfold processLoop
      split
      · exact ih ..
      · next a ha =>
        have hact : Upholds F s (carryOut a s) := carryOut_upholds (mem_of_action ha).1
        split
        · dsimp only
          split <;> exact hact.trans (ih ..)
        · exact ih ..

theorem processDue_upholds (named : Key → Bool) (s : State) : Upholds F s (processDue named s) := by
  unfold processDue
  split
  · exact processLoop_upholds ..
  · exact .refl s

theorem reportKey_upholds (k : Key) (s : State) : Upholds F s (reportKey k s) := processDue_upholds ..

theorem reportSupply_upholds (s : State) : Upholds F s (reportSupply s) := processDue_upholds ..

theorem respond_upholds (s t : State) : Upholds F t (respond s t) := by
  unfold respond
  dsimp only
  split
  · exact (arbiter_upholds t).trans (processDue_upholds ..)
  · exact arbiter_upholds t

theorem judgeLateness_upholds (s : State) : Upholds F s (judgeLateness s) := by
  refine .foldl (fun s n => ?_) _ s
  split
  · split
    · split
      · exact dropStrike_upholds ..
      · exact .refl s
    · exact .refl s
  · exact .refl s

theorem letGoKeys_upholds (f : DriveKey → Bool) (s : State) : Upholds F s (letGoKeys f s) := by
  refine .foldl (fun s k => ?_) _ s
  split
  · next h => exact enterLetGo_upholds (ne_blocked_of_holdsKey (Bool.and_eq_true_iff.mp h).1)
  · exact .refl s

theorem letGoReported_upholds (f : DriveKey → Bool) (s : State) : Upholds F s (letGoReported f s) :=
  (letGoKeys_upholds f s).trans (respond_upholds ..)

/-! ### Insertions (R107, R108, R112 to R116) -/

theorem pairwise_planInsert {a : Action} {p : List Action} (h : p.Pairwise fun b c => b.due ≤ c.due) :
    (planInsert a p).Pairwise fun b c => b.due ≤ c.due := by
  induction p with
  | nil => exact List.pairwise_singleton ..
  | cons b p ih =>
    obtain ⟨hb, hp⟩ := List.pairwise_cons.mp h
    unfold planInsert
    split
    · next hle =>
      refine List.pairwise_cons.mpr ⟨fun c hc => ?_, ih hp⟩
      obtain rfl | hc := mem_planInsert.mp hc
      · exact hle
      · exact hb c hc
    · next hlt =>
      refine List.pairwise_cons.mpr ⟨fun c hc => ?_, h⟩
      obtain rfl | hc := List.mem_cons.mp hc
      · exact (not_le.mp hlt).le
      · exact (not_le.mp hlt).le.trans (hb c hc)

@[simp] theorem length_planInsert (a : Action) (p : List Action) : (planInsert a p).length = p.length + 1 := by
  induction p with
  | nil => rfl
  | cons b p ih => unfold planInsert; split <;> simp [ih]

/-- An action inserted; one on a pedal is of a layer in replay. -/
theorem insertAction_orderly {event : Nat} {due : Int} {lead : Nat} {body : ActionBody}
    (h : (∃ p v, body = .pedal p v) → s.replays y) : Orderly F s (insertAction y event due lead body s) where
  order := pairwise_planInsert
  serials hs := by
    obtain ⟨hnodup, hlt⟩ := hs
    refine ⟨nodup_planInsert hnodup fun hmem => ?_, fun b hb => ?_⟩
    · obtain ⟨b, hb, hserial⟩ := List.mem_map.mp hmem
      exact absurd hserial (hlt b hb).ne
    · obtain rfl | hb := mem_planInsert.mp hb
      · exact Nat.lt_succ_self _
      · exact (hlt b hb).trans (Nat.lt_succ_self _)
  demands hs := by
    rw [demandsOnlyInReplay_iff] at hs ⊢
    refine ⟨hs.1, fun b hb hp => ?_⟩
    obtain rfl | hb := mem_planInsert.mp hb
    · exact h hp
    · exact hs.2 b hb hp
  keys := id
  slots := id
  blocked _ := .inl

theorem setMemory_upholds (k : Key) (m : Option KeyMemory) (s : State) : Upholds F s (setMemory k m s) := .unmoved rfl

theorem insertRelease_orderly (y : LayerId) (k : Key) (event : Nat) (auto : Option AutoFlag) (s : State) :
    Orderly F s (insertRelease y k event auto s) := by
  have hinsert : Orderly F s (insertAction y event event 0 (.release k auto) s) := insertAction_orderly (by simp)
  unfold insertRelease
  dsimp only
  split
  · split
    · exact hinsert.trans (setMemory_upholds ..).toOrderly
    · exact hinsert
  · exact hinsert

theorem insertRelease_plan_length (y : LayerId) (k : Key) (event : Nat) (auto : Option AutoFlag) (s : State) :
    (insertRelease y k event auto s).sched.plan.length = s.sched.plan.length + 1 := by
  have hinsert : (insertAction y event event 0 (.release k auto) s).sched.plan.length = s.sched.plan.length + 1 :=
    length_planInsert ..
  unfold insertRelease
  dsimp only
  split
  · split
    · exact hinsert
    · exact hinsert
  · exact hinsert

theorem mergeOut_upholds (k : Key) (s : State) (a : Action) : Upholds F s (mergeOut k s a) := by
  unfold mergeOut
  dsimp only
  refine Upholds.trans ?_ (dropStrike_upholds ..)
  split
  · split
    · exact setMemory_upholds ..
    · exact .refl s
  · exact .refl s

theorem autoRelease_orderly (k : Key) (due : Int) (s : State) :
    Orderly F s (autoRelease k due s) ∧ (autoRelease k due s).sched.plan.length ≤ s.sched.plan.length + 1 := by
  unfold autoRelease
  split
  · exact ⟨insertRelease_orderly .., (insertRelease_plan_length ..).le⟩
  · exact ⟨.refl s, Nat.le_succ _⟩

/-- What a record handed on does: all but the places of the plan kept, and the plan longer by `n` actions at most. -/
structure HandsOn (F : Key → Prop) (n : Nat) (s t : State) : Prop extends Orderly F s t where
  length : t.sched.plan.length ≤ s.sched.plan.length + n

theorem addDrop_handsOn (e : DropEntry) (n : Nat) (s : State) : HandsOn F n s (addDrop e s) :=
  ⟨(addDrop_upholds e s).toOrderly, Nat.le_add_right ..⟩

theorem HandsOn.refl (n : Nat) (s : State) : HandsOn F n s s := ⟨.refl s, Nat.le_add_right ..⟩

theorem mergeOut_plan_length (k : Key) (s : State) (a : Action) :
    (mergeOut k s a).sched.plan.length ≤ s.sched.plan.length := by
  have hdrop (t : State) : (dropStrike .merge a t).sched.plan.length ≤ t.sched.plan.length :=
    (dropStrike_acts .merge a t).planLeft.length_le
  unfold mergeOut
  dsimp only
  refine (hdrop _).trans (le_of_eq ?_)
  split
  · split <;> rfl
  · rfl

theorem merged_plan_length (k : Key) (as : List Action) (s : State) :
    (as.foldl (mergeOut k) s).sched.plan.length ≤ s.sched.plan.length :=
  foldl_keeps (Q := fun t => t.sched.plan.length ≤ s.sched.plan.length)
    (fun t a _ ht => (mergeOut_plan_length k t a).trans ht) s le_rfl

/-- A STRIKE and its auto-release need two places (R109, R115). -/
theorem insertStrike_handsOn (y : LayerId) (k : Key) (event velocity rm : Nat) (sv : StrikeValues) (s : State) :
    HandsOn F 2 s (insertStrike y k event velocity rm sv s) := by
  unfold insertStrike
  dsimp only
  split
  · have hmerged : Upholds F s _ :=
      Upholds.foldl (fun s a => mergeOut_upholds k s a) (s.sched.plan.filter (conflicts y k event rm)) s
    have hlength := merged_plan_length k (s.sched.plan.filter (conflicts y k event rm)) s
    generalize (s.sched.plan.filter (conflicts y k event rm)).foldl (mergeOut k) s = u at hmerged hlength
    obtain ⟨hauto, hautoLength⟩ := autoRelease_orderly (F := F) k ((event : Int) - sv.lead) u
    generalize autoRelease k ((event : Int) - sv.lead) u = v at hauto hautoLength
    have hinsert : Orderly F v (insertAction y event ((event : Int) - sv.lead) sv.lead
        (.strike k velocity sv.demand sv.flight none) v) := insertAction_orderly (by simp)
    refine ⟨((hmerged.toOrderly.trans hauto).trans hinsert).trans (setMemory_upholds ..).toOrderly, ?_⟩
    have hplan := length_planInsert
      ⟨v.sched.nextSerial, y, event, (event : Int) - sv.lead, sv.lead, .strike k velocity sv.demand sv.flight none⟩ v.sched.plan
    exact hplan.le.trans (by omega)
  · exact addDrop_handsOn ..

theorem HandsOn.setMemory {n : Nat} (h : HandsOn F n s t) (k : Key) (m : Option KeyMemory) :
    HandsOn F n s (setMemory k m t) := ⟨h.toOrderly.trans (setMemory_upholds ..).toOrderly, h.length⟩

theorem insertAction_handsOn {event : Nat} {due : Int} {lead : Nat} {body : ActionBody}
    (h : (∃ p v, body = .pedal p v) → s.replays y) : HandsOn F 1 s (insertAction y event due lead body s) :=
  ⟨insertAction_orderly h, (length_planInsert ..).le⟩

theorem insertRelease_handsOn (y : LayerId) (k : Key) (event : Nat) (auto : Option AutoFlag) (s : State) :
    HandsOn F 1 s (insertRelease y k event auto s) := ⟨insertRelease_orderly .., (insertRelease_plan_length ..).le⟩

theorem HandsOn.mono {m n : Nat} (h : HandsOn F m s t) (hn : m ≤ n) : HandsOn F n s t :=
  ⟨h.toOrderly, h.length.trans (Nat.add_le_add_left hn _)⟩

theorem handKeyRecord_handsOn {n : Nat} (y : LayerId) {r : Record} (k : Key) (s : State) (hn : 1 ≤ n)
    (hstrike : r.kind.toNat = kindStrike → 2 ≤ n) : HandsOn F n s (handKeyRecord y r k s) := by
  unfold handKeyRecord
  dsimp only
  split
  · exact addDrop_handsOn ..
  · split
    · next hkind =>
      split
      · exact (insertStrike_handsOn ..).mono (hstrike hkind)
      · exact addDrop_handsOn ..
    · split
      · split
        · exact ((insertAction_handsOn (by simp)).mono hn).setMemory ..
        · exact addDrop_handsOn ..
      · exact (insertRelease_handsOn ..).mono hn

theorem handPedalRecord_handsOn {n : Nat} {r : Record} {p : Pedal} (h : s.replays y) (hn : 1 ≤ n) :
    HandsOn F n s (handPedalRecord y r p s) := by
  unfold handPedalRecord
  dsimp only
  split
  · exact addDrop_handsOn ..
  · split
    · exact (insertAction_handsOn fun _ => h).mono hn
    · exact addDrop_handsOn ..

theorem handWindow_handsOn {n : Nat} (y : LayerId) {r : Record} (s : State) (hn : 1 ≤ n)
    (hstrike : r.kind.toNat = kindStrike → 2 ≤ n) : HandsOn F n s (handWindow y r s) := by
  unfold handWindow
  dsimp only
  split
  · exact .refl ..
  · split
    · exact .refl ..
    · split
      · exact handKeyRecord_handsOn _ _ _ hn hstrike
      · exact addDrop_handsOn ..

/-- The end releases need a place for every key the layer holds (R109, R116). -/
theorem handEnd_handsOn (y : LayerId) (r : Record) (s : State) : HandsOn F (s.keysHeld y).length s (handEnd y r s) := by
  have hreleases (time : Nat) : ∀ (ks : List Key) (t : State),
      HandsOn F ks.length t (ks.foldl (fun t k => insertRelease y k time (some .ending) t) t) := by
    intro ks
    induction ks with
    | nil => exact fun t => .refl ..
    | cons k ks ih =>
      intro t
      have hnext := ih (insertRelease y k time (some .ending) t)
      refine ⟨(insertRelease_orderly ..).trans hnext.toOrderly, hnext.length.trans ?_⟩
      rw [insertRelease_plan_length, List.length_cons]
      omega
  have hfetched : Upholds F s (s.setLayer y { (s.layer y) with endFetched := true }) := .setLayer_same rfl rfl
  have hheld := hreleases (clampInt 0 Config.clockLimit (eventTime ((s.layer y).origin.getD 0) r.time.toNat
    ((s.layer y).cue.getD 0) (s.layer y).latched.timeOffset)).toNat (s.keysHeld y)
    (s.setLayer y { (s.layer y) with endFetched := true })
  refine ⟨hfetched.toOrderly.trans hheld.toOrderly, hheld.length.trans ?_⟩
  rw [setLayer_sched]

theorem recordNeed_strike {r : Record} (h : r.kind.toNat = kindStrike) : recordNeed y r s = 2 := if_pos h

theorem recordNeed_end {r : Record} (h : r.kind.toNat = kindEnd) : recordNeed y r s = max 1 (s.keysHeld y).length := by
  rw [recordNeed, if_neg (by rw [h]; decide), if_pos h]

theorem recordNeed_pos (y : LayerId) (r : Record) (s : State) : 1 ≤ recordNeed y r s := by
  unfold recordNeed
  split
  · exact one_le_two
  · split
    · exact le_max_left ..
    · exact le_rfl

theorem handRecord_handsOn {r : Record} (h : s.replays y) : HandsOn F (recordNeed y r s) s (handRecord y r s) := by
  unfold handRecord
  split
  · next hend => exact (handEnd_handsOn ..).mono (by rw [recordNeed_end hend]; exact le_max_right ..)
  · split
    · split
      · split
        · exact handPedalRecord_handsOn h (recordNeed_pos ..)
        · exact .refl ..
      · exact .refl ..
    · split
      · exact handWindow_handsOn y s (recordNeed_pos ..) fun hkind => (recordNeed_strike hkind).ge
      · exact .refl ..

/-! ### Takings (R109 to R111) -/

theorem refill_upholds (y : LayerId) (s : State) : Upholds F s (refill y s) := by
  unfold refill
  dsimp only
  split
  · split
    · exact .setLayer_same rfl rfl
    · exact .refl s
  · exact .refl s

theorem popRing_upholds (y : LayerId) (s : State) : Upholds F s (popRing y s) := by
  unfold popRing
  dsimp only
  split
  · split
    · exact (Upholds.raise ..).after (.setLayer_same rfl rfl)
    · exact .setLayer_same rfl rfl
  · exact (refill_upholds ..).after (.setLayer_same rfl rfl)

/-- A ready record is one of a layer in replay under a RUNNING clock, with room for what it becomes (R109). -/
theorem ready_of_readyRecord {r : Record} {time : Int} (h : readyRecord y s = some (r, time)) :
    s.replays y ∧ s.clk.state = .running ∧ s.sched.plan.length + recordNeed y r s ≤ Config.planPlaces := by
  unfold readyRecord at h
  dsimp only at h
  split at h
  · cases h
  · split at h
    · next hready =>
      cases h
      obtain ⟨hreplays, -, hrunning, -, hroom⟩ := hready
      exact ⟨hreplays, of_decide_eq_true hrunning, hroom⟩
    · cases h

theorem ready_of_nextTaking {r : Record} (h : nextTaking s = some (y, r)) :
    s.replays y ∧ s.clk.state = .running ∧ s.sched.plan.length + recordNeed y r s ≤ Config.planPlaces := by
  unfold nextTaking at h
  split at h
  · cases h
  · next h0 _ => cases h; exact ready_of_readyRecord h0
  · next _ h1 => cases h; exact ready_of_readyRecord h1
  · next h0 h1 =>
    split at h
    · cases h; exact ready_of_readyRecord h1
    · cases h; exact ready_of_readyRecord h0

theorem keysHeld_of_frame (hs : t.sched = s.sched) (hd : t.drive = s.drive) (hc : t.clk = s.clk) :
    t.keysHeld y = s.keysHeld y := by
  have hholder (k : Key) : t.holder k = s.holder k := by unfold State.holder State.driveKey; rw [hs, hd, hc]
  exact List.filter_congr fun k _ => by unfold State.heldBy; rw [hholder]

theorem recordNeed_popRing (y : LayerId) (r : Record) (s : State) : recordNeed y r (popRing y s) = recordNeed y r s := by
  obtain ⟨-, -, hsched, hdrive⟩ := popRing_frame y s
  unfold recordNeed
  rw [keysHeld_of_frame hsched hdrive (popRing_keeps ..).clk]

theorem popRing_replays (y : LayerId) (s : State) : (popRing y s).replays y ↔ s.replays y := by
  have hstate : ((popRing y s).layer y).state = (s.layer y).state := by
    have hrefill (t : State) : ((refill y t).layer y).state = (t.layer y).state := by
      unfold refill
      dsimp only
      split
      · split
        · rw [layer_setLayer_same]
        · rfl
      · rfl
    unfold popRing
    dsimp only
    split
    · split
      · rw [raise_layer, layer_setLayer_same]
      · rw [layer_setLayer_same]
    · rw [hrefill, layer_setLayer_same]
  rw [State.replays, State.replays, hstate]

/-- A record taken finds the places it needs, so the plan stays within its own (R107, R109). -/
theorem takeRecord_upholds {r : Record} (h : nextTaking s = some (y, r)) : Upholds F s (takeRecord y r s) := by
  obtain ⟨hreplays, hrunning, hroom⟩ := ready_of_nextTaking h
  obtain ⟨-, -, hsched, -⟩ := popRing_frame y s
  have hpop : Upholds F s (popRing y s) := popRing_upholds ..
  have hhands := handRecord_handsOn (F := F) (r := r) ((popRing_replays y s).mpr hreplays)
  have hclk : (handRecord y r (popRing y s)).clk = s.clk := ((popRing_keeps ..).trans (handRecord_keeps ..)).clk
  have hhanded : Upholds F s (handRecord y r (popRing y s)) :=
    ⟨hpop.toOrderly.trans hhands.toOrderly, fun hplaces => by
      refine ⟨?_, fun hstopped => ?_⟩
      · have hlength := hhands.length
        rw [recordNeed_popRing, hsched] at hlength
        exact hlength.trans hroom
      · rw [hclk, hrunning] at hstopped
        cases hstopped⟩
  unfold takeRecord processInserted
  refine Upholds.trans ?_ (endIfDone_upholds ..)
  split
  · exact hhanded.trans (processDue_upholds ..)
  · exact hhanded

theorem takeAll_upholds (s : State) : Upholds F s (takeAll s) := by
  have hloop : ∀ (fuel : Nat) (s : State), Upholds F s (takeLoop fuel s) := by
    intro fuel
    induction fuel with
    | zero => exact .refl
    | succ n ih =>
      intro s
      unfold takeLoop
      split
      · exact .refl s
      · next h => exact (takeRecord_upholds h).trans (ih _)
  exact hloop _ s

end

end Sys2Proof.Machine
end

section
/-! SUPPORT. The capture unit's, the layers' and the drive unit's own operations uphold the properties of the plan, the demands and
the keys. -/

namespace Sys2Proof.Machine

section
variable {F : Key → Prop} {s t : State} {y : LayerId}

/-! ### The capture unit -/

theorem captureWrite_upholds (kind target value time : Nat) (s : State) : Upholds F s (captureWrite kind target value time s) :=
  (captureWrite_only ..).upholds

theorem setCapKey_upholds (s : State) (k : Key) (c : CapKey) : Upholds F s (s.setCapKey k c) := .unmoved rfl

theorem captureRelease_upholds (k : Key) (s : State) : Upholds F s (captureRelease k s) := by
  unfold captureRelease
  split
  · exact (captureWrite_upholds ..).after (setCapKey_upholds ..)
  · exact .refl s

theorem captureGate1_upholds (k : Key) (s : State) : Upholds F s (captureGate1 k s) := by
  unfold captureGate1
  dsimp only
  split <;> exact setCapKey_upholds ..

theorem captureGate2_upholds (k : Key) (s : State) : Upholds F s (captureGate2 k s) := by
  unfold captureGate2
  dsimp only
  split
  · exact (captureWrite_upholds ..).after (setCapKey_upholds ..)
  · exact .refl s

theorem captureWindowEnd_upholds (k : Key) (s : State) : Upholds F s (captureWindowEnd k s) := by
  unfold captureWindowEnd
  dsimp only
  split
  · exact setCapKey_upholds ..
  · split
    · split
      · split
        · exact setCapKey_upholds ..
        · exact (captureWrite_upholds ..).after (setCapKey_upholds ..)
      · split
        · exact setCapKey_upholds ..
        · split
          · exact (captureRelease_upholds ..).after (setCapKey_upholds ..)
          · exact setCapKey_upholds ..
    · exact setCapKey_upholds ..

theorem stopCapture_upholds (s : State) : Upholds F s (stopCapture s) := by
  rw [stopCapture_only s]
  exact .unmoved rfl

theorem answerCaptureStart_upholds (r : PedalReadings) (s : State) : Upholds F s (answerCaptureStart r s).state := by
  unfold answerCaptureStart
  split
  · exact .refl s
  · split
    · exact .refl s
    · dsimp only
      split
      · exact (captureFrame_only ..).upholds.after (.unmoved rfl)
      · exact .unmoved rfl

theorem answerCaptureStop_upholds (s : State) : Upholds F s (answerCaptureStop s).state := by
  unfold answerCaptureStop
  split
  · exact .refl s
  · exact stopCapture_upholds s
  · exact stopCapture_upholds s

theorem answerCaptureSet_upholds (r p d : Word16) (db : Byte) (s : State) :
    Upholds F s (answerCaptureSet r p d db s).state := by
  unfold answerCaptureSet
  split
  · exact .unmoved rfl
  · exact .refl s

/-! ### The take store -/

theorem answerTakeOpen_upholds (l : Link) (s : State) : Upholds F s (answerTakeOpen l s).state := by
  unfold answerTakeOpen
  split
  · exact .refl s
  · exact .unmoved rfl

theorem answerAppend_upholds (l : Link) (take : Byte) (rs : List Record) (s : State) :
    Upholds F s (answerAppend l take rs s).state := by
  unfold answerAppend
  split
  · exact .refl s
  · exact .unmoved rfl

theorem answerClose_upholds (l : Link) (take : Byte) (e : Word32) (s : State) :
    Upholds F s (answerClose l take e s).state := by
  unfold answerClose
  split
  · exact .refl s
  · split
    · exact .refl s
    · exact .unmoved rfl

theorem answerErase_upholds (take : Byte) (s : State) : Upholds F s (answerErase take s).state := by
  unfold answerErase
  split
  · exact .refl s
  · dsimp only
    split
    · exact .refl s
    · exact .refl s
    · split
      · exact .refl s
      · exact .unmoved rfl

/-! ### The layers (R70) -/

/-- A layer put, or left, in replay. -/
theorem Upholds.setLayer_replaying {l : Layer} (hl : l.state = .cued ∨ l.state = .playing) :
    Upholds F s (s.setLayer y l) := by
  refine (OutputsOnly.setLayer s y l).upholds fun hs => ?_
  have hreplays (z : LayerId) (hz : z = y ∨ s.replays z) : (s.setLayer y l).replays z := by
    unfold State.replays
    by_cases h : z = y
    · subst h; rw [layer_setLayer_same]; exact hl
    · rw [layer_setLayer_other _ _ h]; exact hz.resolve_left h
  rw [demandsOnlyInReplay_iff] at hs ⊢
  refine ⟨fun z p hp => hreplays z ?_, fun a ha hp => hreplays _ (.inr (hs.2 a (by rwa [setLayer_sched] at ha) hp))⟩
  by_cases h : z = y
  · exact .inl h
  · rw [layer_setLayer_other _ _ h] at hp
    exact .inr (hs.1 z p hp)

/-- A layer out of replay replaced by one with no demand: the plan holds no PEDAL action of it. -/
theorem Upholds.setLayer_idle {l : Layer} (hy : ¬ s.replays y) (hl : ∀ p, bankGet l.demands p = none) :
    Upholds F s (s.setLayer y l) :=
  (OutputsOnly.setLayer s y l).upholds fun hs =>
    demandsOnlyInReplay_of_left (y := y) hs (setLayer_sched ..) (fun z hz => layer_setLayer_other _ _ hz)
      (fun p => by rw [layer_setLayer_same]; exact hl p)
      fun a ha hp e => hy (e ▸ (demandsOnlyInReplay_iff.mp hs).2 a ha hp)

theorem latch_upholds (y : LayerId) (s : State) : Upholds F s (latch y s) := by
  unfold latch
  split
  · exact .refl s
  · refine Upholds.after (.foldl (fun s p => ?_) _ _) (.setLayer_same rfl rfl)
    split
    · exact .refl s
    · exact setDemand_upholds fun _ h => Bool.noConfusion h

theorem latchBoth_upholds (s : State) : Upholds F s (latchBoth s) := (latch_upholds ..).trans (latch_upholds ..)

/-- The chased values become demands of a layer that is PLAYING by then (R82). -/
theorem enterPlaying_upholds (y : LayerId) (s : State) : Upholds F s (enterPlaying y s) := by
  unfold enterPlaying
  dsimp only
  split
  · split
    · generalize hplaying : s.setLayer y { (s.layer y) with state := .playing, chase := Vector.replicate 3 none } = s1
      have hset : Upholds F s s1 := hplaying ▸ .setLayer_replaying (.inr rfl)
      have hreplays : s1.replays y := by rw [← hplaying, State.replays, layer_setLayer_same]; exact .inr rfl
      refine (hset.trans ?_).trans (endIfDone_upholds ..)
      refine (foldl_keeps (Q := fun t => Upholds F s1 t ∧ t.replays y) (fun t p _ ht => ?_) s1 ⟨.refl s1, hreplays⟩).1
      split
      · split
        · exact ⟨ht.1.trans (setDemand_upholds fun _ _ => ht.2), (setDemand_replays ..).mpr ht.2⟩
        · exact ht
      · exact ht
    · exact .refl s
  · exact .refl s

theorem answerLayerBind_upholds (link : Link) (layer source take : Byte) (s : State) :
    Upholds F s (answerLayerBind link layer source take s).state := by
  have hbind (y : LayerId) (l : Layer) (hfree : ¬ (s.layer y).state ≠ .free) (hl : ∀ p, bankGet l.demands p = none)
      (store : Store) : Upholds F s (State.setLayer { s with store := store } y l) := by
    have hidle : ¬ State.replays { s with store := store } y := by
      have hlayer : State.layer { s with store := store } y = s.layer y := layer_eq_of_fields rfl rfl y
      rw [State.replays, hlayer, not_not.mp hfree]
      exact fun h => h.elim nofun nofun
    exact (Upholds.setLayer_idle hidle hl).after (.unmoved rfl)
  unfold answerLayerBind
  split
  · exact .refl s
  · next y _ =>
    dsimp only
    split
    · exact .refl s
    · split
      · exact .refl s
      · split
        · exact .refl s
        · next hfree =>
          split
          · exact hbind y _ hfree (fun p => bankGet_replicate ..) s.store
          · split
            · exact .refl s
            · split
              · exact .refl s
              · exact .refl s
              · exact (hbind y _ hfree (fun p => bankGet_replicate ..) _).trans (refill_upholds ..)

theorem answerLayerMarks_upholds (layer low high : Byte) (s : State) :
    Upholds F s (answerLayerMarks layer low high s).state := by
  unfold answerLayerMarks
  split
  · exact .refl s
  · exact (refill_upholds ..).after (.setLayer_same rfl rfl)

theorem feedAll_upholds (y : LayerId) (link : Link) (rs : List Record) (n : Nat) (s : State) :
    Upholds F s (feedAll y link rs n s).2 := by
  have hjoin (r : Record) (s : State) : Upholds F s (joinRing y link r s) := by
    unfold joinRing
    dsimp only
    split
    · exact (Upholds.raise ..).after (.setLayer_same rfl rfl)
    · exact .setLayer_same rfl rfl
  induction rs generalizing n s with
  | nil => exact .refl s
  | cons r rs ih =>
    unfold feedAll
    dsimp only
    split
    · exact .refl s
    · split
      · exact .refl s
      · split
        · exact .refl s
        · split
          · exact .refl s
          · exact (hjoin r s).trans (ih ..)

theorem answerLayerFeed_upholds (link : Link) (layer : Byte) (rs : List Record) (s : State) :
    Upholds F s (answerLayerFeed link layer rs s).state := by
  unfold answerLayerFeed
  split
  · exact .refl s
  · split
    · exact .refl s
    · exact .refl s
    · split
      · exact feedAll_upholds ..
      · exact .refl s
    · exact .refl s

theorem answerLayerSet_upholds (layer : Byte) (raw : RawSettings) (s : State) :
    Upholds F s (answerLayerSet layer raw s).state := by
  unfold answerLayerSet
  split
  · dsimp only
    split
    · exact .setLayer_same rfl rfl
    · exact (latch_upholds ..).after (.setLayer_same rfl rfl)
  · exact .refl s

theorem cueTake_upholds (y : LayerId) (n : TakeNo) (c o : Nat) (s : State) : Upholds F s (cueTake y n c o s) :=
  (refill_upholds ..).after (.setLayer_replaying (.inl rfl))

theorem cueStream_upholds (y : LayerId) (o : Nat) (s : State) : Upholds F s (cueStream y o s) :=
  .setLayer_replaying (.inl rfl)

theorem answerLayerCue_upholds (layer ck : Byte) (cv : Word32) (ek : Byte) (et : Word32) (s : State) :
    Upholds F s (answerLayerCue layer ck cv ek et s).state := by
  unfold answerLayerCue
  split
  · dsimp only
    split
    · exact .refl s
    · split
      · exact .refl s
      · split
        · exact .refl s
        · split
          · exact .refl s
          · split
            · exact .refl s
            · split
              · split
                · exact .refl s
                · exact (cueTake_upholds ..).trans (enterPlaying_upholds ..)
              · exact (cueStream_upholds ..).trans (enterPlaying_upholds ..)
  · exact .refl s

theorem thenTake_upholds {a : Answer} (h : Upholds F s a.state) : Upholds F s a.thenTake.state := by
  unfold Answer.thenTake
  split
  · exact h
  · exact h.trans (takeAll_upholds _)

/-! ### The plan emptied (R125 to R128) -/

theorem clearPlan_upholds (s : State) : Upholds F s (clearPlan s) :=
  .of_filter (p := fun _ => false) (List.filter_false _).symm rfl rfl (layer_eq_of_fields rfl rfl) rfl rfl

theorem freePlan_upholds (y : LayerId) (s : State) : Upholds F s (freePlan y s) :=
  .of_filter rfl rfl rfl (layer_eq_of_fields rfl rfl) rfl rfl

/-- A layer released with none of its actions in the plan (R88, R127). -/
theorem releaseLayer_upholds (h : ∀ a ∈ s.sched.plan, a.layer ≠ y) : Upholds F s (releaseLayer y s) := by
  have hreleased := released_releaseLayer y s
  refine .of_layers (by rw [hreleased.sched]) (by rw [hreleased.sched]) (by rw [hreleased.clk]) hreleased.keys
    (by rw [hreleased.rest]) fun hs => ?_
  refine demandsOnlyInReplay_of_left (y := y) hs hreleased.sched hreleased.other (fun p => ?_) fun a ha _ => h a ha
  rw [hreleased.layer]
  exact bankGet_replicate ..

theorem answerLayerFree_upholds (layer : Byte) (s : State) : Upholds F s (answerLayerFree layer s).state := by
  unfold answerLayerFree
  split
  · exact .refl s
  · next y _ =>
    split
    · exact .refl s
    · have hgone : Apart y (s.layer y) (DriveKeysSound s) (letGoReported (fun d => d.owner = some y) (freePlan y s)) :=
        (apart_givenUp y s).respond
      exact (((freePlan_upholds y s).trans (letGoReported_upholds ..)).trans (releaseLayer_upholds hgone.plan)).trans
        (takeAll_upholds _)

theorem answerPlanSet_upholds (late rise : Word16) (s : State) : Upholds F s (answerPlanSet late rise s).state := .unmoved rfl

/-- ALL OFF sets a demand to 0 where there is one (R86). -/
theorem answerAllOff_upholds (s : State) : Upholds F s (answerAllOff s).state := by
  have hzero (y : LayerId) (s : State) : Upholds F s
      (allPedals.foldl (fun s p => if (bankGet (s.layer y).demands p).isSome then setDemand y p (some 0) s else s) s) := by
    refine .foldl (fun s p => ?_) _ _
    split
    · next h => exact setDemand_upholds fun hs _ => (demandsOnlyInReplay_iff.mp hs).1 y p h
    · exact .refl s
  have hend (b : Bool) (y : LayerId) (s : State) : Upholds F s (if b then endIfDone y s else s) := by
    split
    · exact endIfDone_upholds ..
    · exact .refl s
  exact ((((clearPlan_upholds s).trans (letGoReported_upholds ..)).trans ((hzero .l0 _).trans (hzero .l1 _))).trans
    (hend ..)).trans (hend ..)

/-! ### The drive unit -/

theorem judgeSag_upholds (s : State) : Upholds F s (judgeSag s) := by
  unfold judgeSag
  dsimp only
  split
  · split <;> exact .unmoved rfl
  · exact .refl s

theorem quietIfAtRest_upholds (s : State) : Upholds F s (quietIfAtRest s) := by
  unfold quietIfAtRest
  split
  · exact .unmoved rfl
  · exact .refl s

theorem enterActive_upholds (s : State) : Upholds F s (enterActive s) := by
  have hpower : Upholds F s s.activated := .unmoved rfl
  exact (hpower.trans (judgeSag_upholds _)).trans (.foldl (fun s p => drivePedal_upholds p s) _ _)

/-- A key returned to REST, from BLOCKED where `F` names it (R139, R140). -/
theorem settleRest_upholds {k : Key} (h : (s.driveKey k).state = .blocked → F k) : Upholds F s (settleRest k s) := by
  unfold settleRest
  dsimp only
  have hrest : Upholds F s (quietIfAtRest (enterRest k s)) := (enterRest_upholds h).trans (quietIfAtRest_upholds _)
  split
  · exact hrest.trans (reportKey_upholds ..)
  · exact hrest.trans (reportSupply_upholds _)

theorem mem_keysOf {ks : BitVec 88} {k : Key} : k ∈ keysOf ks ↔ inKeySet ks k = true := by
  rw [keysOf, List.mem_filter]
  exact and_iff_right (List.mem_finRange k)

/-- KEYS CLEAR returns the keys it names alone (R140). -/
theorem answerKeysClear_upholds (keys : BitVec 88) (s : State) :
    Upholds (fun k => inKeySet keys k = true) s (answerKeysClear keys s).state := by
  refine Upholds.trans ?_ (takeAll_upholds _)
  refine foldl_keeps (Q := Upholds _ s) (fun t k hk ht => ht.trans (settleRest_upholds fun _ => ?_)) s (.refl s)
  exact mem_keysOf.mp (List.mem_filter.mp hk).1

theorem answerQuietEnter_upholds (s : State) : Upholds F s (answerQuietEnter s).state := by
  have hpower : Upholds F s { s with drive := { s.drive with power := .quietPending, wakeAt := none } } := .unmoved rfl
  have hquiet : Upholds F s (goQuiet s) := (hpower.trans (letGoReported_upholds ..)).trans (quietIfAtRest_upholds _)
  unfold answerQuietEnter
  split
  · exact .refl s
  · dsimp only
    split
    · exact hquiet
    · exact hquiet
    · exact .refl s
    · exact .refl s

theorem answerQuietLeave_upholds (s : State) : Upholds F s (answerQuietLeave s).state := by
  unfold answerQuietLeave
  dsimp only
  split
  · exact ((reportSupply_upholds _).trans (takeAll_upholds _)).after (.unmoved rfl)
  · exact (enterActive_upholds s).trans ((reportSupply_upholds _).trans (takeAll_upholds _))
  · exact .refl s
  · exact .refl s

/-- The slot count changed within its range. -/
theorem Upholds.setDrive {d : Drive} (hk : d.keys = s.drive.keys) (hs : d.slots ≤ 16) : Upholds F s { s with drive := d } := by
  have hkeys : ({ s with drive := d } : State).drive.keys = s.drive.keys := hk
  refine .of_drive rfl rfl (layer_eq_of_fields rfl rfl) (fun h => ?_) (fun h => ⟨hs, ?_⟩) fun k h => .inl ?_
  · rw [driveKeysSound_iff] at h ⊢
    exact fun k => by rw [driveKey_of_keys hkeys]; exact h k
  · rw [slotsHeld_of_keys hkeys]; exact h.2
  · rw [driveKey_of_keys hkeys]; exact h

theorem clampNat_le {lo hi x : Nat} (h : lo ≤ hi) : clampNat lo hi x ≤ hi := by
  unfold clampNat
  split
  · exact h
  · split
    · exact le_rfl
    · omega

theorem answerDriveSet_upholds (n : Byte) (v : Word16) (p : Byte) (s : State) :
    Upholds F s (answerDriveSet n v p s).state := by
  have hset : Upholds F s (judgeSag { s with drive := { s.drive with
      slots := clampNat 4 16 n.toNat, vnom := clampNat 100 1000 v.toNat, sagPercent := clampNat 60 95 p.toNat } }) :=
    (judgeSag_upholds _).after (.setDrive rfl (clampNat_le (lo := 4) (hi := 16) (by decide)))
  unfold answerDriveSet
  dsimp only
  refine Upholds.trans ?_ (takeAll_upholds _)
  split
  · exact hset.trans (respond_upholds ..)
  · exact hset.trans ((arbiter_upholds _).trans (reportSupply_upholds _))

/-- Every key's record replaced by one in its state, or let go. -/
theorem Upholds.mapKeys {f : Key → DriveKey → DriveKey} (ht : t = { s with drive := { s.drive with keys := t.drive.keys } })
    (hf : ∀ k, t.driveKey k = f k (s.driveKey k)) (h : ∀ k, MayBecome F s k (f k (s.driveKey k)))
    (hslot : ∀ k, (f k (s.driveKey k)).state.holdsSlot = true → (s.driveKey k).state.holdsSlot = true) : Upholds F s t := by
  refine .of_drive (by rw [ht]) (by rw [ht]) (fun z => by rw [ht]; exact layer_eq_of_fields rfl rfl z) (fun hs => ?_)
    (fun hs => ⟨by rw [ht]; exact hs.1, le_trans ?_ hs.2⟩) fun k hk => ?_
  · rw [driveKeysSound_iff] at hs ⊢
    intro k
    rw [hf]
    exact (h k).sound (hs k)
  · refine (((List.nodup_finRange 88).filter _).subperm fun j hj => ?_).length_le
    obtain ⟨hmem, hj⟩ := List.mem_filter.mp hj
    rw [hf] at hj
    exact List.mem_filter.mpr ⟨hmem, hslot j hj⟩
  · rw [hf]
    exact (h k).blocked hk

theorem heatAfterPeriod_le (heat applied : Nat) : heatAfterPeriod heat applied ≤ 65535 := min_le_left ..

theorem heatPeriod_upholds (s : State) : Upholds F s (heatPeriod s) :=
  .mapKeys (f := fun _ d => d.period) rfl (fun _ => bankGet_bankMap ..)
    (fun _ => .of_same rfl rfl rfl fun _ => heatAfterPeriod_le ..) fun _ => id

theorem dropLastFires_driveKey (s : State) (k : Key) :
    (dropLastFires s).driveKey k = { (s.driveKey k) with lastFire := none } := by
  rw [State.driveKey, dropLastFires, bankGet_bankMap]
  rfl

theorem dropLastFires_upholds (s : State) : Upholds F s (dropLastFires s) :=
  .mapKeys (f := fun _ d => { d with lastFire := none }) rfl (dropLastFires_driveKey s)
    (fun k => .of_same (d := { (s.driveKey k) with lastFire := none }) rfl rfl rfl fun h => h) fun _ h => h

end

end Sys2Proof.Machine
end

section
/-! SUPPORT. The run controller's, the events' and the clock's operations and the resets uphold the properties of the plan, the
demands and the keys; a run takes the keys of its own set out of BLOCKED alone. -/

namespace Sys2Proof.Machine

section
variable {F : Key → Prop} {s t : State} {y : LayerId}

/-! ### The run controller (R151 to R162) -/

/-- The keys of the run's key set are among those that may leave BLOCKED. -/
def RunFrees (F : Key → Prop) (s : State) : Prop := ∀ k, inKeySet s.run.keys k = true → F k

theorem finishRun_upholds (s : State) : Upholds F s (finishRun s) := by
  unfold finishRun
  dsimp only
  split <;> exact .unmoved rfl

theorem writeResult_upholds (k : Key) (r : RunResult) (f : KeyEntry → KeyEntry) (s : State) :
    Upholds F s (writeResult k r f s) := .unmoved rfl

theorem beginRest_upholds (s : State) : Upholds F s (beginRest s) := .setRun ..

/-- A key of the set is taken from BLOCKED to REST (R141, R151). -/
theorem freeForRun_upholds {k : Key} (h : F k) : Upholds F s (freeForRun k s) := by
  unfold freeForRun
  split
  · exact enterRest_upholds fun _ => h
  · exact .refl s

theorem workBelow_upholds (n : Nat) (hF : RunFrees F s) : Upholds F s (workBelow n s) := by
  induction n generalizing s with
  | zero => exact finishRun_upholds s
  | succ n ih =>
    unfold workBelow
    split
    · exact ih hF
    · next k _ =>
      split
      · next hk =>
        dsimp only
        have hcopied : Upholds F s (copyKey k s) := .setRun ..
        have htaken := hcopied.trans (freeForRun_upholds (hF k hk))
        have hrun : (freeForRun k (copyKey k s)).run = (copyKey k s).run := (freeForRun_keeps ..).run
        generalize freeForRun k (copyKey k s) = s1 at htaken hrun
        have hF1 : RunFrees F s1 := fun j hj => hF j (by rw [hrun] at hj; exact hj)
        split
        · have hwritten := htaken.trans (writeResult_upholds k .noStrike id s1)
          split
          · exact hwritten.trans (finishRun_upholds _)
          · exact hwritten.trans (ih (s := writeResult k .noStrike id s1) hF1)
        · exact (htaken.trans (.setRun ..)).trans (beginRest_upholds _)
      · exact ih hF

theorem endKey_upholds (k : Key) (r : RunResult) (f : KeyEntry → KeyEntry) (hF : RunFrees F s) :
    Upholds F s (endKey k r f s) := by
  unfold endKey
  dsimp only
  split
  · exact (writeResult_upholds k r f s).trans (finishRun_upholds _)
  · exact (writeResult_upholds k r f s).trans (workBelow_upholds (s := writeResult k r f s) _ hF)

theorem searchNext_upholds (k : Key) (level : Nat) (hF : RunFrees F s) : Upholds F s (searchNext k level s) := by
  unfold searchNext
  split
  · exact endKey_upholds k _ _ hF
  · exact (beginRest_upholds _).after (.setRun ..)

/-- What the search does once it has noted a level. -/
theorem Upholds.noted {op : State → State} {r : RunController} (hr : r.keys = s.run.keys)
    (h : ∀ t, RunFrees F t → Upholds F t (op t)) (hF : RunFrees F s) : Upholds F s (op (Machine.setRun r s)) :=
  (h (Machine.setRun r s) fun k hk => hF k (hr ▸ hk)).after (.setRun ..)

theorem searchFine_upholds (k : Key) (level : Nat) (hF : RunFrees F s) : Upholds F s (searchFine k level s) := by
  unfold searchFine
  dsimp only
  split
  · split
    · exact .noted rfl (fun _ g => endKey_upholds k _ _ g) hF
    · exact .noted rfl (fun _ g => searchNext_upholds k _ g) hF
  · exact .noted rfl (fun _ g => searchNext_upholds k _ g) hF

theorem searchHit_upholds (k : Key) (hF : RunFrees F s) : Upholds F s (searchHit k s) := by
  unfold searchHit
  dsimp only
  split
  · exact endKey_upholds k _ _ hF
  · split
    · exact .noted rfl (fun _ g => searchNext_upholds k _ g) hF
    · exact .noted rfl (fun _ g => searchNext_upholds k _ g) hF
    · exact .noted rfl (fun _ g => searchFine_upholds k _ g) hF
    · exact endKey_upholds k _ _ hF

theorem searchMiss_upholds (k : Key) (hF : RunFrees F s) : Upholds F s (searchMiss k s) := by
  unfold searchMiss
  dsimp only
  split
  · exact .noted rfl (fun _ g => searchNext_upholds k _ g) hF
  · split
    · exact .noted rfl (fun _ g => endKey_upholds k _ _ g) hF
    · exact .noted rfl (fun _ g => searchNext_upholds k _ g) hF
  · exact .noted rfl (fun _ g => searchFine_upholds k _ g) hF
  · exact searchFine_upholds k _ hF

theorem proofNext_upholds (k : Key) (hF : RunFrees F s) : Upholds F s (proofNext k s) := by
  unfold proofNext
  split
  · unfold proofDone
    dsimp only
    split
    · exact endKey_upholds k _ _ hF
    · split
      · exact endKey_upholds k _ _ hF
      · split
        · exact endKey_upholds k _ _ hF
        · split <;> exact endKey_upholds k _ _ hF
  · exact beginRest_upholds s

theorem runHit_upholds (k : Key) (firedAt gate2At : Nat) (velocity : Option Nat)
    (hF : s.run.state = .running → RunFrees F s) : Upholds F s (runHit k firedAt gate2At velocity s) := by
  unfold runHit
  split
  · next h =>
    split
    · exact searchHit_upholds k (hF h.1)
    · split
      · exact .noted rfl (fun _ g => proofNext_upholds k g) (hF h.1)
      · exact proofNext_upholds k (hF h.1)
  · exact .refl s

theorem runMiss_upholds (k : Key) (hF : s.run.state = .running → RunFrees F s) : Upholds F s (runMiss k s) := by
  unfold runMiss
  split
  · next h =>
    split
    · exact searchMiss_upholds k (hF h.1)
    · exact proofNext_upholds k (hF h.1)
  · exact .refl s

/-- A pulse ends on a key that is not BLOCKED (R141). -/
theorem endPulse_upholds {k : Key} (h : (s.driveKey k).state ≠ .blocked) : Upholds F s (endPulse k s) :=
  (Upholds.putDriveKey (.lettingGo none fun e => absurd e h)).trans (respond_upholds ..)

theorem requestPulse_upholds (s : State) : Upholds F s (requestPulse s) := by
  have hask (b : Prop) [Decidable b] (k : Key) : Upholds F s (if b then
      setRun { s.run with wait := .pending }
        { s with drive := { s.drive with pulse := some { key := k, level := s.run.level } } } else s) := by
    split
    · exact .unmoved rfl
    · exact .refl s
  unfold requestPulse
  split
  · exact hask ..
  · exact .refl s

/-- A pending pulse fires on a key in REST and on a free slot (R141). -/
theorem firePending_upholds (s : State) : Upholds F s (firePending s) := by
  unfold firePending
  split
  · exact .refl s
  · next p _ =>
    dsimp only
    split
    · next h =>
      have htaken : Upholds F s { s with drive := { s.drive with pulse := none } } := .unmoved rfl
      have hfired := htaken.trans (firePulse_upholds (s := { s with drive := { s.drive with pulse := none } }) h.1 h.2.2.2 p.level)
      split
      · exact hfired.trans (.setRun ..)
      · exact hfired
    · exact .refl s

theorem restDeadlineReached_upholds (hF : s.run.state = .running → RunFrees F s) : Upholds F s (restDeadlineReached s) := by
  unfold restDeadlineReached
  split
  · next hrun _ _ =>
    split
    · exact endKey_upholds _ _ _ (hF hrun)
    · exact .refl s
  · exact .refl s

theorem runSample_upholds (k : Key) (p : KeyPos) (s : State) : Upholds F s (runSample k p s) := by
  unfold runSample
  split
  · exact .unmoved rfl
  · exact .refl s

theorem endStopping_upholds (k : Key) (s : State) : Upholds F s (endStopping k s) := by
  unfold endStopping
  split
  · exact finishRun_upholds s
  · exact .refl s

/-- A run that begins frees the keys it is given (R150, R151). -/
theorem answerCalRun_upholds (kind : Byte) (keys : BitVec 88) (stop : Byte) (v : Word16) (n : Byte) (s : State) :
    Upholds (fun k => inKeySet keys k = true) s (answerCalRun kind keys stop v n s).state := by
  have hwork (r : RunController) (hr : r.keys = keys) :
      Upholds (fun k => inKeySet keys k = true) s (workBelow 88 (setRun r s)) :=
    (workBelow_upholds (s := setRun r s) 88 fun k hk => by rw [← hr]; exact hk).after (.setRun ..)
  unfold answerCalRun
  split
  · exact .refl s
  · split
    · exact .refl s
    · split
      · exact .refl s
      · split
        · exact .refl s
        · split
          · exact .refl s
          · exact hwork _ rfl

theorem answerCalStop_upholds (s : State) : Upholds F s (answerCalStop s).state := by
  unfold answerCalStop
  split
  · exact .refl s
  · exact .refl s
  · exact finishRun_upholds s
  · next k _ _ =>
    dsimp only
    have hwithdrawn : Upholds F s (withdrawPulse k s) := by
      have hnone : Upholds F s { s with drive := { s.drive with pulse := none } } := .unmoved rfl
      unfold withdrawPulse
      dsimp only
      split
      · next hprobe =>
        have hkey : ((State.driveKey { s with drive := { s.drive with pulse := none } } k)).state = .probe := hprobe
        exact hnone.trans (endPulse_upholds (by rw [hkey]; decide))
      · exact hnone
    have hstopping := (hwithdrawn.trans (writeResult_upholds k .aborted id _)).trans
      (.setRun { (writeResult k .aborted id (withdrawPulse k s)).run with state := .stopping } _)
    split
    · exact hstopping
    · exact hstopping.trans (finishRun_upholds _)

/-! ### The map -/

theorem countPeriod_upholds (s : State) : Upholds F s (countPeriod s) := by
  unfold countPeriod
  split
  · exact .unmoved rfl
  · unfold integrityTest
    split <;> exact .unmoved rfl

theorem answerMapWrite_upholds (b : MapBody) (s : State) : Upholds F s (answerMapWrite b s).state := by
  unfold answerMapWrite
  split
  · split
    · exact .refl s
    · split
      · exact .refl s
      · split
        · exact .refl s
        · exact .unmoved rfl
  · split
    · exact .refl s
    · split
      · exact .refl s
      · exact .unmoved rfl
  · exact .refl s

theorem answerMapClear_upholds (s : State) : Upholds F s (answerMapClear s).state := by
  unfold answerMapClear
  split
  · exact .refl s
  · exact .unmoved rfl

/-! ### The events -/

theorem sampled_upholds (k : Key) (p : KeyPos) (threshold : Nat) (s : State) :
    Upholds F s (s.setDriveKey k ((s.driveKey k).sampled p threshold)) := .setDriveKey (.of_same rfl rfl rfl id)

theorem driveSample_upholds (k : Key) (p : KeyPos) (s : State) : Upholds F s (driveSample k p s) := by
  have hset := sampled_upholds (F := F) k p s.cap.repetition s
  unfold driveSample
  dsimp only
  split
  · next hletgo =>
    split
    · exact hset
    · refine (hset.trans (settleRest_upholds fun hblocked => ?_)).trans (endStopping_upholds ..)
      rw [driveKey_setDriveKey_same, sampled_state, hletgo] at hblocked
      cases hblocked
  · split
    · exact hset
    · exact hset.trans (reportKey_upholds ..)
  · exact hset

theorem keySample_upholds (rs : List (Key × KeyPos)) (s : State) : Upholds F s (keySample rs s) := by
  have hkey (s : State) (x : Key × KeyPos) : Upholds F s (sampleKey s x) :=
    ((captureSample_only ..).upholds.trans (driveSample_upholds ..)).trans (runSample_upholds ..)
  unfold keySample
  split
  · exact ((Upholds.foldl hkey rs _).trans (takeAll_upholds _)).after (.unmoved rfl)
  · exact .refl s

/-- The keys a run under way may take from BLOCKED in an event that answers one of its pulses. -/
def State.runTakes (s : State) (k : Key) : Prop := s.run.state = .running ∧ inKeySet s.run.keys k = true

theorem runFrees_runTakes (h : t.run = s.run) (hr : t.run.state = .running) : RunFrees s.runTakes t :=
  fun _ hk => ⟨h ▸ hr, h ▸ hk⟩

theorem takeEcho_upholds (k : Key) (v : Option Nat) (s : State) : Upholds s.runTakes s (takeEcho k v s) := by
  unfold takeEcho
  dsimp only
  split
  · next hstrike _ => exact (detect_upholds hstrike).trans ((respond_upholds ..).trans (takeAll_upholds _))
  · next hprobe _ =>
    exact (endPulse_upholds (by rw [hprobe]; decide)).trans
      (runHit_upholds _ _ _ _ fun hr => runFrees_runTakes (endPulse_keeps k s).run hr)
  · next hletgo _ => exact .setDriveKey (.unfired (by rw [hletgo]; decide))
  · next hblocked _ => exact .setDriveKey (.unfired (by rw [hblocked]; decide))
  · exact .refl s

theorem gate2_upholds (k : Key) (s : State) : Upholds s.runTakes s (gate2 k s) := by
  unfold gate2
  split
  · exact (takeEcho_upholds k _ (s.setCapKey k { (s.capKey k) with gate1At := none })).after (setCapKey_upholds ..)
  · exact captureGate2_upholds k s

theorem windowEnd_upholds (k : Key) (s : State) : Upholds F s (windowEnd k s) := by
  unfold windowEnd
  split
  · split
    · exact captureWindowEnd_upholds k s
    · exact .refl s
  · exact .refl s

theorem readSupply_upholds (v : SupplyReading) (s : State) : Upholds F s (readSupply v s) := by
  have hread : Upholds F s (judgeSag
      { s with
        wall := { s.wall with supply := s.wall.supply + Config.supplyMicros }
        drive := { s.drive with vmeas := v.val } }) := (judgeSag_upholds _).after (.unmoved rfl)
  unfold readSupply
  dsimp only
  split
  · split
    · exact hread
    · exact hread.trans ((reportSupply_upholds _).trans (takeAll_upholds _))
  · exact .refl s

theorem servicePeriodEnd_upholds (s : State) : Upholds F s (servicePeriodEnd s) := by
  have hheat : Upholds F s (heatPeriod { s with wall := { s.wall with service := s.wall.service + Config.serviceMicros } }) :=
    (heatPeriod_upholds _).after (.unmoved rfl)
  unfold servicePeriodEnd
  dsimp only
  split
  · split
    · exact hheat.trans (.unmoved rfl)
    · exact hheat.trans (countPeriod_upholds _)
  · exact .refl s

theorem integrityPeriod_upholds (s : State) : Upholds F s (integrityPeriod s) := by
  unfold integrityPeriod
  split
  · exact (countPeriod_upholds s).trans (.unmoved rfl)
  · exact .refl s

/-- A strike not seen is sustained under its owner (R135). -/
theorem missStrike_upholds {k : Key} (h : (s.driveKey k).state = .strike) (y : LayerId) (event velocity : Nat) :
    Upholds F s (missStrike k y event velocity s) := by
  have hstrike : ((addDrop (missedEntry k y event velocity) s).driveKey k).state = .strike := h
  have hput : Upholds F (addDrop (missedEntry k y event velocity) s)
      (putDriveKey k { ((addDrop (missedEntry k y event velocity) s).driveKey k) with
        state := .sustain, fire := none, sustain := none, reboundEnd := none }
        (addDrop (missedEntry k y event velocity) s)) :=
    .putDriveKey (.sustaining rfl rfl (owner_of_strike hstrike) (by rw [hstrike]; decide))
  exact (((addDrop_upholds ..).trans hput).trans (beginSustain_upholds ..)).trans
    ((respond_upholds ..).trans (takeAll_upholds _))

theorem strikeGrace_upholds (k : Key) (s : State) : Upholds F s (strikeGrace k s) := by
  unfold strikeGrace
  dsimp only
  split
  · split
    · split
      · next hstrike => exact missStrike_upholds hstrike ..
      · next hletgo => exact .setDriveKey (.unfired (by rw [hletgo]; decide))
      · next hblocked => exact .setDriveKey (.unfired (by rw [hblocked]; decide))
      · exact .refl s
    · exact .refl s
  · exact .refl s

theorem reboundOver_upholds (k : Key) (s : State) : Upholds F s (reboundOver k s) := by
  unfold reboundOver
  dsimp only
  split
  · split
    · exact beginSustain_upholds ..
    · exact .refl s
  · exact .refl s

/-- A key whose let-go window runs out is BLOCKED (R139). -/
theorem MayBecome.blocking {k : Key} (h : (s.driveKey k).state = .letgo) :
    MayBecome F s k { (s.driveKey k) with state := .blocked, letGoAt := none } where
  sound g := by
    refine ⟨?_, nofun, nofun, g.heat⟩
    have howner := g.owner
    rw [h] at howner
    exact howner
  slot e := nomatch e
  blocked _ := .inl rfl

theorem letGoOver_upholds (k : Key) (s : State) : Upholds F s (letGoOver k s) := by
  unfold letGoOver
  dsimp only
  split
  · next hletgo _ =>
    split
    · exact ((((Upholds.putDriveKey (.blocking hletgo)).trans (.raiseBoth ..)).trans (reportKey_upholds ..)).trans
        (endStopping_upholds ..)).trans (takeAll_upholds _)
    · exact .refl s
  · exact .refl s

theorem wakeOver_upholds (s : State) : Upholds F s (wakeOver s) := by
  unfold wakeOver
  split
  · split
    · exact (enterActive_upholds s).trans ((reportSupply_upholds _).trans (takeAll_upholds _))
    · exact .refl s
  · exact .refl s

theorem pulseGrace_upholds (k : Key) (s : State) : Upholds s.runTakes s (pulseGrace k s) := by
  unfold pulseGrace
  dsimp only
  split
  · next hprobe _ =>
    split
    · exact (endPulse_upholds (by rw [hprobe]; decide)).trans
        (runMiss_upholds _ fun hr => runFrees_runTakes (endPulse_keeps k s).run hr)
    · exact .refl s
  · exact .refl s

/-! ### The clock -/

/-- The clock changed to a state other than STOPPED. -/
theorem Upholds.clockOn {c : Clock} (h : c.state ≠ .stopped) : Upholds F s { s with clk := c } where
  order := id
  serials := id
  demands hs := hs.congr rfl (layer_eq_of_fields rfl rfl)
  keys := id
  slots := id
  blocked _ := .inl
  places hs := ⟨hs.1, fun e => absurd e h⟩

theorem phaseWork_upholds (r : PedalReadings) (kind : InstantKind) (frame : Option Nat) (s : State) (p : Phase) :
    Upholds F s (phaseWork r kind frame s p) := by
  cases p with
  | capture => exact (capturePhase_only ..).upholds
  | latch y =>
    change Upholds F s (if frame.isSome then latch y s else s)
    split
    · exact latch_upholds ..
    · exact .refl s
  | enter y => exact enterPlaying_upholds y s
  | schedule =>
    refine Upholds.trans ?_ ((processDue_upholds ..).trans (takeAll_upholds _))
    split
    · exact judgeLateness_upholds s
    · exact .refl s

theorem instantWork_upholds (r : PedalReadings) (order : List Phase) (kind : InstantKind) (frame : Option Nat) (s : State) :
    Upholds F s (instantWork r order kind frame s) :=
  (Upholds.foldl (phaseWork_upholds r kind frame) _ s).trans (takeAll_upholds _)

theorem stopLayer_upholds (h : s.sched.plan = []) (y : LayerId) : Upholds F s (stopLayer y s) := by
  have hlayer := stopLayer_layer_same y s
  have honly := stopLayer_only y s
  unfold DemandsOnly at honly
  have hsched : (stopLayer y s).sched = s.sched := by rw [honly]
  by_cases hreplays : s.replays y
  · have hstopped : (s.layer y).stopped = (s.layer y).unplayed := if_pos hreplays
    refine .of_layers (by rw [hsched]) (by rw [hsched]) (by rw [honly]) (by rw [honly]) (by rw [honly]) fun hs => ?_
    refine demandsOnlyInReplay_of_left (y := y) hs hsched (fun z hz => stopLayer_layer_other hz s) (fun p => ?_) (by simp [h])
    rw [hlayer, hstopped]
    exact ((unplayed_fields (s.layer y)).2.2.2.2 p).2
  · rw [stopLayer]
    exact if_neg hreplays ▸ .refl s

/-- A stop of the clock: the plan is emptied, so that nothing of it is left in a STOPPED clock (R107, R126). -/
theorem stopClock_upholds (s : State) : Upholds F s (stopClock s) := by
  rw [stopClock_eq]
  generalize s.running = running
  have hstopped : ({ s.clk with state := .stopped, owed := 0 } : Clock).state ≠ .running := nofun
  have hclock : Orderly F s { s with clk := { s.clk with state := .stopped, owed := 0 } } :=
    ⟨id, id, fun hs => hs.congr rfl (layer_eq_of_fields rfl rfl), id, id, fun _ => .inl⟩
  generalize { s.clk with state := .stopped, owed := 0 } = clk at hstopped hclock
  have honly := stopWork_only (s := { s with clk := clk }) running hstopped
  have hplan : (stopWork running { s with clk := clk }).sched.plan = [] := by rw [honly]
  refine ⟨hclock.trans ?_, fun _ => ⟨by rw [hplan]; exact Nat.zero_le _, fun _ => hplan⟩⟩
  rw [stopWork_eq]
  have hclock : ({ s with clk := clk } : State).clk.state ≠ .running := hstopped
  generalize { s with clk := clk } = u at hclock
  have hlatched : Upholds F u (latchLeaving running u) := by
    unfold latchLeaving
    split
    · exact latchBoth_upholds u
    · exact .refl u
  have hsilenced : Upholds F u (silence (latchLeaving running u)) :=
    hlatched.trans (((clearPlan_upholds _).trans (letGoReported_upholds ..)).trans (dropLastFires_upholds _))
  have hclk : (latchLeaving running u).clk.state ≠ .running := by
    have hlatch := latchLeaving_only running u
    unfold DemandsOnly at hlatch
    rw [hlatch]
    exact hclock
  have hempty : (silence (latchLeaving running u)).sched.plan = [] := by rw [silence_eq hclk]
  generalize silence (latchLeaving running u) = v at hsilenced hempty
  have hempty0 : (stopLayer .l0 v).sched.plan = [] := by
    have honly := stopLayer_only .l0 v
    unfold DemandsOnly at honly
    rw [honly]
    exact hempty
  have hlayers : Upholds F u (stopLayers v) :=
    (hsilenced.trans (stopLayer_upholds hempty .l0)).trans (stopLayer_upholds hempty0 .l1)
  unfold endCapture
  split
  · exact hlayers.toOrderly
  · exact (hlayers.trans (stopCapture_upholds _)).toOrderly

theorem advanceClock_upholds (r : PedalReadings) (order : List Phase) (s : State) : Upholds F s (advanceClock r order s) := by
  have hmoved : Upholds F s { s with clk := s.clk.advanced.clk } := .unmoved (by
    rw [State.inPlay, s.clk.advanced_state]
    rfl)
  unfold advanceClock
  dsimp only
  split
  · split
    · exact hmoved
    · split
      · exact (hmoved.trans (stopClock_upholds _)).trans (.raiseBoth ..)
      · exact hmoved.trans (instantWork_upholds ..)
  · exact .refl s

theorem answerClockRun_upholds (r : PedalReadings) (order : List Phase) (s : State) :
    Upholds F s (answerClockRun r order s).state := by
  have hentered : Upholds F s { s with clk := s.clk.entering s.now } := .clockOn nofun
  unfold answerClockRun
  split
  · exact .refl s
  · split
    · exact .refl s
    · exact hentered.trans (instantWork_upholds ..)
    · split
      · exact .refl s
      · have hcleared : Upholds F { s with clk := s.clk.entering s.now }
            { s with clk := s.clk.entering s.now, sched := { s.sched with drops := [] } } := .unmoved rfl
        exact (hentered.trans hcleared).trans (instantWork_upholds ..)

theorem answerClockPause_upholds (s : State) : Upholds F s (answerClockPause s).state := by
  have hpaused : Upholds F s { s with clk := { s.clk with state := .paused } } := .clockOn nofun
  have hcapture (s : State) : Upholds F s (capturePause s) := by
    unfold capturePause
    split
    · exact .unmoved rfl
    · exact .refl s
  unfold answerClockPause
  split
  · exact .refl s
  · exact .refl s
  · exact ((hpaused.trans (latchBoth_upholds _)).trans (hcapture _)).trans (.unmoved rfl)

theorem answerClockLocate_upholds (p : Word32) (s : State) : Upholds F s (answerClockLocate p s).state := by
  unfold answerClockLocate
  split
  · exact .unmoved rfl
  · exact .refl s

theorem answerClockSource_upholds (b : Byte) (n : Word16) (s : State) : Upholds F s (answerClockSource b n s).state := by
  unfold answerClockSource
  split
  · exact .unmoved rfl
  · split
    · exact .unmoved rfl
    · exact .refl s

theorem syncPulse_upholds (s : State) : Upholds F s (syncPulse s) := by
  unfold syncPulse
  dsimp only
  split
  · split <;> exact .unmoved rfl
  · exact .refl s

theorem lossExpired_upholds (s : State) : Upholds F s (lossExpired s) := by
  unfold lossExpired
  split
  · exact .unmoved rfl
  · exact .refl s

/-! ### The resets (R90, R128, R149) -/

/-- With no plan and no demand nothing of either is left to hold. -/
theorem Upholds.of_cleared (hp : t.sched.plan = []) (hd : ∀ y p, bankGet (t.layer y).demands p = none)
    (hk : DriveKeysSound s → DriveKeysSound t) (hs : SlotsBounded s → SlotsBounded t)
    (hf : ∀ k, (s.driveKey k).state = .blocked → F k) : Upholds F s t where
  order _ := by unfold PlanInOrder; rw [hp]; exact .nil
  serials _ := by unfold SerialsSound State.planSerials; rw [hp]; exact ⟨List.nodup_nil, fun _ h => nomatch h⟩
  demands _ := by
    rw [demandsOnlyInReplay_iff, hp]
    exact ⟨fun y p h => absurd h (by rw [hd]; decide), fun _ h => nomatch h⟩
  keys := hk
  slots := hs
  blocked k h := .inr (hf k h)
  places _ := by unfold PlanInPlaces; rw [hp]; exact ⟨Nat.zero_le _, fun _ => rfl⟩

/-- A key's record at a soft reset (R149). -/
def DriveKey.softReset (d : DriveKey) (now : Nat) : DriveKey :=
  let d' : DriveKey := { d with fire := none, lastFire := none }
  match d.state with
  | .rest => d'
  | .letgo => d'
  | _ => d'.lettingGo now

theorem softReset_state (d : DriveKey) (now : Nat) :
    (d.softReset now).state = if d.state = .rest then .rest else .letgo := by
  cases h : d.state <;> simp [DriveKey.softReset, DriveKey.lettingGo, h]

theorem DriveKey.Sound.softReset {d : DriveKey} (h : d.Sound) (now : Nat) : (d.softReset now).Sound := by
  have hstate := softReset_state d now
  refine ⟨?_, fun e => ?_, fun _ => ?_, ?_⟩
  · have howner := h.owner
    unfold DriveKey.softReset
    dsimp only
    split
    · next hrest => rw [hrest] at howner ⊢; exact howner
    · next hletgo => rw [hletgo] at howner ⊢; exact howner
    · simp [DriveKey.lettingGo, DriveState.holdsKey]
  · rw [hstate] at e
    split at e <;> cases e
  · unfold DriveKey.softReset
    dsimp only
    split <;> rfl
  · have hheat : (d.softReset now).heat = d.heat := by
      unfold DriveKey.softReset
      dsimp only
      split <;> rfl
    rw [hheat]
    exact h.heat

theorem softResetCapture_drive (s : State) : (softResetCapture s).drive = s.drive := by
  unfold softResetCapture
  dsimp only
  split
  · rfl
  · rw [stopCapture_only]

theorem softResetRun_drive (s : State) : (softResetRun s).drive = s.drive := by
  unfold softResetRun
  split
  · rfl
  · dsimp only
    split <;> rfl

theorem softResetRun_wall (s : State) : (softResetRun s).wall = s.wall := by
  unfold softResetRun
  split
  · rfl
  · dsimp only
    split <;> rfl

theorem softResetDrive_driveKey (s : State) (k : Key) : (softResetDrive s).driveKey k = (s.driveKey k).softReset s.now := by
  rw [State.driveKey, softResetDrive, bankGet_bankMap]
  rfl

/-- The blocks that a soft reset sets before the scheduler and the drive unit. -/
def softResetFront (s : State) : State :=
  let s1 := softResetClock (softResetRun (softResetCapture s))
  { s1 with layer0 := Layer.reset, layer1 := Layer.reset, store := s1.store.unbindAll }

theorem softResetFront_drive (s : State) : (softResetFront s).drive = s.drive := by
  unfold softResetFront softResetClock
  dsimp only
  rw [softResetRun_drive, softResetCapture_drive]

theorem softResetFront_wall (s : State) : (softResetFront s).wall = s.wall := by
  unfold softResetFront softResetClock
  dsimp only
  rw [softResetRun_wall, (softResetCapture_keeps s).wall]

/-- A soft reset but for its cause and the links' slots. -/
def softResetBlocks (s : State) : State := softResetDrive (softResetPlan (softResetFront s))

theorem softReset_eq (l : Link) (s : State) :
    softReset l s =
      (State.setLink { softResetBlocks s with cause := causeOf l } l
        (State.link { softResetBlocks s with cause := causeOf l } l).softReset).setLink l.other
        ((State.link { softResetBlocks s with cause := causeOf l } l.other).softResetByOther s.now) := rfl

theorem softReset_sched (l : Link) (s : State) : (softReset l s).sched = (softResetPlan (softResetFront s)).sched := by
  rw [softReset_eq, setLink_sched, setLink_sched, softResetBlocks, softResetDrive]

theorem softReset_drive (l : Link) (s : State) : (softReset l s).drive = (softResetBlocks s).drive := by
  rw [softReset_eq, setLink_drive, setLink_drive]

theorem softReset_layer (l : Link) (s : State) (y : LayerId) : (softReset l s).layer y = Layer.reset := by
  cases y
  · rw [layer_l0, softReset_eq, setLink_layer0, setLink_layer0]; rfl
  · rw [layer_l1, softReset_eq, setLink_layer1, setLink_layer1]; rfl

theorem softReset_driveKey (l : Link) (s : State) (k : Key) :
    (softReset l s).driveKey k = (s.driveKey k).softReset s.now := by
  have hfront : (softResetPlan (softResetFront s)).driveKey k = s.driveKey k :=
    driveKey_of_keys (s := s) (congrArg Drive.keys (softResetFront_drive s)) k
  have hnow : (softResetPlan (softResetFront s)).now = s.now := congrArg WallTimer.now (softResetFront_wall s)
  have hkey := softResetDrive_driveKey (softResetPlan (softResetFront s)) k
  rw [hfront, hnow] at hkey
  rw [State.driveKey, softReset_drive]
  exact hkey

theorem softReset_slots (l : Link) (s : State) : (softReset l s).drive.slots = s.drive.slots := by
  have hfront : (softResetFront s).drive.slots = s.drive.slots := congrArg Drive.slots (softResetFront_drive s)
  rw [softReset_drive, softResetBlocks, softResetDrive, softResetPlan]
  exact hfront

theorem softReset_upholds (l : Link) (s : State) : Upholds (fun _ => True) s (softReset l s) := by
  have hplan : (softReset l s).sched.plan = [] := by rw [softReset_sched]; rfl
  refine .of_cleared hplan (fun y p => ?_) (fun hs => ?_) (fun hs => ⟨by rw [softReset_slots]; exact hs.1, ?_⟩)
    fun _ _ => trivial
  · rw [softReset_layer]; exact bankGet_replicate ..
  · rw [driveKeysSound_iff] at hs ⊢
    intro k
    rw [softReset_driveKey]
    exact (hs k).softReset s.now
  · have hnone : (softReset l s).slotsHeld = 0 := by
      rw [State.slotsHeld, List.length_eq_zero_iff, List.filter_eq_nil_iff]
      intro k _
      rw [softReset_driveKey, softReset_state]
      split <;> decide
    rw [hnone]
    exact Nat.zero_le _

theorem driveKey_powerOn (s : State) (k : Key) : (powerOn s).driveKey k = DriveKey.reset := bankGet_replicate ..

theorem powerOn_upholds (s : State) : Upholds (fun _ => True) s (powerOn s) := by
  refine .of_cleared rfl (fun y p => ?_) (fun _ => ?_) (fun _ => ⟨Nat.le_of_ble_eq_true rfl, ?_⟩) fun _ _ => trivial
  · cases y <;> exact bankGet_replicate ..
  · rw [driveKeysSound_iff]
    intro k
    rw [driveKey_powerOn]
    exact ⟨by decide, nofun, fun _ => rfl, Nat.zero_le _⟩
  · have hnone : (powerOn s).slotsHeld = 0 := by
      rw [State.slotsHeld, List.length_eq_zero_iff, List.filter_eq_nil_iff]
      intro k _
      rw [driveKey_powerOn]
      decide
    rw [hnone]
    exact Nat.zero_le _

end

end Sys2Proof.Machine
end

section
/-! SUPPORT. Every command upholds the properties of the plan, the demands and the keys: the statement O59. -/

namespace Sys2Proof.Machine

/-- The commands by which a key may leave BLOCKED: KEYS CLEAR or CAL RUN naming it, an event that moves a run whose key set
holds it, a reset (R140, R141, R149, R151). -/
def Instr.Frees (c : Instr) (s : State) (k : Key) : Prop :=
  (∃ l keys, c = .keysClear l keys ∧ keys.getLsbD k.val = true) ∨
    (∃ l kind keys stop v n, c = .calRun l kind keys stop v n ∧ keys.getLsbD k.val = true) ∨
    ((∃ j, c = .gate2Event j .toward ∨ c = .pulseGraceExpiry j ∨ c = .restDeadline) ∧ s.run.state = .running ∧
      s.run.keys.getLsbD k.val = true) ∨
    (∃ l, c = .partReset l) ∨ c = .powerOnReset

section
variable {F : Key → Prop} {c : Instr} {s t : State}

theorem Instr.Frees.of_run {k : Key} (h : s.runTakes k)
    (hc : ∃ j, c = .gate2Event j .toward ∨ c = .pulseGraceExpiry j ∨ c = .restDeadline) : Instr.Frees c s k :=
  .inr (.inr (.inl ⟨hc, h⟩))

theorem Instr.Frees.of_partReset (l : Link) (s : State) (k : Key) : Instr.Frees (.partReset l) s k :=
  .inr (.inr (.inr (.inl ⟨l, rfl⟩)))

theorem Instr.Frees.of_powerOn (s : State) (k : Key) : Instr.Frees .powerOnReset s k := .inr (.inr (.inr (.inr rfl)))

theorem Upholds.serve {l : Link} {q : Request} {answer : State → Answer} (h : Upholds F s (answer s).state) :
    Upholds F s (serve l q answer s) := by
  unfold Machine.serve placeAnswer
  split
  · exact h.trans (.setLink ..)
  · exact .refl s

/-- A request row whose answer leaves the part as it was. -/
theorem Upholds.serve_same {l : Link} {q : Request} {answer : State → Answer} (h : (answer s).state = s) :
    Upholds F s (Machine.serve l q answer s) := .serve (by rw [h]; exact .refl s)

theorem onWires_upholds (l : Link) (b : Bool) (f : LinkRec → LinkRec) (s : State) : Upholds F s (onWires l b f s) := by
  unfold onWires
  split
  · exact .refl s
  · exact .setLink ..

theorem takePartReset_upholds (l : Link) (s : State) : Upholds (fun _ => True) s (takePartReset l s) := by
  unfold takePartReset placeAnswer answerPartReset
  split
  · exact (softReset_upholds l s).trans (.setLink ..)
  · exact .refl s

theorem exec_upholds (h : exec c s = .next t) : Upholds (Instr.Frees c s) s t := by
  cases c with
  | powerOnReset => cases h; exact (powerOn_upholds s).mono fun k _ => .of_powerOn s k
  | keySample rs => cases h; exact keySample_upholds rs s
  | gate1Event k dir =>
    cases h
    cases dir with
    | toward => exact captureGate1_upholds k s
    | away => exact .refl s
  | gate2Event k dir =>
    cases h
    cases dir with
    | toward => exact (gate2_upholds k s).mono fun _ hj => .of_run hj ⟨k, .inl rfl⟩
    | away => exact .refl s
  | windowExpiry k => cases h; exact windowEnd_upholds k s
  | clockAdvance r order => cases h; exact advanceClock_upholds r order s
  | servicePeriod => cases h; exact servicePeriodEnd_upholds s
  | integrityCheck => cases h; exact integrityPeriod_upholds s
  | supplyReading v => cases h; exact readSupply_upholds v s
  | syncPulse => cases h; exact syncPulse_upholds s
  | lossIntervalExpiry => cases h; exact lossExpired_upholds s
  | strikeGraceExpiry k => cases h; exact strikeGrace_upholds k s
  | reboundEnd k => cases h; exact reboundOver_upholds k s
  | letGoExpiry k => cases h; exact letGoOver_upholds k s
  | wakeExpiry => cases h; exact wakeOver_upholds s
  | pulseRequest => cases h; exact requestPulse_upholds s
  | pulseFire => cases h; exact firePending_upholds s
  | pulseGraceExpiry k => cases h; exact (pulseGrace_upholds k s).mono fun _ hj => .of_run hj ⟨k, .inr (.inl rfl)⟩
  | restDeadline =>
    cases h
    exact (restDeadlineReached_upholds fun hr => runFrees_runTakes rfl hr).mono fun j hj => .of_run hj ⟨j, .inr (.inr rfl)⟩
  | requestTransaction l bytes b => cases h; exact onWires_upholds ..
  | transactionDiscarded l bytes => cases h; exact .refl s
  | fetch l b => cases h; exact onWires_upholds ..
  | captureStart l r => cases h; exact .serve (answerCaptureStart_upholds r s)
  | captureStop l => cases h; exact .serve (answerCaptureStop_upholds s)
  | captureSet l r p d db => cases h; exact .serve (answerCaptureSet_upholds r p d db s)
  | takeOpen l => cases h; exact .serve (answerTakeOpen_upholds l s)
  | append l take rs => cases h; exact .serve (answerAppend_upholds l take rs s)
  | close l take e => cases h; exact .serve (answerClose_upholds l take e s)
  | read l take start count => cases h; exact .serve_same (answerRead_state take start count s)
  | info l take => cases h; exact .serve_same (answerInfo_state take s)
  | erase l take => cases h; exact .serve (answerErase_upholds take s)
  | clockRun l r order => cases h; exact .serve (answerClockRun_upholds r order s)
  | clockPause l => cases h; exact .serve (answerClockPause_upholds s)
  | clockStop l => cases h; exact .serve (stopClock_upholds s)
  | clockLocate l p => cases h; exact .serve (answerClockLocate_upholds p s)
  | clockSource l b n => cases h; exact .serve (answerClockSource_upholds b n s)
  | mapRead l cls number => cases h; exact .serve_same (answerMapRead_state cls number s)
  | mapWrite l b => cases h; exact .serve (answerMapWrite_upholds b s)
  | mapClear l => cases h; exact .serve (answerMapClear_upholds s)
  | mapAccept l => cases h; exact .serve (.unmoved rfl)
  | layerBind l y source take => cases h; exact .serve (answerLayerBind_upholds l y source take s)
  | layerMarks l y low high => cases h; exact .serve (answerLayerMarks_upholds y low high s)
  | layerFeed l y rs => cases h; exact .serve (thenTake_upholds (answerLayerFeed_upholds l y rs s))
  | layerSet l y raw => cases h; exact .serve (answerLayerSet_upholds y raw s)
  | layerCue l y ck cv ek et => cases h; exact .serve (thenTake_upholds (answerLayerCue_upholds y ck cv ek et s))
  | layerFree l y => cases h; exact .serve (answerLayerFree_upholds y s)
  | layerInfo l y => cases h; exact .serve_same (answerLayerInfo_state y s)
  | dropsRead l => cases h; exact .serve_same rfl
  | planSet l late rise => cases h; exact .serve (answerPlanSet_upholds late rise s)
  | allOff l => cases h; exact .serve (thenTake_upholds (answerAllOff_upholds s))
  | keysClear l keys =>
    cases h
    exact .serve ((answerKeysClear_upholds keys s).mono fun _ hk => .inl ⟨l, keys, rfl, hk⟩)
  | quietEnter l => cases h; exact .serve (answerQuietEnter_upholds s)
  | quietLeave l => cases h; exact .serve (answerQuietLeave_upholds s)
  | driveSet l n v p => cases h; exact .serve (answerDriveSet_upholds n v p s)
  | driveInfo l first count => cases h; exact .serve_same (answerDriveInfo_state first count s)
  | calRun l kind keys stop v n =>
    cases h
    exact .serve ((answerCalRun_upholds kind keys stop v n s).mono fun _ hk =>
      .inr (.inl ⟨l, kind, keys, stop, v, n, rfl, hk⟩))
  | calStop l => cases h; exact .serve (answerCalStop_upholds s)
  | status l => cases h; exact .serve_same rfl
  | noticeClear l flags => cases h; exact .serve (.setLink ..)
  | noticeMask l mask => cases h; exact .serve (.setLink ..)
  | partReset l => cases h; exact (takePartReset_upholds l s).mono fun k _ => .of_partReset l s k
  | resetLineLow => cases h; exact .unmoved rfl
  | fetchSelectInactive l shifted => cases h; exact onWires_upholds ..

/-- What the statement O59 asks of a step, from the operations' relation. -/
theorem step_upholds (h : step s = .next t) :
    Upholds (fun k => ∃ c rest, s.pending = c :: rest ∧ Instr.Frees c s k) s t := by
  obtain ⟨-, rfl⟩ | ⟨c, rest, hp, hc⟩ := step_cases h
  · exact .unmoved rfl
  · have hqueue : Upholds (fun k => ∃ c rest, s.pending = c :: rest ∧ Instr.Frees c s k) s (s.withPending rest) := .unmoved rfl
    exact hqueue.trans ((exec_upholds hc).mono fun _ hk => ⟨c, rest, hp, hk⟩)

end

/-- Settles O59: each command is a chain of operations, each of which upholds every one of the properties. -/
theorem everyStepKeepsThePlanAndTheDrive : Obligations.EveryStepKeepsThePlanAndTheDrive := by
  intro s t h
  have hstep := step_upholds h
  exact ⟨hstep.planSound, hstep.serials, hstep.demands, hstep.keys, hstep.slots,
    fun k hk hnot => (hstep.blocked k hk).resolve_left hnot⟩

end Sys2Proof.Machine
end
section
/-! SUPPORT. LAYER MARKS, LAYER SET and LAYER INFO (R73, R76, R77, R89): what a refill does to a take layer, a latching
told apart from the staging before it, and the bytes of settings and of a layer report. -/

namespace Sys2Proof.Machine

/-! ### A refill, told by the take's records (R35) -/

theorem refill_unchanged {y : LayerId} {r : Layer} {s : State}
    (h : ∀ n, r.source = some (.take n) → ¬ (r.ring.length < r.low ∧ r.cursor < (s.store.entry n).length)) :
    refill y (s.setLayer y r) = s.setLayer y r := by
  unfold refill
  simp only [layer_setLayer_same, setLayer_store]
  split
  · next n hsource => exact if_neg (h n hsource)
  · rfl

theorem refill_below_low {y : LayerId} {r : Layer} {n : TakeNo} {s : State} (hsource : r.source = some (.take n))
    (hlow : r.ring.length < r.low) (hcursor : r.cursor < (s.store.entry n).length) :
    let c := min (256 - r.ring.length) ((s.store.entry n).length - r.cursor)
    refill y (s.setLayer y r) = s.setLayer y
      { r with
        cursor := r.cursor + c
        ring := r.ring ++ (List.range c).map fun i => s.store.record n (r.cursor + i) } := by
  simp only [refill, layer_setLayer_same, setLayer_store, setLayer_setLayer, hsource, hlow, hcursor, and_self, if_true,
    records_eq_map, Config.ringPlaces]

/-! ### LAYER MARKS (R73) -/

theorem answerLayerMarks_badVal {layer low high : Byte} {s : State} (h : 1 < layer.toNat) :
    answerLayerMarks layer low high s = refuse .badVal s := by
  rw [answerLayerMarks, layerOf_eq_none h]

/-- A layer with the marks that a LAYER MARKS sets. -/
def marked (low high : Byte) (r : Layer) : Layer :=
  { r with
    low := max 16 (min 240 low.toNat)
    high :=
      if max 16 (min 240 low.toNat) < max 17 (min 255 high.toNat) then max 17 (min 255 high.toNat)
      else max 16 (min 240 low.toNat) + 1 }

theorem answerLayerMarks_ok {layer low high : Byte} {y : LayerId} {s : State} (hy : layer.toNat = y.code) :
    answerLayerMarks layer low high s =
      { status := .ok
        body := [BitVec.ofNat 8 (marked low high (s.layer y)).low, BitVec.ofNat 8 (marked low high (s.layer y)).high]
        state := refill y (s.setLayer y (marked low high (s.layer y))) } := by
  simp only [answerLayerMarks, layerOf_eq_some hy, byte1_eq, clampNat_eq (show 16 ≤ 240 by decide),
    clampNat_eq (show 17 ≤ 255 by decide), List.singleton_append, marked]

/-! ### Settings and their bytes (R76, R77) -/

/-- The settings that the fields of a LAYER SET body spell out, whatever their ranges. -/
def plainSettings (raw : RawSettings) : Settings :=
  { winLow := raw.winLow.toNat, winHigh := raw.winHigh.toNat, transpose := raw.transpose.toInt
    scale := raw.scale.toNat, velOffset := raw.velOffset.toInt, timeOffset := raw.timeOffset.toInt
    mute := raw.flags.getLsbD 0, yieldKeys := raw.flags.getLsbD 1
    pass := ⟨#[raw.flags.getLsbD 2, raw.flags.getLsbD 3, raw.flags.getLsbD 4], rfl⟩, priority := raw.priority.toNat }

/-- The ranges of the fields of a LAYER SET body. -/
def InSettingRanges (raw : RawSettings) : Prop :=
  raw.flags.toNat < 32 ∧ raw.winLow.toNat ≤ raw.winHigh.toNat ∧ raw.winHigh.toNat ≤ 87 ∧
    -12 ≤ raw.transpose.toInt ∧ raw.transpose.toInt ≤ 12 ∧ raw.scale.toNat ≤ 32 ∧ raw.priority.toNat ≤ 7

theorem settingsOf_good {raw : RawSettings} (h : InSettingRanges raw) : settingsOf raw = some (plainSettings raw) := by
  obtain ⟨hflags, hwin, hhigh, hdown, hup, hscale, hprio⟩ := h
  exact if_pos ⟨hflags, hwin.trans hhigh, hhigh, hwin, hdown, hup, hscale, hprio⟩

theorem settingsOf_bad {raw : RawSettings} (h : ¬ InSettingRanges raw) : settingsOf raw = none :=
  if_neg fun ⟨hflags, _, hhigh, hwin, hdown, hup, hscale, hprio⟩ =>
    h ⟨hflags, hwin, hhigh, hdown, hup, hscale, hprio⟩

/-- A byte below 32 is the sum of its five low bits. -/
theorem byte_of_bits : ∀ n : Fin 32, let b : Byte := BitVec.ofNat 8 n.val
    ((if b.getLsbD 0 then 1 else 0) ||| (if b.getLsbD 1 then 2 else 0) ||| (if b.getLsbD 2 then 4 else 0) |||
      (if b.getLsbD 3 then 8 else 0) ||| (if b.getLsbD 4 then 16 else 0) : Byte) = b := by decide

theorem plainSettings_flagsByte {raw : RawSettings} (h : raw.flags.toNat < 32) :
    (plainSettings raw).flagsByte = raw.flags := by
  have hbits := byte_of_bits ⟨raw.flags.toNat, h⟩
  dsimp only at hbits
  rw [BitVec.ofNat_toNat, BitVec.setWidth_eq] at hbits
  exact hbits

theorem plainSettings_bytes {raw : RawSettings} (h : raw.flags.toNat < 32) :
    (plainSettings raw).bytes = [raw.winLow, raw.winHigh, raw.transpose, raw.scale, raw.velOffset] ++ bytes16 raw.timeOffset ++
      [raw.flags, raw.priority] := by
  rw [Settings.bytes, plainSettings_flagsByte h]
  simp [plainSettings, byte1_eq, signed1, signed2]

theorem plainSettings_pass (raw : RawSettings) (p : Pedal) :
    bankGet (plainSettings raw).pass p = raw.flags.getLsbD (2 + p.val) := by
  fin_cases p <;> rfl

theorem Settings.bytes_eq (st : Settings) :
    st.bytes =
      [BitVec.ofNat 8 st.winLow, BitVec.ofNat 8 st.winHigh, BitVec.ofInt 8 st.transpose, BitVec.ofNat 8 st.scale,
        BitVec.ofInt 8 st.velOffset] ++ bytes16 (BitVec.ofInt 16 st.timeOffset) ++
        [st.flagsByte, BitVec.ofNat 8 st.priority] := by
  simp [bytes, byte1_eq, signed1, signed2]

/-! ### LAYER SET (R76, R77) -/

theorem answerLayerSet_badLayer {layer : Byte} {raw : RawSettings} {s : State} (h : 1 < layer.toNat) :
    answerLayerSet layer raw s = refuse .badVal s := by
  rw [answerLayerSet, layerOf_eq_none h]

theorem answerLayerSet_badValue {layer : Byte} {raw : RawSettings} {s : State} (h : ¬ InSettingRanges raw) :
    answerLayerSet layer raw s = refuse .badVal s := by
  rw [answerLayerSet, settingsOf_bad h]
  split
  · next hst => cases hst
  · rfl

theorem answerLayerSet_running {layer : Byte} {raw : RawSettings} {y : LayerId} {s : State}
    (hy : layer.toNat = y.code) (h : InSettingRanges raw) (hrun : s.clk.state = .running) :
    answerLayerSet layer raw s =
      { status := .ok, body := (plainSettings raw).bytes ++ [0]
        state := s.setLayer y { (s.layer y) with staged := some (plainSettings raw) } } := by
  have hr : s.running = true := decide_eq_true hrun
  simp only [answerLayerSet, layerOf_eq_some hy, settingsOf_good h, hr]
  rfl

theorem answerLayerSet_latched {layer : Byte} {raw : RawSettings} {y : LayerId} {s : State}
    (hy : layer.toNat = y.code) (h : InSettingRanges raw) (hrun : s.clk.state ≠ .running) :
    answerLayerSet layer raw s =
      { status := .ok, body := (plainSettings raw).bytes ++ [1]
        state := latch y (s.setLayer y { (s.layer y) with staged := some (plainSettings raw) }) } := by
  have hr : s.running = false := decide_eq_false hrun
  simp only [answerLayerSet, layerOf_eq_some hy, settingsOf_good h, hr]
  rfl

/-! ### Settings latched as soon as they are staged (R77) -/

theorem latch_staged_layer (y : LayerId) (st : Settings) (s : State) :
    let t := latch y (s.setLayer y { (s.layer y) with staged := some st })
    t.layer y = { (s.layer y) with latched := st, staged := none, demands := (t.layer y).demands } := by
  dsimp only
  rw [latch_layer_same, layer_setLayer_same, latching_settings]
  rfl

theorem latch_staged_demands (y : LayerId) (st : Settings) (s : State) (p : Pedal) :
    bankGet ((latch y (s.setLayer y { (s.layer y) with staged := some st })).layer y).demands p =
      if bankGet st.pass p then bankGet (s.layer y).demands p else none := by
  rw [latch_layer_same, layer_setLayer_same, latching_demands, latching_settings]
  cases hpass : bankGet st.pass p <;> simp [hpass]

/-- A state that differs in demands and pedals alone, and from one layer alone in that layer. -/
theorem DemandsOnly.eq_setLayer {y : LayerId} {s t : State} (h : DemandsOnly s t)
    (hother : ∀ z, z ≠ y → t.layer z = s.layer z) :
    t = { (s.setLayer y (t.layer y)) with drive := { s.drive with pedals := t.drive.pedals } } := by
  unfold DemandsOnly at h
  cases y with
  | l0 =>
    have h1 : t.layer1 = s.layer1 := hother .l1 (by decide)
    rw [h1] at h
    exact h
  | l1 =>
    have h0 : t.layer0 = s.layer0 := hother .l0 (by decide)
    rw [h0] at h
    exact h

theorem latch_staged_state (y : LayerId) (l : Layer) (s : State) :
    let t := latch y (s.setLayer y l)
    t = { (s.setLayer y (t.layer y)) with drive := { s.drive with pedals := t.drive.pedals } } := by
  have h := (latch_only y (s.setLayer y l)).eq_setLayer fun z hz => latch_layer_other hz _
  dsimp only
  rw [setLayer_setLayer, setLayer_drive] at h
  exact h

/-! ### LAYER INFO (R89) -/

theorem answerLayerInfo_badVal {layer : Byte} {s : State} (h : 1 < layer.toNat) :
    answerLayerInfo layer s = refuse .badVal s := by
  rw [answerLayerInfo, layerOf_eq_none h]

theorem answerLayerInfo_ok {layer : Byte} {y : LayerId} {s : State} (hy : layer.toNat = y.code) :
    answerLayerInfo layer s = { status := .ok, body := layerReport (s.layer y), state := s } := by
  rw [answerLayerInfo, layerOf_eq_some hy]

theorem sourceBytes_eq (src : Option Source) :
    sourceBytes src =
      (match src with
        | some (.take n) => [0, BitVec.ofNat 8 n.val, 255]
        | some (.stream link) => [1, 255, if link = .a then 0 else 1]
        | none => [255, 255, 255]) := by
  match src with
  | some (.take n) => simp [sourceBytes, byte1_eq]
  | some (.stream .a) => rfl
  | some (.stream .b) => rfl
  | none => rfl

theorem demandBytes_eq (demands : Bank (Option Nat) 3) :
    (allPedals.flatMap fun p => optByte1 (bankGet demands p)) =
      (List.finRange 3).map fun p => match bankGet demands p with
        | some v => BitVec.ofNat 8 v
        | none => 255 := by
  rw [List.map_eq_flatMap]
  refine List.flatMap_congr fun p _ => ?_
  cases bankGet demands p <;> simp [optByte1, byte1_eq]

theorem layerReport_eq (r : Layer) :
    layerReport r =
      [BitVec.ofNat 8 r.state.code] ++ sourceBytes r.source ++ bytes32 (BitVec.ofNat 32 r.ring.length) ++
        [BitVec.ofNat 8 r.low, BitVec.ofNat 8 r.high] ++
        (match r.source with
          | some (.take _) => optByte4 (some r.cursor) ++ optByte4 none
          | some (.stream _) => optByte4 none ++ optByte4 (some r.fedTime)
          | none => optByte4 none ++ optByte4 none) ++
        [if r.endFed then 1 else 0, if r.endFetched then 1 else 0] ++ optByte4 r.cue ++ optByte4 r.origin ++
        r.latched.bytes ++
        (match r.staged with
          | some st => st.bytes
          | none => List.replicate 9 255) ++
        allPedals.flatMap fun p => optByte1 (bankGet r.demands p) := by
  rw [layerReport, byte1_eq, byte1_eq, byte1_eq, byte4_eq]
  match r.source with
  | some (.take n) => cases r.staged <;> simp [flagByte]
  | some (.stream link) => cases r.staged <;> simp [flagByte]
  | none => cases r.staged <;> simp [flagByte]

/-- Settles O43: each request by its answer, the settings by the fields they were sent in, the report item by item. -/
theorem layerMarksSettingsAndReport : Obligations.LayerMarksSettingsAndReport := by
  unfold Obligations.LayerMarksSettingsAndReport
  intro l layer low high raw s marks set info
  refine ⟨fun h => ⟨fun hl => exec_of_refusal rfl hl (answerLayerMarks_badVal h),
    fun hl => exec_of_refusal rfl hl (answerLayerSet_badLayer h),
    fun hl => exec_of_refusal rfl hl (answerLayerInfo_badVal h)⟩,
    fun y hy => ⟨⟨fun hfull hl => ?_, ?_⟩, ⟨?_, ?_⟩, fun hl => ?_⟩⟩
  · have hstands := refill_unchanged (y := y) (s := s) (r := marked low high (s.layer y)) hfull
    exact exec_of_answer rfl hl ((answerLayerMarks_ok hy).trans (by rw [hstands]; rfl))
  · intro n hn hlow hcursor c hl
    have hrefilled := refill_below_low (y := y) (s := s) (r := marked low high (s.layer y)) hn hlow hcursor
    exact exec_of_answer rfl hl ((answerLayerMarks_ok hy).trans (by rw [hrefilled]; rfl))
  · exact fun hbad hl => exec_of_refusal rfl hl (answerLayerSet_badValue hbad)
  · intro hgood
    have hbytes := plainSettings_bytes hgood.1
    refine ⟨plainSettings raw, rfl, rfl, rfl, rfl, rfl, rfl, rfl, rfl, plainSettings_pass raw, rfl, fun hrun hl => ?_,
      fun hrun => ⟨_, fun hl => ?_, latch_staged_layer y _ s, latch_staged_demands y _ s, latch_staged_state y _ s⟩⟩
    · rw [← hbytes]
      exact exec_of_answer rfl hl (answerLayerSet_running hy hgood hrun)
    · rw [← hbytes]
      exact exec_of_answer rfl hl (answerLayerSet_latched hy hgood hrun)
  · refine exec_of_answer rfl hl ((answerLayerInfo_ok hy).trans ?_)
    rw [layerReport_eq, sourceBytes_eq, demandBytes_eq]
    simp only [optByte4_eq, Settings.bytes_eq]
    rfl

end Sys2Proof.Machine
end

section
/-! SUPPORT. LAYER FEED (R74, R75): what a stream layer holds once a list of records has joined its ring, and where the
feeding stops. -/

namespace Sys2Proof.Machine

section
variable {y : LayerId} {l : Link} {r : Layer} {good rest : List Record} {s : State}

/-! ### A stream layer with records fed (R74, R75) -/

/-- The ring passes its high mark, armed, as so many records join it (R75). -/
abbrev Layer.passesHigh (r : Layer) (n : Nat) : Prop :=
  r.ring.length ≤ r.high ∧ r.high < r.ring.length + n ∧ r.highArmed = true

/-- The fed time once records have joined: the last record's time. -/
def Layer.fedTo (r : Layer) (rs : List Record) : Nat := ((rs.getLast?).map fun g => g.time.toNat).getD r.fedTime

/-- A stream layer once records have joined its ring. -/
def Layer.fed (r : Layer) (rs : List Record) : Layer :=
  { r with
    ring := r.ring ++ rs, fedTime := r.fedTo rs, endFed := r.endFed || rs.any Record.isEnd
    highArmed := if r.passesHigh rs.length then false else r.highArmed
    lowArmed := if r.passesHigh rs.length then true else r.lowArmed }

/-- The state once records have joined a stream layer's ring, the high crossing noticed. -/
def fedState (y : LayerId) (l : Link) (rs : List Record) (s : State) : State :=
  if (s.layer y).passesHigh rs.length then raise l (highNotice y) (s.setLayer y ((s.layer y).fed rs))
  else s.setLayer y ((s.layer y).fed rs)

theorem fedTo_cons (r : Layer) (g : Record) (rs : List Record) : r.fedTo (g :: rs) = (r.fed [g]).fedTo rs := by
  cases h : rs.getLast? <;> simp [Layer.fedTo, Layer.fed, List.getLast?_cons, h]

/-- The high mark is passed once: by the first record or by the ones after it. -/
theorem passesHigh_succ (r : Layer) (g : Record) (n : Nat) :
    r.passesHigh (n + 1) ↔ r.passesHigh 1 ∨ (r.fed [g]).passesHigh n := by
  simp only [Layer.passesHigh, Layer.fed, List.length_append, List.length_singleton]
  by_cases ha : r.highArmed = true
  · by_cases h : r.ring.length = r.high
    · simp [ha, h]
    · simp [ha]
      omega
  · simp [ha]

/-- A layer that has passed its high mark does not pass it again while it is fed. -/
theorem not_passesHigh_fed (h : r.passesHigh 1) (g : Record) (n : Nat) : ¬ (r.fed [g]).passesHigh n := by
  simp [Layer.passesHigh, Layer.fed] at h ⊢
  omega

theorem fed_fed (r : Layer) (g : Record) (rs : List Record) : (r.fed [g]).fed rs = r.fed (g :: rs) := by
  have hring : ((r.fed [g]).fed rs).ring = (r.fed (g :: rs)).ring := by simp [Layer.fed]
  have htime : ((r.fed [g]).fed rs).fedTime = (r.fed (g :: rs)).fedTime := (fedTo_cons r g rs).symm
  have hend : ((r.fed [g]).fed rs).endFed = (r.fed (g :: rs)).endFed := by simp [Layer.fed, Bool.or_assoc]
  obtain ⟨hhigh, hlow⟩ : ((r.fed [g]).fed rs).highArmed = (r.fed (g :: rs)).highArmed ∧
      ((r.fed [g]).fed rs).lowArmed = (r.fed (g :: rs)).lowArmed := by
    have hpass := passesHigh_succ r g rs.length
    unfold Layer.fed at hpass ⊢
    dsimp only [List.length_cons, List.length_nil, Nat.zero_add] at hpass ⊢
    rw [if_congr hpass rfl rfl, if_congr hpass rfl rfl]
    by_cases h1 : r.passesHigh 1
    · simp [h1]
    · simp [h1]
  calc (r.fed [g]).fed rs
    _ = { r with
          ring := ((r.fed [g]).fed rs).ring, fedTime := ((r.fed [g]).fed rs).fedTime
          endFed := ((r.fed [g]).fed rs).endFed, highArmed := ((r.fed [g]).fed rs).highArmed
          lowArmed := ((r.fed [g]).fed rs).lowArmed } := rfl
    _ = r.fed (g :: rs) := by rw [hring, htime, hend, hhigh, hlow]; rfl

theorem fedState_layer (y : LayerId) (l : Link) (rs : List Record) (s : State) :
    (fedState y l rs s).layer y = (s.layer y).fed rs := by
  unfold fedState
  split
  · rw [raise_layer, layer_setLayer_same]
  · rw [layer_setLayer_same]

theorem fedState_clk (y : LayerId) (l : Link) (rs : List Record) (s : State) : (fedState y l rs s).clk = s.clk := by
  unfold fedState
  split
  · rw [raise_clk, setLayer_clk]
  · rw [setLayer_clk]

theorem setLayer_raise (l : Link) (n : Notice) (y : LayerId) (r : Layer) (s : State) :
    (raise l n s).setLayer y r = raise l n (s.setLayer y r) := by
  cases l <;> cases y <;> rfl

/-- One record joining is a feeding of that record alone. -/
theorem joinRing_eq (y : LayerId) (l : Link) (g : Record) (s : State) : joinRing y l g s = fedState y l [g] s := by
  simp only [joinRing, fedState, Layer.fed, List.length_append, List.length_singleton, List.any_cons, List.any_nil,
    Bool.or_false]
  split
  · rfl
  · rfl

theorem fedState_nil (y : LayerId) (l : Link) (s : State) : fedState y l [] s = s := by
  have hpass : ¬ (s.layer y).passesHigh 0 := by
    unfold Layer.passesHigh
    omega
  have hfed : (s.layer y).fed [] = s.layer y := by
    simp only [Layer.fed, List.length_nil, hpass, if_false, List.append_nil, List.any_nil, Bool.or_false]
    rfl
  rw [fedState, List.length_nil, if_neg hpass, hfed, setLayer_layer]

theorem fedState_fedState (y : LayerId) (l : Link) (g : Record) (rs : List Record) (s : State) :
    fedState y l rs (fedState y l [g] s) = fedState y l (g :: rs) s := by
  have hpass := passesHigh_succ (s.layer y) g rs.length
  have hnot (h : (s.layer y).passesHigh 1) := not_passesHigh_fed h g rs.length
  rw [fedState, fedState_layer, fed_fed]
  unfold fedState
  dsimp only [List.length_cons, List.length_nil, Nat.zero_add]
  rw [if_congr hpass rfl rfl]
  by_cases h1 : (s.layer y).passesHigh 1
  · rw [if_neg (hnot h1), if_pos h1, if_pos (.inl h1), setLayer_raise, setLayer_setLayer]
  · rw [if_neg h1, setLayer_setLayer]
    simp only [h1, false_or]

/-! ### Where the feeding stops (R74) -/

/-- Records that pass every test join one after the other. -/
theorem feedAll_good (hend : good ≠ [] → (s.layer y).endFed = false)
    (hgood : ∀ g ∈ good, g.legal = true ∧ (s.layer y).fedTime ≤ g.time.toNat)
    (horder : good.Pairwise fun a b => a.time.toNat ≤ b.time.toNat ∧ a.isEnd = false)
    (hroom : (s.layer y).ring.length + good.length ≤ 256) (n : Nat) :
    feedAll y l (good ++ rest) n s = feedAll y l rest (n + good.length) (fedState y l good s) := by
  induction good generalizing s n with
  | nil => rw [fedState_nil, List.nil_append, List.length_nil, Nat.add_zero]
  | cons g good ih =>
    obtain ⟨hnow, hlater⟩ := List.pairwise_cons.mp horder
    obtain ⟨hlegal, htime⟩ := hgood g List.mem_cons_self
    have hplace : ¬ 256 ≤ (s.layer y).ring.length := by rw [List.length_cons] at hroom; omega
    have hjoin : feedAll y l (g :: good ++ rest) n s = feedAll y l (good ++ rest) (n + 1) (joinRing y l g s) := by
      simp only [List.cons_append, feedAll, hend (List.cons_ne_nil g good), hlegal, Nat.not_lt.mpr htime, Config.ringPlaces,
        hplace, Bool.not_true, Bool.false_eq_true, if_false]
    have hlayer : (fedState y l [g] s).layer y = (s.layer y).fed [g] := fedState_layer ..
    rw [hjoin, joinRing_eq, ih, fedState_fedState, List.length_cons, Nat.add_assoc, Nat.add_comm 1]
    · intro hmore
      rw [hlayer]
      obtain ⟨b, hb⟩ := List.exists_mem_of_ne_nil good hmore
      simp [Layer.fed, hend, (hnow b hb).2]
    · rw [hlayer]
      exact fun b hb => ⟨(hgood b (List.mem_cons_of_mem g hb)).1, (hnow b hb).1⟩
    · exact hlater
    · rw [hlayer]
      rw [List.length_cons] at hroom
      simp only [Layer.fed, List.length_append, List.length_singleton]
      omega

/-- The record after them, if there is one, fails the test its status names. -/
def StopsWith (r : Layer) (rest : List Record) (status : Status) : Prop :=
  rest = [] ∧ status = .ok ∨ ∃ x more, rest = x :: more ∧
    (r.endFed = true ∧ status = .state ∨
      r.endFed = false ∧
        (x.legal = false ∧ status = .badVal ∨
          x.legal = true ∧
            (x.time.toNat < r.fedTime ∧ status = .order ∨
              r.fedTime ≤ x.time.toNat ∧ r.ring.length = 256 ∧ status = .full)))

theorem feedAll_rest {status : Status} (h : StopsWith (s.layer y) rest status) (n : Nat) :
    feedAll y l rest n s = ({ status := status, count := n }, s) := by
  obtain ⟨rfl, rfl⟩ | ⟨x, more, rfl, h⟩ := h
  · rfl
  · rw [feedAll]
    obtain ⟨hend, rfl⟩ | ⟨hend, ⟨hlegal, rfl⟩ | ⟨hlegal, ⟨htime, rfl⟩ | ⟨htime, hfull, rfl⟩⟩⟩ := h
    · simp [hend]
    · simp [hend, hlegal]
    · simp [hend, hlegal, htime]
    · simp [hend, hlegal, Nat.not_lt.mpr htime, hfull, Config.ringPlaces]

end

/-! ### The answer to LAYER FEED (R70, R74) -/

theorem answerLayerFeed_badVal {l : Link} {layer : Byte} {rs : List Record} {s : State} (h : 1 < layer.toNat) :
    answerLayerFeed l layer rs s = refuse .badVal s := by
  rw [answerLayerFeed, layerOf_eq_none h]

theorem answerLayerFeed_state {l : Link} {layer : Byte} {y : LayerId} {rs : List Record} {s : State}
    (hy : layer.toNat = y.code)
    (h : (s.layer y).state = .free ∨ (s.layer y).state = .ended ∨ ∀ link, (s.layer y).source ≠ some (.stream link)) :
    answerLayerFeed l layer rs s = refuse .state s := by
  simp only [answerLayerFeed, layerOf_eq_some hy]
  split
  · rfl
  · rfl
  · next binder hsource hfree hended =>
    obtain h | h | h := h
    · exact absurd h hfree
    · exact absurd h hended
    · exact absurd hsource (h binder)
  · rfl

theorem answerLayerFeed_stream {l binder : Link} {layer : Byte} {y : LayerId} {rs : List Record} {s : State}
    (hy : layer.toNat = y.code) (hfree : (s.layer y).state ≠ .free) (hended : (s.layer y).state ≠ .ended)
    (hsource : (s.layer y).source = some (.stream binder)) :
    answerLayerFeed l layer rs s =
      if binder = l then
        let (acc, t) := feedAll y l rs 0 s
        { status := acc.status
          body := byte4 acc.count ++ byte4 (t.layer y).ring.length ++ byte4 (t.layer y).fedTime
          state := t }
      else refuse .held s := by
  simp only [answerLayerFeed, layerOf_eq_some hy]
  split
  · next h => exact absurd h hfree
  · next h => exact absurd h hended
  · next binder' h _ _ =>
    cases hsource.symm.trans h
    rfl
  · next h => exact absurd hsource (h _)

/-- Settles O44: the good records join one by one, the rest stops at its first, and the reply is formed before the takings. -/
theorem layerFeedStopsAtTheFirstRefusedRecord : Obligations.LayerFeedStopsAtTheFirstRefusedRecord := by
  unfold Obligations.LayerFeedStopsAtTheFirstRefusedRecord
  refine ⟨fun l layer rs s hl h => ?_, fun l layer y good rest status s => ?_⟩
  · exact exec_of_answer (answer := fun s => (answerLayerFeed l layer rs s).thenTake) rfl hl
      (congrArg Answer.thenTake (answerLayerFeed_badVal h))
  intro rs hl hlayer r refused
  have hrefused {st : Status} (h : answerLayerFeed l layer rs s = refuse st s) : refused st :=
    exec_of_answer (answer := fun s => (answerLayerFeed l layer rs s).thenTake) rfl hl (congrArg Answer.thenTake h)
  refine ⟨fun h => hrefused (answerLayerFeed_state hlayer h), fun hfree hended hsource => hrefused ?_,
    fun hfree hended hsource => ?_⟩
  · rw [answerLayerFeed_stream hlayer hfree hended hsource, if_neg (by cases l <;> decide)]
  · intro last ended hopen hgood horder hroom hstop body
    have hfed : (fedState y l good s).layer y = r.fed good := fedState_layer ..
    have hrest : StopsWith ((fedState y l good s).layer y) rest status := by
      rw [hfed]
      simp only [StopsWith, Layer.fed, List.length_append]
      exact hstop
    have hall := (feedAll_good (l := l) (rest := rest) hopen hgood horder hroom 0).trans (feedAll_rest hrest _)
    have hanswer : answerLayerFeed l layer rs s = { status := status, body := body, state := fedState y l good s } := by
      rw [answerLayerFeed_stream hlayer hfree hended hsource, if_pos rfl, hall]
      simp only [hfed, byte4_eq, Nat.zero_add, body]
      simp [Layer.fed, Layer.fedTo, last, r]
    have hexec := exec_of_answer (i := .layerFeed l layer rs) (answer := fun s => (answerLayerFeed l layer rs s).thenTake) rfl hl
      ((congrArg Answer.thenTake hanswer).trans (thenTake_of_body (by rfl)))
    refine ⟨_, hexec, by rw [replied_link]; rfl, fun hrun => ?_⟩
    intro crosses u
    dsimp only
    rw [takeAll_of_not_running (by rw [fedState_clk]; exact hrun)]
    have hfedState : fedState y l good s = if crosses then raise l (highNotice y) u else u := rfl
    rw [hfedState]
    cases y <;> rfl

end Sys2Proof.Machine
end

section
/-! SUPPORT. ALL OFF (R86, R121, R125, R138): the instrument silenced, every present demand zeroed, the layers that lost their
last actions ended, and the power state that none of it changes. -/

namespace Sys2Proof.Machine

/-! ### The power state under acts and takings (R144) -/

theorem Acts.power {s t : State} (h : Acts s t) : t.drive.power = s.drive.power := by
  induction h with
  | refl => rfl
  | tail _ g ih => rw [g.drive]; exact ih

theorem Taking.power {s t : State} (h : Taking s t) : t.drive.power = s.drive.power := by
  cases h with
  | act h => rw [h.drive]
  | fetched y => rw [setLayer_drive]
  | pop y => rw [(popRing_frame y s).2.2.2]
  | memory k m => rfl
  | insert => rfl

theorem takeAll_power (s : State) : (takeAll s).drive.power = s.drive.power :=
  (takeAll_takings s).keep (P := fun t => t.drive.power = s.drive.power) (fun _ _ h ht => h.power.trans ht) rfl

/-! ### Every present demand zeroed (R86) -/

/-- A layer's present demands set to 0, pedal by pedal. -/
def zeroDemands (y : LayerId) (s : State) : State :=
  allPedals.foldl (fun s p => if (bankGet (s.layer y).demands p).isSome then setDemand y p (some 0) s else s) s

/-- A layer with every present demand at 0. -/
def Layer.zeroed (r : Layer) : Layer := { r with demands := bankMap (fun _ v => v.map fun _ => 0) r.demands }

theorem zeroDemands_outputs (y : LayerId) (s : State) : OutputsOnly s (zeroDemands y s) := by
  refine OutputsOnly.foldl (fun s p => ?_) _ s
  split
  · exact setDemand_outputs ..
  · exact .refl s

theorem zeroDemands_layer_other {y z : LayerId} (h : z ≠ y) (s : State) : (zeroDemands y s).layer z = s.layer z := by
  refine foldl_keeps (Q := fun t => t.layer z = s.layer z) (fun t p _ ht => ?_) s rfl
  split
  · rw [setDemand_layer, if_neg h, ht]
  · exact ht

/-- One pedal's present demand set to 0 writes 0 over a present demand of that pedal. -/
theorem zeroDemand_layer (y : LayerId) (p : Pedal) (s : State) :
    (if (bankGet (s.layer y).demands p).isSome then setDemand y p (some 0) s else s).layer y =
      { (s.layer y) with
        demands := bankSet (s.layer y).demands p ((bankGet (s.layer y).demands p).map fun _ => 0) } := by
  cases h : bankGet (s.layer y).demands p with
  | some v => rw [if_pos Option.isSome_some, setDemand_layer, if_pos rfl]; rfl
  | none =>
    have hset : bankSet (s.layer y).demands p none = (s.layer y).demands := bank_ext fun q => by
      rw [bankGet_bankSet]
      split
      · next hq => rw [hq, h]
      · rfl
    rw [if_neg (by simp), Option.map_none, hset]

theorem zeroDemands_layer_same (y : LayerId) (s : State) : (zeroDemands y s).layer y = (s.layer y).zeroed := by
  obtain ⟨b, hb⟩ : ∃ b, (zeroDemands y s).layer y = { (s.layer y) with demands := b } := by
    refine foldl_keeps (Q := fun t => ∃ b, t.layer y = { (s.layer y) with demands := b }) (fun t p _ ⟨b, ht⟩ => ?_) s
      ⟨_, rfl⟩
    rw [zeroDemand_layer, ht]
    exact ⟨_, rfl⟩
  have hzero (p : Pedal) : bankGet ((zeroDemands y s).layer y).demands p = (bankGet (s.layer y).demands p).map fun _ => 0 := by
    refine foldl_establishes (P := fun t => bankGet (t.layer y).demands p = bankGet (s.layer y).demands p)
      (Q := fun t => bankGet (t.layer y).demands p = (bankGet (s.layer y).demands p).map fun _ => 0) (x := p)
      (fun t q hq ht => ?_) (fun t ht => ?_) (fun t q hq ht => ?_) (List.mem_finRange p) (List.nodup_finRange 3) s rfl
    · rw [zeroDemand_layer, bankGet_bankSet_other _ _ (Ne.symm hq), ht]
    · rw [zeroDemand_layer, bankGet_bankSet_same, ht]
    · rw [zeroDemand_layer, bankGet_bankSet_other _ _ (Ne.symm hq), ht]
  have hbank : b = bankMap (fun _ v => v.map fun _ => 0) (s.layer y).demands := bank_ext fun p => by
    rw [hb] at hzero
    rw [hzero p, bankGet_bankMap]
  rw [hb, hbank, Layer.zeroed]

theorem zeroDemands_both_layer (s : State) (y : LayerId) :
    (zeroDemands .l1 (zeroDemands .l0 s)).layer y = (s.layer y).zeroed := by
  cases y with
  | l0 => rw [zeroDemands_layer_other (by decide), zeroDemands_layer_same]
  | l1 => rw [zeroDemands_layer_same, zeroDemands_layer_other (by decide)]

/-! ### The end of a layer that lost its last actions (R85) -/

/-- A layer that is PLAYING with its END taken, where a test holds, ENDS. -/
def Layer.endedIf (r : Layer) (b : Bool) : Layer :=
  if r.state = .playing ∧ r.endFetched = true ∧ b = true then
    { r with state := .ended, demands := Vector.replicate 3 none }
  else r

/-- A layer ends where a test holds and it is done. -/
def endWhere (b : Bool) (y : LayerId) (s : State) : State := if b then endIfDone y s else s

theorem endWhere_outputs (b : Bool) (y : LayerId) (s : State) : OutputsOnly s (endWhere b y s) := by
  unfold endWhere
  split
  · exact endIfDone_outputs ..
  · exact .refl s

theorem endWhere_eq {b : Bool} {y : LayerId} {s : State} (hplan : s.sched.plan = []) :
    endWhere b y s =
      if (s.layer y).state = .playing ∧ (s.layer y).endFetched = true ∧ b = true then
        raiseBoth .layerEnd (dropDemands y (s.setLayer y { (s.layer y) with state := .ended }))
      else s := by
  have hnone : s.planHolds y = false := planHolds_eq_false.mpr (by simp [hplan])
  cases b <;> simp [endWhere, endIfDone, hnone]

theorem endWhere_layer {b : Bool} {y : LayerId} {s : State} (hplan : s.sched.plan = []) (z : LayerId) :
    (endWhere b y s).layer z = if z = y then (s.layer y).endedIf b else s.layer z := by
  rw [endWhere_eq hplan, Layer.endedIf]
  split
  · rw [layer_eq_of_fields (raiseBoth_layer0 ..) (raiseBoth_layer1 ..)]
    split
    · next hz => rw [hz, dropDemands_layer, layer_setLayer_same]
    · next hz => rw [dropDemands_layer_other hz, layer_setLayer_other _ _ hz]
  · split
    · next hz => rw [hz]
    · rfl

theorem endWhere_noticed {b : Bool} {y : LayerId} {s : State} (hplan : s.sched.plan = [])
    (h : (s.layer y).state = .playing ∧ (s.layer y).endFetched = true ∧ b = true) (m : Link) :
    (endWhere b y s).noticed m .layerEnd = true := by
  rw [endWhere_eq hplan, if_pos h]
  exact noticed_raiseBoth ..

/-! ### ALL OFF -/

/-- What follows the keys' letting go in an ALL OFF: the demands zeroed, and the layers that had actions ended. -/
def allOffLayers (had0 had1 : Bool) (s : State) : State :=
  endWhere had1 .l1 (endWhere had0 .l0 (zeroDemands .l1 (zeroDemands .l0 s)))

theorem answerAllOff_eq (s : State) :
    answerAllOff s =
      { status := .ok, body := bytes32 (BitVec.ofNat 32 s.sched.plan.length)
        state := allOffLayers (s.planHolds .l0) (s.planHolds .l1) (letGoReported (fun _ => true) (clearPlan s)) } := by
  rw [← byte4_eq]
  rfl

theorem allOffLayers_outputs (had0 had1 : Bool) (s : State) : OutputsOnly s (allOffLayers had0 had1 s) :=
  (((zeroDemands_outputs ..).trans (zeroDemands_outputs ..)).trans (endWhere_outputs ..)).trans (endWhere_outputs ..)

/-- Both layers after an ALL OFF, whichever of them had actions. -/
theorem allOffLayers_layer {had : LayerId → Bool} {s : State} (hplan : s.sched.plan = []) (y : LayerId) :
    (allOffLayers (had .l0) (had .l1) s).layer y = (s.layer y).zeroed.endedIf (had y) ∧
      ((s.layer y).state = .playing ∧ (s.layer y).endFetched = true ∧ had y = true →
        ∀ m, (allOffLayers (had .l0) (had .l1) s).noticed m .layerEnd = true) := by
  have hzeroed := zeroDemands_both_layer s
  have hplan1 : (zeroDemands .l1 (zeroDemands .l0 s)).sched.plan = [] := by
    rw [(zeroDemands_outputs ..).sched, (zeroDemands_outputs ..).sched, hplan]
  unfold allOffLayers
  generalize zeroDemands .l1 (zeroDemands .l0 s) = u at hzeroed hplan1 ⊢
  have hplan2 : (endWhere (had .l0) .l0 u).sched.plan = [] := by rw [(endWhere_outputs ..).sched, hplan1]
  cases y with
  | l0 =>
    rw [endWhere_layer hplan2, if_neg (by decide), endWhere_layer hplan1, if_pos rfl, hzeroed]
    refine ⟨rfl, fun h m => (endWhere_outputs ..).keeps.noticed (endWhere_noticed hplan1 ?_ m)⟩
    rw [hzeroed]
    exact h
  | l1 =>
    rw [endWhere_layer hplan2, if_pos rfl, endWhere_layer hplan1, if_neg (by decide), hzeroed]
    refine ⟨rfl, fun h m => endWhere_noticed hplan2 ?_ m⟩
    rw [endWhere_layer hplan1, if_neg (by decide), hzeroed]
    exact h

/-- What an ALL OFF leaves of the plan, the wait queue and the keys while the clock is not RUNNING. -/
def State.silenced (s : State) : State :=
  { s with
    sched := { s.sched with plan := [], memory := Vector.replicate 88 none }
    drive := { s.drive with keys := bankMap (fun _ d => d.letGoIf (fun _ => true) s.now) s.drive.keys, queue := [] } }

/-- With the clock not RUNNING, the keys let go leave the scheduler nothing to process. -/
theorem letGo_cleared_eq {s : State} (h : s.clk.state ≠ .running) :
    letGoReported (fun _ => true) (clearPlan s) = s.silenced := by
  have hnothing : NothingToSchedule (letGoKeys (fun _ => true) (clearPlan s)) := by
    rw [letGoKeys_eq]
    exact ⟨rfl, .inl h⟩
  rw [letGoReported, respond_of_nothing hnothing, letGoKeys_eq]
  rfl

theorem silenced_layer (s : State) (y : LayerId) : s.silenced.layer y = s.layer y := layer_eq_of_fields rfl rfl y

theorem silenced_driveKey (s : State) (k : Key) :
    s.silenced.driveKey k = (s.driveKey k).letGoIf (fun _ => true) s.now := by
  rw [State.silenced, State.driveKey, bankGet_bankMap]
  rfl

theorem answerAllOff_power (s : State) : (answerAllOff s).state.drive.power = s.drive.power := by
  rw [answerAllOff_eq]
  dsimp only
  rw [(allOffLayers_outputs ..).drive, (letGoReported_acts ..).power]
  rfl

theorem planHolds_iff {s : State} {y : LayerId} : s.planHolds y = true ↔ ∃ a ∈ s.sched.plan, a.layer = y := by
  simp [State.planHolds]

theorem noticed_replied {s : State} {n : Notice} {m : Link} (h : s.noticed m n = true) (l : Link) (q : Request) (st : Status)
    (body : List Byte) : (s.replied l q st body).noticed m n = true := by
  unfold State.noticed at *
  by_cases hm : m = l
  · subst hm
    rw [replied_link]
    simp [h]
  · rw [replied_otherLink _ _ _ _ hm, h]

/-- Settles O47: outside RUNNING the keys' letting go leaves nothing to schedule, and the demands and ends follow layer by layer. -/
theorem allOffSilencesTheInstrument : Obligations.AllOffSilencesTheInstrument := by
  unfold Obligations.AllOffSilencesTheInstrument
  intro l s hl
  have hexec := exec_of_answer (i := .allOff l) (answer := fun s => (answerAllOff s).thenTake) rfl hl
    (thenTake_of_body (a := answerAllOff s) rfl)
  have hkeeps := (answerAllOff_keeps s).trans (takeAll_keeps _)
  refine ⟨_, hexec, by rw [replied_link, answerAllOff_eq]; rfl, by rw [replied_clk]; exact hkeeps.clk,
    by rw [replied_map]; exact hkeeps.map, by rw [replied_run]; exact hkeeps.run, by rw [replied_wall]; exact hkeeps.wall,
    by rw [replied_drive]; exact (takeAll_power _).trans (answerAllOff_power s), fun hrun => ?_⟩
  have htake : takeAll (answerAllOff s).state = (answerAllOff s).state :=
    takeAll_of_not_running (by rw [(answerAllOff_keeps s).clk]; exact hrun)
  rw [htake, answerAllOff_eq, letGo_cleared_eq hrun]
  dsimp only
  have houtputs := allOffLayers_outputs (s.planHolds .l0) (s.planHolds .l1) s.silenced
  have hlayers := allOffLayers_layer (had := s.planHolds) (s := s.silenced) rfl
  generalize allOffLayers (s.planHolds .l0) (s.planHolds .l1) s.silenced = u at houtputs hlayers ⊢
  have hmemory : u.sched.memory = Vector.replicate 88 none := by rw [houtputs.sched]; rfl
  refine ⟨?_, fun k => ?_, ?_, ?_, ?_, fun k => ?_, fun y => ?_⟩
  · rw [replied_sched, hmemory, houtputs.sched]
    rfl
  · rw [replied_sched, hmemory, bankGet_replicate]
  · rw [replied_drive, houtputs.queue]
    rfl
  · rw [replied_cap, houtputs.cap]
    rfl
  · rw [replied_store, houtputs.store]
    rfl
  · rw [← letGoIf_all, ← silenced_driveKey]
    unfold State.driveKey
    rw [replied_drive, houtputs.keys]
  · obtain ⟨hlayer, hnotice⟩ := hlayers y
    rw [silenced_layer] at hlayer hnotice
    rw [layer_replied, hlayer]
    have hends : ((s.layer y).zeroed.state = .playing ∧ (s.layer y).zeroed.endFetched = true ∧ s.planHolds y = true) ↔
        (s.layer y).state = .playing ∧ (s.layer y).endFetched = true ∧ ∃ a ∈ s.sched.plan, a.layer = y := by
      rw [planHolds_iff]
      rfl
    refine ⟨?_, fun h => ?_, fun p => ?_⟩
    · rw [Layer.endedIf, if_congr hends rfl rfl]
      split <;> rfl
    · exact noticed_both fun m => noticed_replied (hnotice (hends.mpr h) m) ..
    · rw [Layer.endedIf, if_congr hends rfl rfl]
      split
      · exact bankGet_replicate ..
      · rw [Layer.zeroed, bankGet_bankMap]

end Sys2Proof.Machine
end

section
/-! SUPPORT. Which record is taken next (R109, R110) and that takings go on until none is ready (R111). -/

namespace Sys2Proof.Machine

section
variable {s : State} {y : LayerId} {r : Record}

/-! ### The event clock-time of a record (R92) -/

/-- The event clock-time of a layer's record. -/
def State.timeOf (s : State) (y : LayerId) (r : Record) : Int :=
  eventTime ((s.layer y).origin.getD 0) r.time.toNat ((s.layer y).cue.getD 0) (s.layer y).latched.timeOffset

/-- The event clock-time of a layer's record, clamped into the clock's range. -/
def State.eventOf (s : State) (y : LayerId) (r : Record) : Nat := (max 0 (min 2147483647 (s.timeOf y r))).toNat

/-! ### The ready front records (R109) -/

/-- A layer's front record is ready. -/
structure State.Ready (s : State) (y : LayerId) (r : Record) : Prop where
  front   : (s.layer y).ring.head? = some r
  replays : (s.layer y).state = .cued ∨ (s.layer y).state = .playing
  going   : (s.layer y).endFetched = false
  running : s.clk.state = .running
  near    : s.timeOf y r ≤ (s.clk.position : Int) + 4400
  room    : s.sched.plan.length + recordNeed y r s ≤ 128

theorem readyRecord_eq_some {t : Int} : readyRecord y s = some (r, t) ↔ s.Ready y r ∧ t = s.timeOf y r := by
  unfold readyRecord
  dsimp only
  cases hring : (s.layer y).ring with
  | nil =>
    refine ⟨fun h => (nomatch h), fun h => ?_⟩
    have hfront := h.1.front
    rw [hring] at hfront
    cases hfront
  | cons x rest =>
    dsimp only
    split
    · next h =>
      obtain ⟨hstate, hend, hrun, hnear, hroom⟩ := h
      refine ⟨fun h => ?_, fun ⟨h, ht⟩ => ?_⟩
      · cases h
        exact ⟨⟨by rw [hring]; rfl, hstate, by simpa using hend, of_decide_eq_true hrun, hnear, hroom⟩, rfl⟩
      · have hfront := h.front
        rw [hring] at hfront
        cases hfront
        rw [ht]
        rfl
    · next h =>
      refine ⟨fun h => (nomatch h), fun ⟨g, _⟩ => absurd ?_ h⟩
      have hfront := g.front
      rw [hring] at hfront
      cases hfront
      exact ⟨g.replays, by simp [g.going], decide_eq_true g.running, g.near, g.room⟩

theorem readyRecord_eq_none : readyRecord y s = none ↔ ∀ q, ¬ s.Ready y q := by
  refine ⟨fun h q hq => ?_, fun h => ?_⟩
  · rw [readyRecord_eq_some.mpr ⟨hq, rfl⟩] at h
    cases h
  · cases hready : readyRecord y s with
    | none => rfl
    | some x => exact absurd (readyRecord_eq_some.mp hready).1 (h _)

theorem State.Ready.unique {q : Record} (h : s.Ready y r) (g : s.Ready y q) : q = r :=
  Option.some.inj (g.front.symm.trans h.front)

/-! ### The order of takings (R110) -/

/-- A layer's ready record is taken before the other layer's. -/
def State.Before (s : State) (y : LayerId) (r q : Record) : Prop :=
  s.timeOf y r < s.timeOf y.other q ∨ s.timeOf y r = s.timeOf y.other q ∧
    ((s.layer y.other).latched.priority < (s.layer y).latched.priority ∨
      (s.layer y.other).latched.priority = (s.layer y).latched.priority ∧ y = .l0)

/-- Of two ready records one is taken before the other, and not the other way round. -/
theorem before_iff_not (q : Record) : s.Before .l0 r q ↔ ¬ s.Before .l1 q r := by
  simp only [State.Before, LayerId.other, reduceCtorEq, and_false, and_true, or_false]
  omega

theorem Before.asymm {q : Record} (h : s.Before y r q) : ¬ s.Before y.other q r := by
  cases y with
  | l0 => exact (before_iff_not q).mp h
  | l1 => exact fun g => (before_iff_not r).mp g h

/-- A ready record that comes before any ready record of the other layer. -/
structure State.First (s : State) (y : LayerId) (r : Record) : Prop where
  ready  : s.Ready y r
  before : ∀ q, s.Ready y.other q → s.Before y r q

theorem first_of_nextTaking (h : nextTaking s = some (y, r)) : s.First y r := by
  unfold nextTaking at h
  split at h
  · cases h
  · next h0 h1 =>
    cases h
    exact ⟨(readyRecord_eq_some.mp h0).1, fun q hq => absurd hq (readyRecord_eq_none.mp h1 q)⟩
  · next h0 h1 =>
    cases h
    exact ⟨(readyRecord_eq_some.mp h1).1, fun q hq => absurd hq (readyRecord_eq_none.mp h0 q)⟩
  · next r0 t0 r1 t1 h0 h1 =>
    obtain ⟨hready0, rfl⟩ := readyRecord_eq_some.mp h0
    obtain ⟨hready1, rfl⟩ := readyRecord_eq_some.mp h1
    have htest : s.Before .l1 r1 r0 ↔ s.timeOf .l1 r1 < s.timeOf .l0 r0 ∨
        s.timeOf .l1 r1 = s.timeOf .l0 r0 ∧ s.layer0.latched.priority < s.layer1.latched.priority := by
      simp only [State.Before, LayerId.other, reduceCtorEq, and_false, or_false]
      rfl
    split at h
    · next hbefore =>
      cases h
      exact ⟨hready1, fun q hq => hready0.unique hq ▸ htest.mpr hbefore⟩
    · next hbefore =>
      cases h
      exact ⟨hready0, fun q hq => hready1.unique hq ▸ (before_iff_not _).mpr (hbefore ∘ htest.mp)⟩

/-- Two records that each come first are one. -/
theorem State.First.unique {z : LayerId} {q : Record} (h : s.First y r) (g : s.First z q) : z = y ∧ q = r := by
  by_cases hz : z = y
  · subst hz
    exact ⟨rfl, h.ready.unique g.ready⟩
  · obtain rfl : z = y.other := by revert hz; cases y <;> cases z <;> decide
    have hback := g.before r (by cases y <;> exact h.ready)
    exact absurd hback (Before.asymm (h.before q g.ready))

/-- The next taking is that of the first ready record. -/
theorem nextTaking_eq_some : nextTaking s = some (y, r) ↔ s.First y r := by
  refine ⟨first_of_nextTaking, fun h => ?_⟩
  cases hnext : nextTaking s with
  | none => exact absurd h.ready (readyRecord_eq_none.mp (nextTaking_eq_none hnext y) r)
  | some x =>
    obtain ⟨hz, hq⟩ := h.unique (first_of_nextTaking hnext)
    rw [← hz, ← hq]

end

/-! ### Takings until none is ready (R111) -/

theorem takeLoop_add (m n : Nat) (s : State) : takeLoop (m + n) s = takeLoop n (takeLoop m s) := by
  induction m generalizing s with
  | zero => rw [Nat.zero_add]; rfl
  | succ m ih =>
    rw [Nat.succ_add, takeLoop, takeLoop]
    split
    · next h =>
      cases n with
      | zero => rfl
      | succ n => rw [takeLoop, h]
    · exact ih _

/-- A bound above the records left makes no difference. -/
theorem takeLoop_of_le {fuel : Nat} {s : State} (hs : StoreSound s) (hb : BindingsAgree s)
    (h : s.recordsLeft .l0 + s.recordsLeft .l1 ≤ fuel) : takeLoop fuel s = takeAll s := by
  obtain ⟨d, rfl⟩ := Nat.exists_eq_add_of_le h
  rw [takeLoop_add, ← takeAll]
  have hnone := nextTaking_takeAll hs hb
  cases d with
  | zero => rfl
  | succ d => rw [takeLoop, hnone]

theorem takeAll_of_nextTaking {s : State} {y : LayerId} {r : Record} (h : nextTaking s = some (y, r)) (hs : StoreSound s)
    (hb : BindingsAgree s) : takeAll s = takeAll (takeRecord y r s) := by
  have hless := takeRecord_recordsLeft hs hb h
  have hkept := (takeRecord_takings y r s).preserves
  obtain ⟨n, hn⟩ := Nat.exists_eq_add_of_lt hless
  rw [takeAll, hn, takeLoop, h]
  exact takeLoop_of_le (hkept.store hs) (hkept.bindings hs hb) (Nat.le_add_right ..)

end Sys2Proof.Machine
end

section
/-! SUPPORT. What a record handed on does to the plan (R84, R108, R112 to R116): one equation per kind of record, through the
actions it inserts and the key memory it leaves. -/

namespace Sys2Proof.Machine

section
variable {s : State} {y : LayerId} {r : Record} {k : Key}

/-! ### Actions put into the plan (R112) -/

/-- The state with actions inserted in the plan and the key memory replaced. -/
def State.planned (s : State) (actions : List Action) (memory : Bank (Option KeyMemory) 88) : State :=
  { s with sched := { s.sched with
    plan := actions.foldl (fun p a => planInsert a p) s.sched.plan, memory := memory
    nextSerial := s.sched.nextSerial + actions.length } }

theorem planned_planned (s : State) (as bs : List Action) (m m' : Bank (Option KeyMemory) 88) :
    (s.planned as m).planned bs m' = s.planned (as ++ bs) m' := by
  simp only [State.planned, List.foldl_append, List.length_append, Nat.add_assoc]

theorem insertAction_eq (y : LayerId) (event : Nat) (due : Int) (lead : Nat) (body : ActionBody) (s : State) :
    insertAction y event due lead body s =
      s.planned [{ serial := s.sched.nextSerial, layer := y, event := event, due := due, lead := lead, body := body }]
        s.sched.memory := rfl

theorem setMemory_planned (s : State) (k : Key) (m : Option KeyMemory) (as : List Action)
    (memory : Bank (Option KeyMemory) 88) : setMemory k m (s.planned as memory) = s.planned as (bankSet memory k m) := rfl

/-- A key's memory closed where it is a layer's (R108). -/
def closedFor (y : LayerId) (k : Key) (memory : Bank (Option KeyMemory) 88) : Bank (Option KeyMemory) 88 :=
  match bankGet memory k with
  | some m => if m.layer = y then bankSet memory k none else memory
  | none => memory

theorem bankGet_closedFor (y : LayerId) (k j : Key) (memory : Bank (Option KeyMemory) 88) :
    bankGet (closedFor y k memory) j =
      if j = k ∧ (bankGet memory k).map KeyMemory.layer = some y then none else bankGet memory j := by
  unfold closedFor
  cases h : bankGet memory k with
  | none => simp
  | some m =>
    dsimp only
    split
    · next hm => rw [bankGet_bankSet]; simp [hm]
    · next hm => simp [hm]

theorem bankSet_closedFor (y : LayerId) (k : Key) (m : Option KeyMemory) (memory : Bank (Option KeyMemory) 88) :
    bankSet (closedFor y k memory) k m = bankSet memory k m := bank_ext fun j => by
  rw [bankGet_bankSet, bankGet_bankSet]
  split
  · rfl
  · next hj => rw [bankGet_closedFor, if_neg fun h => hj h.1]

theorem insertRelease_eq (y : LayerId) (k : Key) (event : Nat) (auto : Option AutoFlag) (s : State) :
    insertRelease y k event auto s =
      s.planned
        [{ serial := s.sched.nextSerial, layer := y, event := event, due := event, lead := 0, body := .release k auto }]
        (closedFor y k s.sched.memory) := by
  unfold insertRelease closedFor
  cases h : bankGet s.sched.memory k with
  | none => rfl
  | some m =>
    dsimp only
    split
    · rfl
    · rfl

/-! ### The END of a layer (R85, R116) -/

theorem heldBy_eq (s : State) (y : LayerId) (k : Key) :
    s.heldBy y k =
      (match bankGet s.sched.memory k with
        | some m => decide (m.layer = y)
        | none =>
          decide (((s.driveKey k).state = .strike ∨ (s.driveKey k).state = .sustain) ∧ (s.driveKey k).owner = some y)) := by
  unfold State.heldBy State.holder
  cases hm : bankGet s.sched.memory k with
  | some m => rfl
  | none =>
    cases ho : (s.driveKey k).owner with
    | none => split <;> simp_all
    | some z =>
      by_cases hk : (s.driveKey k).state.holdsKey = true
      · simp [hk, ho, holdsKey_iff.mp hk]
      · simp [hk, mt holdsKey_iff.mpr hk]

/-- The end releases of some keys, their serial numbers from one on. -/
def endReleases (y : LayerId) (event n : Nat) (keys : List (Key × Nat)) : List Action :=
  keys.map fun x =>
    { serial := n + x.2, layer := y, event := event, due := event, lead := 0, body := .release x.1 (some .ending) }

/-- The key memory with the memories of some keys closed where they are a layer's. -/
def allClosed (y : LayerId) (keys : List Key) (memory : Bank (Option KeyMemory) 88) : Bank (Option KeyMemory) 88 :=
  bankMap (fun k m => if k ∈ keys ∧ m.map KeyMemory.layer = some y then none else m) memory

theorem allClosed_cons (y : LayerId) (k : Key) (keys : List Key) (memory : Bank (Option KeyMemory) 88) :
    allClosed y keys (closedFor y k memory) = allClosed y (k :: keys) memory := bank_ext fun j => by
  simp only [allClosed, bankGet_bankMap, bankGet_closedFor, List.mem_cons]
  by_cases hj : j = k
  · subst hj
    by_cases hm : (bankGet memory j).map KeyMemory.layer = some y <;> simp [hm]
  · simp [hj]

theorem endReleases_inserted (y : LayerId) (event n : Nat) (keys : List Key) :
    ∀ (s : State) (i : Nat), s.sched.nextSerial = n + i →
      keys.foldl (fun s k => insertRelease y k event (some .ending) s) s =
        s.planned (endReleases y event n (keys.zipIdx i)) (allClosed y keys s.sched.memory) := by
  induction keys with
  | nil =>
    intro s i _
    have hmemory : allClosed y [] s.sched.memory = s.sched.memory := bank_ext fun j => by simp [allClosed, bankGet_bankMap]
    rw [hmemory]
    rfl
  | cons k keys ih =>
    intro s i hn
    rw [List.foldl_cons, insertRelease_eq, ih _ (i + 1) (congrArg (· + 1) hn), planned_planned]
    simp only [State.planned, allClosed_cons, List.zipIdx_cons, endReleases, List.map_cons, hn]
    rfl

end

end Sys2Proof.Machine
end

section
/-! SUPPORT. What a record handed on becomes (R84, R92, R97, R99, R114, R115, R116), kind by kind. -/

namespace Sys2Proof.Machine

section
variable {s : State} {y : LayerId} {r : Record}

/-! ### The kinds of record (R84) -/

theorem handRecord_end (h : r.kind = 6) : handRecord y r s = handEnd y r s := by
  rw [handRecord, h]
  rfl

theorem handRecord_mark (h : r.kind = 5) : handRecord y r s = s := by
  rw [handRecord, h]
  rfl

theorem handRecord_pedal {p : Pedal} (h : r.kind = 4) (hp : r.target.toNat = p.val) :
    handRecord y r s = if bankGet (s.layer y).latched.pass p then handPedalRecord y r p s else s := by
  rw [handRecord, h, pedalOf_of_eq hp]
  rfl

theorem handRecord_key (h : r.kind = 1 ∨ r.kind = 2 ∨ r.kind = 3) : handRecord y r s = handWindow y r s := by
  rw [handRecord]
  obtain h | h | h := h <;> rw [h] <;> rfl

/-! ### Event clock-times in and out of range (R97) -/

/-- A record's event clock-time lies in the clock's range. -/
def State.InTime (s : State) (y : LayerId) (r : Record) : Prop := 0 ≤ s.timeOf y r ∧ s.timeOf y r ≤ 2147483647

/-- The model's own test of a record's event clock-time. -/
theorem outOfTime_iff : ¬ s.InTime y r ↔
    eventTime ((s.layer y).origin.getD 0) r.time.toNat ((s.layer y).cue.getD 0) (s.layer y).latched.timeOffset < 0 ∨
      (Config.clockLimit : Int) <
        eventTime ((s.layer y).origin.getD 0) r.time.toNat ((s.layer y).cue.getD 0) (s.layer y).latched.timeOffset := by
  unfold State.InTime State.timeOf
  simp only [Config.clockLimit]
  omega

theorem clampedTime_eq (s : State) (y : LayerId) (r : Record) :
    (clampInt 0 Config.clockLimit
      (eventTime ((s.layer y).origin.getD 0) r.time.toNat ((s.layer y).cue.getD 0) (s.layer y).latched.timeOffset)).toNat =
        s.eventOf y r := by
  rw [clampInt_eq (by decide)]
  rfl

theorem eventOf_inTime (h : s.InTime y r) : (s.timeOf y r).toNat = s.eventOf y r ∧ (s.eventOf y r : Int) = s.timeOf y r := by
  obtain ⟨hlow, hhigh⟩ := h
  unfold State.eventOf
  omega

/-! ### END (R85, R116) -/

theorem handEnd_eq (y : LayerId) (r : Record) (s : State) :
    handEnd y r s =
      (s.setLayer y { (s.layer y) with endFetched := true }).planned
        (endReleases y (s.eventOf y r) s.sched.nextSerial (s.keysHeld y).zipIdx)
        (allClosed y (s.keysHeld y) s.sched.memory) := by
  unfold handEnd
  dsimp only
  rw [clampedTime_eq, endReleases_inserted y _ s.sched.nextSerial _ _ 0 (by rw [setLayer_sched]; rfl), setLayer_sched]

/-- The memories an END closes are those of the keys its layer holds. -/
theorem allClosed_keysHeld (s : State) (y : LayerId) :
    allClosed y (s.keysHeld y) s.sched.memory = bankMap (fun k m => if s.heldBy y k then none else m) s.sched.memory :=
  bank_ext fun k => by
    have hheld : k ∈ s.keysHeld y ↔ s.heldBy y k = true := by simp [State.keysHeld, allKeys]
    rw [allClosed, bankGet_bankMap, bankGet_bankMap]
    cases hm : bankGet s.sched.memory k with
    | none => simp
    | some m =>
      have hlayer : s.heldBy y k = decide (m.layer = y) := by rw [heldBy_eq, hm]
      simp [hheld, hlayer]

/-! ### PEDAL (R99) -/

theorem handPedalRecord_range {p : Pedal} (h : ¬ s.InTime y r) :
    handPedalRecord y r p s = addDrop (DropEntry.mk .range (.pedal p.val) y (s.eventOf y r) none) s := by
  unfold handPedalRecord
  dsimp only
  rw [if_pos (outOfTime_iff.mp h), clampedTime_eq]

theorem handPedalRecord_unset {p : Pedal} (h : s.InTime y r) (he : (bankGet s.map.pedals p).state ≠ 1) :
    handPedalRecord y r p s = addDrop (DropEntry.mk .unset (.pedal p.val) y (s.eventOf y r) none) s := by
  have hunset : (bankGet s.map.pedals p).isSet = false := decide_eq_false he
  unfold handPedalRecord
  dsimp only
  rw [if_neg (mt outOfTime_iff.mpr (not_not_intro h)), hunset, clampedTime_eq]
  rfl

theorem handPedalRecord_set {p : Pedal} (h : s.InTime y r) (he : (bankGet s.map.pedals p).state = 1) :
    handPedalRecord y r p s =
      s.planned
        [{ serial := s.sched.nextSerial, layer := y, event := s.eventOf y r
           due := s.timeOf y r - (bankGet s.map.pedals p).lead.toNat, lead := (bankGet s.map.pedals p).lead.toNat
           body := .pedal p r.value.toNat }] s.sched.memory := by
  have hset : (bankGet s.map.pedals p).isSet = true := decide_eq_true he
  rw [← (eventOf_inTime h).1, ← insertAction_eq]
  unfold handPedalRecord
  dsimp only
  rw [if_neg (mt outOfTime_iff.mpr (not_not_intro h)), hset]
  rfl

/-! ### The window and the transposition (R84) -/

/-- A record's key lies outside its layer's window. -/
def State.OutOfWindow (s : State) (y : LayerId) (r : Record) : Prop :=
  r.target.toNat < (s.layer y).latched.winLow ∨ (s.layer y).latched.winHigh < r.target.toNat

theorem handWindow_out (h : s.OutOfWindow y r) : handWindow y r s = s := if_pos h

theorem handWindow_muted (hk : r.kind ≠ 3) (h : (s.layer y).latched.mute = true) : handWindow y r s = s := by
  have hkind : r.kind.toNat ≠ kindRelease := fun e => hk (BitVec.eq_of_toNat_eq e)
  unfold handWindow
  dsimp only
  split
  · rfl
  · exact if_pos ⟨hkind, h⟩

theorem not_muted (hm : r.kind ≠ 3 → (s.layer y).latched.mute = false) :
    ¬ (r.kind.toNat ≠ kindRelease ∧ (s.layer y).latched.mute = true) := fun ⟨hk, hmute⟩ => by
  rw [hm fun e => hk (by rw [e]; rfl)] at hmute
  cases hmute

theorem handWindow_offKeyboard (h : ¬ s.OutOfWindow y r) (hm : r.kind ≠ 3 → (s.layer y).latched.mute = false)
    (hk : (r.target.toNat : Int) + (s.layer y).latched.transpose < 0 ∨
      87 < (r.target.toNat : Int) + (s.layer y).latched.transpose) :
    handWindow y r s = addDrop (DropEntry.mk .range (.key r.target.toNat) y (s.eventOf y r) none) s := by
  have hnone : (if (r.target.toNat : Int) + (s.layer y).latched.transpose < 0 then none
      else keyOf ((r.target.toNat : Int) + (s.layer y).latched.transpose).toNat) = none := by
    split
    · rfl
    · exact keyOf_of_gt (by omega)
  refine (if_neg h).trans ((if_neg (not_muted hm)).trans ?_)
  dsimp only
  rw [hnone, clampedTime_eq]

theorem handWindow_key {k : Key} (h : ¬ s.OutOfWindow y r) (hm : r.kind ≠ 3 → (s.layer y).latched.mute = false)
    (hk : (k.val : Int) = (r.target.toNat : Int) + (s.layer y).latched.transpose) :
    handWindow y r s = handKeyRecord y r k s := by
  refine (if_neg h).trans ((if_neg (not_muted hm)).trans ?_)
  dsimp only
  rw [← hk, if_neg (by omega), keyOf_of_eq (Int.toNat_natCast _)]

/-! ### Records on a key (R92, R97, R99) -/

section
variable {k : Key}

theorem handKeyRecord_range (h : ¬ s.InTime y r) :
    handKeyRecord y r k s = addDrop (DropEntry.mk .range (.key k.val) y (s.eventOf y r) none) s := by
  unfold handKeyRecord
  dsimp only
  rw [if_pos (outOfTime_iff.mp h), clampedTime_eq]

theorem handKeyRecord_unset (h : s.InTime y r) (hk : r.kind = 1 ∨ r.kind = 2) (he : (bankGet s.map.keys k).state ≠ 1) :
    handKeyRecord y r k s =
      addDrop (DropEntry.mk .unset (.key k.val) y (s.eventOf y r)
        (if r.kind = 1 then
          some (layerVelocity r.value.toNat (s.layer y).latched.scale (s.layer y).latched.velOffset) else none)) s := by
  have hunset : (bankGet s.map.keys k).isSet = false := decide_eq_false he
  unfold handKeyRecord
  dsimp only
  rw [if_neg (mt outOfTime_iff.mpr (not_not_intro h)), hunset, clampedTime_eq]
  obtain hk | hk := hk <;> rw [hk] <;> rfl

theorem handKeyRecord_release (h : s.InTime y r) (hk : r.kind = 3) :
    handKeyRecord y r k s =
      s.planned
        [{ serial := s.sched.nextSerial, layer := y, event := s.eventOf y r, due := s.eventOf y r, lead := 0
           body := .release k none }] (closedFor y k s.sched.memory) := by
  rw [← insertRelease_eq, ← (eventOf_inTime h).1]
  unfold handKeyRecord
  dsimp only
  rw [if_neg (mt outOfTime_iff.mpr (not_not_intro h)), hk]
  rfl

theorem handKeyRecord_depress (h : s.InTime y r) (hk : r.kind = 2) (he : (bankGet s.map.keys k).state = 1) :
    handKeyRecord y r k s =
      s.planned
        [{ serial := s.sched.nextSerial, layer := y, event := s.eventOf y r
           due := s.timeOf y r - depressLead (bankGet s.map.keys k), lead := depressLead (bankGet s.map.keys k)
           body := .depress k (bankGet s.map.keys k).sd.toNat }]
        (bankSet s.sched.memory k
          (some { layer := y, depress := true, event := s.eventOf y r, serial := s.sched.nextSerial })) := by
  have hset : (bankGet s.map.keys k).isSet = true := decide_eq_true he
  rw [← setMemory_planned s k _ _ s.sched.memory, ← insertAction_eq, ← (eventOf_inTime h).1]
  unfold handKeyRecord
  dsimp only
  rw [if_neg (mt outOfTime_iff.mpr (not_not_intro h)), hk, hset]
  rfl

theorem handKeyRecord_strike (h : s.InTime y r) (hk : r.kind = 1) (he : (bankGet s.map.keys k).state = 1) :
    handKeyRecord y r k s =
      insertStrike y k (s.eventOf y r)
        (layerVelocity r.value.toNat (s.layer y).latched.scale (s.layer y).latched.velOffset)
        (bankGet s.map.keys k).rm.toNat
        (strikeValues (bankGet s.map.keys k) s.map.integrity
          (layerVelocity r.value.toNat (s.layer y).latched.scale (s.layer y).latched.velOffset)) s := by
  have hset : (bankGet s.map.keys k).isSet = true := decide_eq_true he
  rw [← (eventOf_inTime h).1]
  unfold handKeyRecord
  dsimp only
  rw [if_neg (mt outOfTime_iff.mpr (not_not_intro h)), hk, hset]
  rfl

/-! ### A strike among its rivals and behind a held key (R114, R115) -/

/-- A strike of the other layer, planned on the same key within the repeat margin. -/
def Action.Rivals (y : LayerId) (k : Key) (event rm : Nat) (a : Action) : Prop :=
  a.layer = y.other ∧ (∃ v d f w, a.body = .strike k v d f w) ∧ max a.event event - min a.event event < rm

theorem strikeKey_eq_some {a : Action} : a.strikeKey? = some k ↔ ∃ v d f w, a.body = .strike k v d f w := by
  unfold Action.strikeKey?
  cases a.body <;> simp

theorem conflicts_iff {event rm : Nat} {a : Action} : conflicts y k event rm a = true ↔ a.Rivals y k event rm := by
  have hother : a.layer ≠ y ↔ a.layer = y.other := by cases y <;> cases a.layer <;> decide
  simp only [conflicts, Bool.and_eq_true, decide_eq_true_eq, strikeKey_eq_some, hother, Action.Rivals]
  tauto

/-- A layer's strike is kept over its rivals. -/
def State.Wins (s : State) (y : LayerId) : Prop :=
  (s.layer y.other).latched.priority < (s.layer y).latched.priority ∨
    (s.layer y.other).latched.priority = (s.layer y).latched.priority ∧ y = .l0

/-- A strike's action under a serial number. -/
def strikeAction (y : LayerId) (k : Key) (event : Nat) (due : Int) (v : Nat) (sv : StrikeValues) (serial : Nat) : Action :=
  { serial := serial, layer := y, event := event, due := due, lead := sv.lead
    body := .strike k v sv.demand sv.flight none }

/-- The memory of a key that a strike has made OPEN. -/
def strikeMemory (y : LayerId) (event serial : Nat) : KeyMemory :=
  { layer := y, depress := false, event := event, serial := serial }

variable {event v rm : Nat} {due : Int} {sv : StrikeValues}

/-- The model's own test of a strike against its rivals. -/
theorem strikeTest_iff :
    ((s.sched.plan.filter (conflicts y k event rm)).isEmpty ||
        decide ((s.layer y.other).latched.priority < (s.layer y).latched.priority) ||
        (decide ((s.layer y.other).latched.priority = (s.layer y).latched.priority) && y == .l0)) = true ↔
      (∀ a ∈ s.sched.plan, ¬ a.Rivals y k event rm) ∨ s.Wins y := by
  have hnone : (s.sched.plan.filter (conflicts y k event rm)).isEmpty = true ↔
      ∀ a ∈ s.sched.plan, ¬ a.Rivals y k event rm := by
    simp only [List.isEmpty_iff, List.filter_eq_nil_iff, conflicts_iff]
  simp only [Bool.or_eq_true, hnone, Bool.and_eq_true, decide_eq_true_eq, beq_iff_eq, State.Wins, or_assoc]

theorem insertStrike_loses (hrival : ∃ a ∈ s.sched.plan, a.Rivals y k event rm) (hwins : ¬ s.Wins y) :
    insertStrike y k event v rm sv s = addDrop (DropEntry.mk .merge (.key k.val) y event (some v)) s := by
  refine if_neg fun h => ?_
  obtain ⟨a, ha, hr⟩ := hrival
  exact (strikeTest_iff.mp h).elim (fun hnone => hnone a ha hr) hwins

/-- A strike that no rival bars is inserted past its auto-release. -/
theorem insertStrike_inserted (hdue : (event : Int) - sv.lead = due)
    (h : (∀ a ∈ s.sched.plan, ¬ a.Rivals y k event rm) ∨ s.Wins y) :
    let u := autoRelease k due ((s.sched.plan.filter (conflicts y k event rm)).foldl (mergeOut k) s)
    insertStrike y k event v rm sv s =
      u.planned [strikeAction y k event due v sv u.sched.nextSerial]
        (bankSet u.sched.memory k (some (strikeMemory y event u.sched.nextSerial))) := by
  subst hdue
  exact if_pos (strikeTest_iff.mpr h)

theorem insertStrike_unrivalled (hdue : (event : Int) - sv.lead = due)
    (h : ∀ a ∈ s.sched.plan, ¬ a.Rivals y k event rm) :
    let u := autoRelease k due s
    insertStrike y k event v rm sv s =
      u.planned [strikeAction y k event due v sv u.sched.nextSerial]
        (bankSet u.sched.memory k (some (strikeMemory y event u.sched.nextSerial))) := by
  have hnone : s.sched.plan.filter (conflicts y k event rm) = [] := by
    simp only [List.filter_eq_nil_iff, conflicts_iff]
    exact h
  have hinserted := insertStrike_inserted (v := v) hdue (.inl h)
  rw [hnone] at hinserted
  exact hinserted

theorem autoRelease_of_holder {z : LayerId} {ref : Nat} (h : s.holder k = some (z, ref)) :
    autoRelease k due s =
      s.planned
        [{ serial := s.sched.nextSerial, layer := z, event := (max (due - s.sched.rise) ref).toNat
           due := max (due - s.sched.rise) ref, lead := 0, body := .release k (some .repetition) }]
        (closedFor z k s.sched.memory) := by
  have hdue : ((max (due - s.sched.rise) (ref : Int)).toNat : Int) = max (due - s.sched.rise) ref := by omega
  rw [autoRelease, h]
  dsimp only
  rw [insertRelease_eq, hdue]

/-- A strike on a key no layer holds. -/
theorem insertStrike_free (hdue : (event : Int) - sv.lead = due) (h : ∀ a ∈ s.sched.plan, ¬ a.Rivals y k event rm)
    (hk : s.holder k = none) :
    insertStrike y k event v rm sv s =
      s.planned [strikeAction y k event due v sv s.sched.nextSerial]
        (bankSet s.sched.memory k (some (strikeMemory y event s.sched.nextSerial))) := by
  have hauto (due : Int) : autoRelease k due s = s := by rw [autoRelease, hk]
  rw [insertStrike_unrivalled hdue h, hauto]

/-- A strike on a key a layer holds comes after its auto-release. -/
theorem insertStrike_held {z : LayerId} {ref : Nat} (hdue : (event : Int) - sv.lead = due)
    (h : ∀ a ∈ s.sched.plan, ¬ a.Rivals y k event rm) (hk : s.holder k = some (z, ref)) :
    let at_ : Int := max (due - s.sched.rise) ref
    insertStrike y k event v rm sv s =
      s.planned
        [{ serial := s.sched.nextSerial, layer := z, event := at_.toNat, due := at_, lead := 0
           body := .release k (some .repetition) },
          strikeAction y k event due v sv (s.sched.nextSerial + 1)]
        (bankSet s.sched.memory k (some (strikeMemory y event (s.sched.nextSerial + 1)))) := by
  dsimp only
  rw [insertStrike_unrivalled hdue h, autoRelease_of_holder hk, planned_planned]
  exact congrArg (s.planned _) (bankSet_closedFor ..)

theorem holder_eq_none (hm : bankGet s.sched.memory k = none)
    (ho : (s.driveKey k).state = .strike ∨ (s.driveKey k).state = .sustain → (s.driveKey k).owner = none) :
    s.holder k = none := by
  rw [State.holder, hm]
  dsimp only
  split
  · next hk => rw [ho (holdsKey_iff.mp hk)]; rfl
  · rfl

theorem holder_eq_some {z : LayerId} {ref : Nat}
    (h : (∃ m, bankGet s.sched.memory k = some m ∧ z = m.layer ∧ ref = m.event) ∨
      bankGet s.sched.memory k = none ∧ ((s.driveKey k).state = .strike ∨ (s.driveKey k).state = .sustain) ∧
        (s.driveKey k).owner = some z ∧ ref = s.clk.position) : s.holder k = some (z, ref) := by
  obtain ⟨m, hm, rfl, rfl⟩ | ⟨hm, hk, ho, rfl⟩ := h
  · rw [State.holder, hm]
  · rw [State.holder, hm]
    dsimp only
    rw [if_pos (holdsKey_iff.mpr hk), ho]
    rfl

/-! ### Strikes merged out (R114) -/

theorem mergeOut_plan (k : Key) {s : State} {a : Action} (ha : ∃ v d f w, a.body = .strike k v d f w) :
    (mergeOut k s a).sched.plan = s.sched.plan.filter fun b => b.serial ≠ a.serial := by
  obtain ⟨v, d, f, w, hbody⟩ := ha
  have hmemory (t : State) (h : t.sched.plan = s.sched.plan) :
      (dropStrike .merge a t).sched.plan = s.sched.plan.filter fun b => b.serial ≠ a.serial := by
    rw [(dropped_dropStrike .merge t hbody).plan, h]
  unfold mergeOut
  dsimp only
  split
  · split
    · exact hmemory _ rfl
    · exact hmemory _ rfl
  · exact hmemory _ rfl

/-- Of strikes merged out one by one none is left, and nothing else is new. -/
theorem mem_merged (k : Key) (as : List Action) (has : ∀ a ∈ as, ∃ v d f w, a.body = .strike k v d f w) :
    ∀ (s : State) (b : Action), b ∈ (as.foldl (mergeOut k) s).sched.plan →
      b ∈ s.sched.plan ∧ ∀ a ∈ as, b.serial ≠ a.serial := by
  induction as with
  | nil => exact fun s b hb => ⟨hb, fun a ha => nomatch ha⟩
  | cons a as ih =>
    intro s b hb
    obtain ⟨hmem, hlater⟩ := ih (fun x hx => has x (List.mem_cons_of_mem a hx)) _ b hb
    rw [mergeOut_plan k (has a List.mem_cons_self), List.mem_filter] at hmem
    refine ⟨hmem.1, fun x hx => ?_⟩
    obtain rfl | hx := List.mem_cons.mp hx
    · exact of_decide_eq_true hmem.2
    · exact hlater x hx

theorem mem_autoRelease {b : Action} (h : b ∈ (autoRelease k due s).sched.plan) :
    b ∈ s.sched.plan ∨ ∃ auto, b.body = .release k auto := by
  cases hk : s.holder k with
  | none =>
    rw [autoRelease, hk] at h
    exact .inl h
  | some x =>
    rw [autoRelease_of_holder hk] at h
    obtain rfl | h := mem_planInsert.mp h
    · exact .inr ⟨_, rfl⟩
    · exact .inl h

/-- A strike that wins over its rivals leaves none of them. -/
theorem insertStrike_wins (hdue : (event : Int) - sv.lead = due) (h : s.Wins y) :
    (∀ a ∈ (insertStrike y k event v rm sv s).sched.plan, ¬ a.Rivals y k event rm) ∧
      ∃ n, strikeAction y k event due v sv n ∈ (insertStrike y k event v rm sv s).sched.plan := by
  rw [insertStrike_inserted hdue (.inr h)]
  refine ⟨fun a ha hrival => ?_, _, mem_planInsert.mpr (.inl rfl)⟩
  obtain ⟨hlayer, ⟨v', d, f, w, hbody⟩, -⟩ := id hrival
  obtain rfl | ha := mem_planInsert.mp ha
  · have hself : y = y.other := hlayer
    revert hself
    cases y <;> decide
  · obtain ha | ⟨auto, hrelease⟩ := mem_autoRelease ha
    · obtain ⟨hold, hgone⟩ := mem_merged k _
        (fun x hx => (conflicts_iff.mp (List.mem_filter.mp hx).2).2.1) s a ha
      exact hgone a (List.mem_filter.mpr ⟨hold, conflicts_iff.mpr hrival⟩) rfl
    · rw [hbody] at hrelease
      cases hrelease

end

end

end Sys2Proof.Machine
end

section
/-! SUPPORT. The END that ends its layer at once (R85), and what a taken record becomes, kind by kind. -/

namespace Sys2Proof.Machine

section
variable {s : State} {y : LayerId} {r : Record}

/-! ### An END that ends its layer (R85) -/

theorem Acts.endFetched {t : State} (h : Acts s t) (y : LayerId) : (t.layer y).endFetched = (s.layer y).endFetched := by
  induction h with
  | refl => rfl
  | tail _ g ih =>
    refine Eq.trans ?_ ih
    cases g with
    | close time hrec => unfold closeCapture; split <;> exact congrArg Layer.endFetched (layer_eq_of_fields rfl rfl y)
    | layer z l h =>
      by_cases hz : y = z
      · subst hz; rw [layer_setLayer_same, h.endFetched]
      · rw [layer_setLayer_other _ _ hz]
    | wait w a hmem hk htold => rw [waitStrike_eq]; exact congrArg Layer.endFetched (layer_eq_of_fields rfl rfl y)
    | _ => exact congrArg Layer.endFetched (layer_eq_of_fields rfl rfl y)

/-- A layer all of whose actions have left the plan gets none from acts. -/
theorem Acts.planHolds {t : State} (h : Acts s t) (hs : s.planHolds y = false) : t.planHolds y = false := by
  rw [planHolds_eq_false] at hs ⊢
  intro b hb
  obtain ⟨a, ha, rfl | ⟨w, rfl⟩⟩ := h.planLeft.old b hb
  · exact hs b ha
  · rw [withWait_layer]
    exact hs a ha

theorem endIfDone_done (h : (s.layer y).state = .playing ∨ (s.layer y).state = .ended) (he : (s.layer y).endFetched = true)
    (hp : s.planHolds y = false) : ((endIfDone y s).layer y).state = .ended := by
  obtain h | h := h
  · have heq : endIfDone y s = raiseBoth .layerEnd (dropDemands y (s.setLayer y { (s.layer y) with state := .ended })) :=
      if_pos ⟨h, he, by simp [hp]⟩
    rw [heq, layer_eq_of_fields (raiseBoth_layer0 ..) (raiseBoth_layer1 ..), dropDemands_layer, layer_setLayer_same]
  · obtain heq | ⟨-, hended⟩ := endIfDone_cases y s
    · rw [heq, h]
    · exact hended

theorem planned_layer (s : State) (as : List Action) (m : Bank (Option KeyMemory) 88) (y : LayerId) :
    (s.planned as m).layer y = s.layer y := layer_eq_of_fields rfl rfl y

theorem takeRecord_ends (hk : r.kind = 6) (hplaying : (s.layer y).state = .playing) (hkeys : s.keysHeld y = [])
    (hplan : ∀ a ∈ s.sched.plan, a.layer ≠ y) : ((takeRecord y r s).layer y).state = .ended := by
  obtain ⟨-, -, hsched, hdrive⟩ := popRing_frame y s
  have hnone : (popRing y s).keysHeld y = [] := by rw [keysHeld_of_frame hsched hdrive (popRing_keeps ..).clk, hkeys]
  have hhanded : handRecord y r (popRing y s) =
      ((popRing y s).setLayer y { ((popRing y s).layer y) with endFetched := true }).planned []
        (allClosed y [] (popRing y s).sched.memory) := by
    rw [handRecord_end hk, handEnd_eq, hnone]
    rfl
  have hacts := processInserted_acts s (handRecord y r (popRing y s))
  have hlater := (Takings.after ((handRecord_takings y r (popRing y s)).trans hacts.takings) (.pop y)).later y
  refine endIfDone_done (hlater.state.imp (fun h => h.trans hplaying) And.right) ?_ (hacts.planHolds ?_)
  · rw [hacts.endFetched, hhanded, planned_layer, layer_setLayer_same]
  · rw [planHolds_eq_false, hhanded, State.planned, setLayer_sched, hsched]
    exact hplan

/-! ### The places a record needs (R109) -/

theorem recordNeed_eq :
    recordNeed y r s = if r.kind = 1 then 2 else if r.kind = 6 then max 1 (s.keysHeld y).length else 1 := by
  have hstrike : r.kind.toNat = kindStrike ↔ r.kind = 1 := BitVec.toNat_inj (y := 1)
  have hend : r.kind.toNat = kindEnd ↔ r.kind = 6 := BitVec.toNat_inj (y := 6)
  rw [recordNeed, if_congr hstrike rfl (if_congr hend rfl rfl)]

end

/-! ### The obligation -/

/-- Settles O50: each kind of record by its own equation, the order of takings by the first ready record. -/
theorem takenRecordsBecomeActions : Obligations.TakenRecordsBecomeActions := by
  unfold Obligations.TakenRecordsBecomeActions
  refine ⟨fun y r s => ?_, fun s => ?_⟩
  · intro lay key out time clamped inRange drop act plan n
    refine ⟨handRecord_mark, fun hk => ?_, fun hk p hp => ?_, fun hk => ?_⟩
    · intro held keys releases
      have hheld (k : Key) : s.heldBy y k = held k := heldBy_eq s y k
      have hkeys : s.keysHeld y = keys := List.filter_congr fun k _ => hheld k
      refine ⟨hkeys, ?_, fun hplaying hnone hplan rest _ => takeRecord_ends hk hplaying (hkeys.trans hnone) hplan⟩
      have hclosed : bankMap (fun k m => if s.heldBy y k then none else m) s.sched.memory =
          bankMap (fun k m => if held k then none else m) s.sched.memory := by simp only [hheld]
      have hlength : (endReleases y (s.eventOf y r) s.sched.nextSerial keys.zipIdx).length = keys.length := by
        rw [endReleases, List.length_map, List.length_zipIdx]
      rw [handRecord_end hk, handEnd_eq, allClosed_keysHeld, hclosed, hkeys, State.planned, setLayer_sched, hlength]
      rfl
    · have hhanded := handRecord_pedal (s := s) (y := y) hk hp
      refine ⟨fun hpass => hhanded.trans (if_neg (Bool.eq_false_iff.mp hpass)), fun hpass => ?_⟩
      have hpassed := hhanded.trans (if_pos hpass)
      exact ⟨fun h => hpassed.trans (handPedalRecord_range h), fun h he => hpassed.trans (handPedalRecord_unset h he),
        fun h he => hpassed.trans (handPedalRecord_set h he)⟩
    · have hhanded := handRecord_key (s := s) (y := y) hk
      refine ⟨fun h => hhanded.trans (handWindow_out h), fun h3 h => hhanded.trans (handWindow_muted h3 h),
        fun hout hmute => ⟨fun h => hhanded.trans (handWindow_offKeyboard hout hmute h), fun k hkey => ?_⟩⟩
      have hkeyed := hhanded.trans (handWindow_key hout hmute hkey)
      intro e mem v
      refine ⟨fun h => hkeyed.trans (handKeyRecord_range h), fun h h3 he => ?_,
        fun h h3 => hkeyed.trans (handKeyRecord_release h h3), fun h h2 he => hkeyed.trans (handKeyRecord_depress h h2 he),
        fun h h1 he => ?_⟩
      · exact hkeyed.trans (handKeyRecord_unset h ((or_assoc.mpr hk).resolve_right h3) he)
      · have hstruck := hkeyed.trans (handKeyRecord_strike h h1 he)
        have hevent := (eventOf_inTime h).2
        intro sv due rival wins strike opened owned
        have hdue : ((s.eventOf y r : Nat) : Int) - sv.lead = due := congrArg (· - (sv.lead : Int)) hevent
        refine ⟨fun hrival hwins => hstruck.trans (insertStrike_loses hrival hwins),
          fun hfree hmem howned => hstruck.trans (insertStrike_free hdue hfree (holder_eq_none hmem howned)),
          fun hfree z ref hheld => hstruck.trans (insertStrike_held hdue hfree (holder_eq_some hheld)), fun _ hwins => ?_⟩
        obtain ⟨hnone, m, hm⟩ := insertStrike_wins (s := s) (k := k) (v := v) (rm := e.rm.toNat) hdue hwins
        rw [hstruck]
        exact ⟨hnone, _, hm, rfl⟩
  · intro time need ready priority
    have hready (y : LayerId) (r : Record) : s.Ready y r ↔ ready y r := by
      have hneed : recordNeed y r s = need y r := recordNeed_eq
      exact ⟨fun ⟨hf, hs, he, hrun, hn, hr⟩ => ⟨hf, hs, he, hrun, hn, hneed ▸ hr⟩,
        fun ⟨hf, hs, he, hrun, hn, hr⟩ => ⟨hf, hs, he, hrun, hn, hneed ▸ hr⟩⟩
    refine ⟨fun y r => ?_, takeAll_of_nextTaking_none, fun y r => takeAll_of_nextTaking⟩
    rw [nextTaking_eq_some]
    refine ⟨fun h => ⟨(hready y r).mp h.ready, fun q hq => h.before q ((hready _ q).mpr hq)⟩,
      fun ⟨h, g⟩ => ⟨(hready y r).mpr h, fun q hq => g q ((hready _ q).mp hq)⟩⟩

end Sys2Proof.Machine
end

section
/-! SUPPORT. The two plain requests of the strike scheduler: PLAN SET and DROPS READ (section 7). -/

namespace Sys2Proof.Machine

/-! ### PLAN SET (R124) -/

theorem exec_planSet {l : Link} {late rise : Word16} {s : State} (h : (s.link l).slots = .serving (.planSet late rise)) :
    exec (.planSet l late rise) s = .next ((answerPlanSet late rise s).state.replied l (.planSet late rise)
      (answerPlanSet late rise s).status (answerPlanSet late rise s).body) :=
  congrArg Host.Outcome.next (serve_standing _ (serves_of_serving h))

/-- Both values are taken clamped, and sent back clamped before the count of actions. -/
theorem answerPlanSet_eq (late rise : Word16) (s : State) :
    answerPlanSet late rise s =
      { status := .ok
        body := bytes16 (BitVec.ofNat 16 (min 200 late.toNat)) ++ bytes16 (BitVec.ofNat 16 (max 200 (min 2000 rise.toNat))) ++
          bytes32 (BitVec.ofNat 32 s.sched.plan.length)
        state :=
          { s with sched := { s.sched with late := min 200 late.toNat, rise := max 200 (min 2000 rise.toNat) } } } := by
  have hlate : clampNat 0 200 late.toNat = min 200 late.toNat := (clampNat_eq (Nat.zero_le 200)).trans (Nat.zero_max _)
  have hrise : clampNat 200 2000 rise.toNat = max 200 (min 2000 rise.toNat) := clampNat_eq (by decide)
  simp only [answerPlanSet, hlate, hrise, byte2_eq, byte4_eq]

/-! ### DROPS READ (R123) -/

theorem exec_dropsRead {l : Link} {s : State} (h : (s.link l).slots = .serving .dropsRead) :
    exec (.dropsRead l) s = .next (s.replied l .dropsRead .ok (answerDropsRead s).body) :=
  congrArg Host.Outcome.next (serve_standing _ (serves_of_serving h))

/-- The report, given any layout of an entry that agrees with the model's. -/
theorem answerDropsRead_body {entry : DropEntry → List Byte} (h : ∀ e : DropEntry, e.bytes = entry e) (s : State) :
    (answerDropsRead s).body =
      bytes32 (BitVec.ofNat 32 s.sched.drops.length) ++ s.sched.drops.flatMap entry ++
        bytes32 (BitVec.ofNat 32 s.sched.plan.length) ++ bytes16 (BitVec.ofNat 16 s.sched.late) ++
        bytes16 (BitVec.ofNat 16 s.sched.rise) := by
  have hbytes : DropEntry.bytes = entry := funext h
  simp only [answerDropsRead, hbytes, byte4_eq, byte2_eq]

/-- An entry's bytes item by item: the reason, the kind and number of the target, the layer, the event and the velocity. -/
theorem DropEntry.bytes_of_items {e : DropEntry} {reason target layer velocity : List Byte}
    (hreason : byte1 e.reason.code = reason)
    (hkey : ∀ n, e.target = .key n → [0, BitVec.ofNat 8 n] = target)
    (hpedal : ∀ n, e.target = .pedal n → [1, BitVec.ofNat 8 n] = target)
    (hlayer : byte1 e.layer.code = layer)
    (hvelocity : optByte2 e.velocity = velocity) :
    e.bytes = reason ++ target ++ layer ++ bytes32 (BitVec.ofNat 32 e.event) ++ velocity := by
  subst hreason hlayer hvelocity
  cases ht : e.target with
  | key n => simp only [← hkey n ht, DropEntry.bytes, ht, byte4_eq, byte1_eq n]; rfl
  | pedal n => simp only [← hpedal n ht, DropEntry.bytes, ht, byte4_eq, byte1_eq n]; rfl

/-- Settles O46: PLAN SET by its clamped values, DROPS READ by the layout of an entry. -/
theorem planSetAndDropsRead : Obligations.PlanSetAndDropsRead := by
  intro l late rise s
  refine ⟨fun h => ?_, fun h => ?_⟩
  · rw [exec_planSet h, answerPlanSet_eq]
  · rw [exec_dropsRead h]
    refine congrArg (fun body => Host.Outcome.next (s.replied l .dropsRead .ok body))
      (answerDropsRead_body (fun e => DropEntry.bytes_of_items ?reason ?key ?pedal ?layer ?velocity) s)
    case reason => cases e.reason <;> rfl
    case key => intro n ht; rw [ht]
    case pedal => intro n ht; rw [ht]
    case layer => cases e.layer <;> rfl
    case velocity =>
      cases e.velocity with
      | none => rfl
      | some v => exact byte2_eq v

end Sys2Proof.Machine
end

section
/-! SUPPORT. DRIVE SET and DRIVE INFO (R143, R147, R148): the drive unit's settings through the scheduler's acts and takings, the
values taken with SAG judged against them, and the bytes of the report. The statement O54. -/

namespace Sys2Proof.Machine

open Relation (ReflTransGen)

/-! ### The drive unit's settings under acts and takings (R147) -/

theorem Taking.drive {s t : State} (h : Taking s t) :
    t.drive = { s.drive with keys := t.drive.keys, pedals := t.drive.pedals, queue := t.drive.queue } := by
  cases h with
  | act h => exact h.drive
  | fetched y => rw [setLayer_drive]
  | pop y => rw [(popRing_frame y s).2.2.2]
  | memory k m => rfl
  | insert => rfl

theorem Takings.drive {s t : State} (h : Takings s t) :
    t.drive = { s.drive with keys := t.drive.keys, pedals := t.drive.pedals, queue := t.drive.queue } := by
  induction h with
  | refl => rfl
  | tail _ g ih => rw [g.drive, ih]

/-! ### DRIVE SET (R147, R143, R132) -/

theorem withSag_drive (s : State) (live : Bool) : (s.withSag live).drive = { s.drive with sag := live } :=
  congrArg State.drive (withSag_rest s live)

/-- The drive unit with the three values a DRIVE SET takes, SAG not yet judged. -/
def State.driveSet (s : State) (slots : Byte) (vnom : Word16) (sag : Byte) : State :=
  { s with drive := { s.drive with
    slots := max 4 (min 16 slots.toNat), vnom := max 100 (min 1000 vnom.toNat), sagPercent := max 60 (min 95 sag.toNat) } }

/-- What a DRIVE SET reports of the drive unit it leaves: the three values and the sag threshold they give. -/
def Drive.setReport (d : Drive) : List Byte :=
  [BitVec.ofNat 8 d.slots] ++ bytes16 (BitVec.ofNat 16 d.vnom) ++ [BitVec.ofNat 8 d.sagPercent] ++
    bytes16 (BitVec.ofNat 16 d.vsag)

/-- What follows a DRIVE SET that leaves `t`: the arbiter's look, the reports of live SAG or of the keys that changed, and the
takings (R119, R130, R132). -/
def driveSetReported (s t : State) : State :=
  takeAll (if t.drive.sag = s.drive.sag then respond s t else reportSupply (arbiter t))

theorem driveSetReported_takings (s t : State) : Takings t (driveSetReported s t) := by
  refine ReflTransGen.trans ?_ (takeAll_takings _)
  split
  · exact (respond_acts s t).takings
  · exact Acts.takings ((arbiter_acts t).trans (processDue_acts ..))

theorem driveSetReported_of_nothing {s t : State} (h : NothingToSchedule t) : driveSetReported s t = t := by
  rw [driveSetReported, respond_of_nothing h, arbiter_of_queue_nil h.1, reportSupply_of_nothing h, ite_self,
    takeAll_of_nothing h]

theorem answerDriveSet_eq (slots : Byte) (vnom : Word16) (sag : Byte) (s : State) :
    answerDriveSet slots vnom sag s =
      { status := .ok, body := (s.driveSet slots vnom sag).drive.setReport
        state := driveSetReported s ((s.driveSet slots vnom sag).withSag (s.driveSet slots vnom sag).drive.sagNow) } := by
  rw [← judgeSag_eq]
  simp only [answerDriveSet, clampNat_eq (show 4 ≤ 16 by decide), clampNat_eq (show 100 ≤ 1000 by decide),
    clampNat_eq (show 60 ≤ 95 by decide), byte1_eq, byte2_eq]
  rfl

theorem exec_driveSet {l : Link} {slots : Byte} {vnom : Word16} {sag : Byte} {s : State}
    (hl : (s.link l).slots = .serving (.driveSet slots vnom sag)) :
    exec (.driveSet l slots vnom sag) s =
      .next ((driveSetReported s ((s.driveSet slots vnom sag).withSag (s.driveSet slots vnom sag).drive.sagNow)).replied l
        (.driveSet slots vnom sag) .ok (s.driveSet slots vnom sag).drive.setReport) :=
  exec_of_answer rfl hl (answerDriveSet_eq slots vnom sag s)

/-! ### DRIVE INFO (R148) -/

theorem exec_driveInfo_badVal {l : Link} {first count : Byte} {s : State}
    (hl : (s.link l).slots = .serving (.driveInfo first count))
    (h : 87 < first.toNat ∨ count.toNat < 1 ∨ 32 < count.toNat ∨ 88 < first.toNat + count.toNat) :
    exec (.driveInfo l first count) s = .next (s.replied l (.driveInfo first count) .badVal []) :=
  exec_of_refusal rfl hl (if_pos (by omega))

theorem holdsSlot_eq (st : DriveState) : st.holdsSlot = (decide (st = .strike) || decide (st = .probe)) := by
  cases st <;> rfl

theorem supplyEn_eq (p : Power) : p.supplyEn = decide (p ≠ .quiet) := by cases p <;> rfl

theorem pulseBusy_eq (s : State) :
    s.pulseBusy = (s.drive.pulse.isSome || decide (∃ k ∈ allKeys, (s.driveKey k).state = .probe)) := by
  have hany : (allKeys.any fun k => decide ((s.driveKey k).state = .probe)) =
      decide (∃ k ∈ allKeys, (s.driveKey k).state = .probe) := by
    rw [Bool.eq_iff_iff, List.any_eq_true, decide_eq_true_iff]
    simp only [decide_eq_true_iff]
  rw [State.pulseBusy, hany]

/-- A key's bytes item by item, given the bytes of its drive state and its owner. -/
theorem driveKeyBytes_of_items {d : DriveKey} {state owner : Byte} (hstate : BitVec.ofNat 8 d.state.code = state)
    (howner : BitVec.ofNat 8 ((d.owner.map LayerId.code).getD 255) = owner) :
    driveKeyBytes d =
      [state, owner] ++ bytes16 (BitVec.ofNat 16 d.heat) ++ [if d.warm then 1 else 0, if d.hot then 1 else 0] := by
  subst hstate howner
  simp [driveKeyBytes, byte1_eq, byte2_eq, optByte1, flagByte]

/-- The report of a range in order, given the bytes of each key and of each pedal. -/
theorem answerDriveInfo_ok {first count : Byte} {s : State} {key : Key → List Byte} {pedal : Pedal → List Byte}
    (h : first.toNat ≤ 87) (hlow : 1 ≤ count.toNat) (hhigh : count.toNat ≤ 32) (hend : first.toNat + count.toNat ≤ 88)
    (hkey : ∀ k, driveKeyBytes (s.driveKey k) = key k) (hpedal : ∀ p, pedalDriveBytes (bankGet s.drive.pedals p) = pedal p) :
    answerDriveInfo first count s =
      { status := .ok
        body :=
          [BitVec.ofNat 8 s.drive.power.code, if decide (s.drive.power ≠ .quiet) then 1 else 0,
            if s.drive.sag then 1 else 0] ++ bytes16 (BitVec.ofNat 16 s.drive.vmeas) ++
            bytes16 (BitVec.ofNat 16 s.drive.vnom) ++ [BitVec.ofNat 8 s.drive.sagPercent] ++
            bytes16 (BitVec.ofNat 16 s.drive.vsag) ++ [BitVec.ofNat 8 s.drive.slots] ++
            bytes32 (BitVec.ofNat 32 (allKeys.filter fun k =>
              decide ((s.driveKey k).state = .strike) || decide ((s.driveKey k).state = .probe)).length) ++
            bytes32 (BitVec.ofNat 32 s.drive.queue.length) ++
            [if s.drive.pulse.isSome || decide (∃ k ∈ allKeys, (s.driveKey k).state = .probe) then 1 else 0] ++
            ((allKeys.filter fun k =>
              decide (first.toNat ≤ k.val) && decide (k.val < first.toNat + count.toNat)).flatMap key) ++
            allPedals.flatMap pedal
        state := s } := by
  have hgood : ¬ (87 < first.toNat ∨ count.toNat < 1 ∨ 32 < count.toNat ∨ 87 < first.toNat + count.toNat - 1) := by omega
  rw [answerDriveInfo, if_neg hgood]
  simp only [byte1_eq, byte2_eq, byte4_eq, flagByte, supplyEn_eq, pulseBusy_eq, State.slotsHeld, holdsSlot_eq, hkey, hpedal,
    Bool.decide_and]
  rfl

/-- Settles O54: the three values through the reports and takings of a DRIVE SET, and DRIVE INFO item by item. -/
theorem driveSetAndInfo : Obligations.DriveSetAndInfo := by
  unfold Obligations.DriveSetAndInfo
  intro l s
  refine ⟨fun slots sag vnom hl => ?_, fun first count hl => ⟨exec_driveInfo_badVal hl, fun h hlow hhigh hend => ?_⟩⟩
  · intro n v p least live body
    have hlive : (s.driveSet slots vnom sag).drive.sagNow = live := if_congr Iff.rfl (judgedSag_eq _) rfl
    have hexec := exec_driveSet hl
    rw [hlive] at hexec
    have hdrive := (driveSetReported_takings s ((s.driveSet slots vnom sag).withSag live)).drive
    refine ⟨_, hexec, ?_, ?_, ?_, ?_, by rw [replied_link]; rfl, fun hn => ?_⟩
    · rw [replied_drive, hdrive, withSag_drive]; rfl
    · rw [replied_drive, hdrive, withSag_drive]; rfl
    · rw [replied_drive, hdrive, withSag_drive]; rfl
    · rw [replied_drive, hdrive, withSag_drive]
    · have hset : NothingToSchedule (s.driveSet slots vnom sag) := hn.of_eq rfl rfl rfl rfl rfl
      rw [driveSetReported_of_nothing (hset.withSag live)]
      rfl
  · refine exec_of_answer rfl hl (answerDriveInfo_ok h hlow hhigh hend (fun k => driveKeyBytes_of_items ?_ ?_) fun p => ?_)
    · cases (s.driveKey k).state <;> rfl
    · rcases (s.driveKey k).owner with _ | _ | _ <;> rfl
    · rw [pedalDriveBytes, optByte1, byte1_eq, byte2_eq]
      cases (bankGet s.drive.pedals p).merged <;> rfl

end Sys2Proof.Machine
end

section
/-! SUPPORT. A run's key that ends (R151, R161), and the moves of a threshold search, each as one outcome: the run waits for rest
before a pulse, or the key has ended with a result (R154 to R157). -/

namespace Sys2Proof.Machine

/-! ### The keys a run works leave the other keys' drive records alone (R151) -/

theorem finishRun_driveKey (s : State) (j : Key) : (finishRun s).driveKey j = s.driveKey j := by
  rw [finishRun_of_failed]
  dsimp only
  split <;> rfl

theorem freeForRun_driveKey_other {k j : Key} (h : j ≠ k) (s : State) : (freeForRun k s).driveKey j = s.driveKey j := by
  unfold freeForRun
  split
  · have honly := putDriveKey_only k (s.driveKey k).resting s
    rw [enterRest, State.driveKey, honly.drive]
    exact driveKey_setDriveKey_other s _ h
  · rfl

theorem workBelow_driveKey {n : Nat} {j : Key} (h : n ≤ j.val) (s : State) : (workBelow n s).driveKey j = s.driveKey j := by
  induction n generalizing s with
  | zero => exact finishRun_driveKey s j
  | succ n ih =>
    have hbelow : n ≤ j.val := Nat.le_of_succ_le h
    unfold workBelow
    split
    · exact ih hbelow s
    · next k hk =>
      have hother : j ≠ k := by
        intro hj
        have hval := keyOf_eq_some hk
        rw [← hj] at hval
        omega
      have hfree : (freeForRun k (copyKey k s)).driveKey j = s.driveKey j := freeForRun_driveKey_other hother (copyKey k s)
      dsimp only
      generalize freeForRun k (copyKey k s) = s1 at hfree
      split
      · split
        · split
          · exact (finishRun_driveKey _ j).trans hfree
          · exact (ih hbelow _).trans hfree
        · exact hfree
      · exact ih hbelow s

/-- With no key of the set left the run ends (R161). -/
theorem workBelow_of_no_keys {n : Nat} {s : State} (h : ∀ j : Key, j.val < n → s.run.keys.getLsbD j.val = false) :
    workBelow n s = finishRun s := by
  induction n with
  | zero => rfl
  | succ n ih =>
    have hrest := ih fun j hj => h j (Nat.lt_succ_of_lt hj)
    unfold workBelow
    split
    · exact hrest
    · next k hk =>
      have habsent : inKeySet s.run.keys k = false := h k (by rw [keyOf_eq_some hk]; exact Nat.lt_succ_self n)
      simp only [habsent]
      exact hrest

/-! ### A key that ends (R161) -/

theorem finishRun_calDone (s : State) (l : Link) : (finishRun s).noticed l .calDone = true := by
  have hdone (t : State) : (raiseBoth .calDone t).noticed l .calDone = true := noticed_raiseBoth ..
  rw [finishRun_of_failed]
  dsimp only
  split
  · exact (Keeps.raiseBoth ..).noticed (hdone _)
  · exact hdone _

/-- `t` is `s` once its run has ended key `k` with values `e` and a result: the entry and the check word are written, the run has
left the key, and it is over, with its notices, where the key was the last (R57, R151, R161). -/
structure KeyEnded (k : Key) (e : KeyEntry) (r : RunResult) (s t : State) : Prop where
  entry   : bankGet t.map.keys k = e.withResult r
  above   : ∀ j, k < j → bankGet t.map.keys j = bankGet s.map.keys j
  check   : t.map.sum - t.map.check = s.map.sum - s.map.check
  key     : t.driveKey k = s.driveKey k
  current : t.run.current ≠ some k
  last    : (∀ j : Key, j < k → s.run.keys.getLsbD j.val = false) →
    t.run.state = .idle ∧ ∀ l, t.noticed l .calDone = true ∧
      (r.fails = true ∨ s.run.failed = true → t.noticed l .keyFault = true)

/-- What a run keeps of itself while it works one key. -/
structure RunController.SameKey (r q : RunController) : Prop where
  keys    : q.keys = r.keys
  failed  : q.failed = r.failed
  copy    : q.copy = r.copy
  probes  : q.probes = r.probes

theorem RunController.SameKey.refl (r : RunController) : r.SameKey r := ⟨rfl, rfl, rfl, rfl⟩

/-- A search's move notes the phase, the last miss and the coarse strike alone. -/
theorem RunController.SameKey.moved (r : RunController) (phase : SearchPhase) (lastMiss coarse : Option Nat) :
    r.SameKey { r with phase := phase, lastMiss := lastMiss, coarse := coarse } := ⟨rfl, rfl, rfl, rfl⟩

/-- After a key's result the run ends at once, or goes on with the keys below. -/
theorem endKey_cases (k : Key) (r : RunResult) (f : KeyEntry → KeyEntry) (s : State) :
    endKey k r f s = finishRun (writeResult k r f s) ∨ endKey k r f s = workBelow k.val (writeResult k r f s) := by
  unfold endKey
  dsimp only
  split
  · exact .inl rfl
  · exact .inr rfl

theorem endKey_ended (k : Key) (r : RunResult) (f : KeyEntry → KeyEntry) {s : State} {q : RunController}
    (h : s.run.SameKey q) : KeyEnded k (f (bankGet s.map.keys k)) r s (endKey k r f (setRun q s)) := by
  have hmap : (writeResult k r f (setRun q s)).map = s.map.writeKey k ((f (bankGet s.map.keys k)).withResult r) := rfl
  have hworked : WorkedBelow k.val (writeResult k r f (setRun q s)) (endKey k r f (setRun q s)) := by
    obtain hend | hend := endKey_cases k r f (setRun q s) <;> rw [hend]
    · exact finishRun_workedBelow _ _
    · exact workBelow_worked _ _
  refine ⟨?_, fun j hj => ?_, ?_, ?_, fun hcur => absurd (hworked.current k hcur) (Nat.lt_irrefl _), fun hlast => ?_⟩
  · rw [hworked.above k (Nat.le_refl _), hmap]
    exact bankGet_bankSet_same _ _ _
  · rw [hworked.above j (Fin.le_def.mp hj.le), hmap]
    exact bankGet_bankSet_other _ _ hj.ne'
  · rw [hworked.check, hmap]
    exact sum_sub_check_writeKey _ _ _
  · obtain hend | hend := endKey_cases k r f (setRun q s) <;> rw [hend]
    · exact finishRun_driveKey _ k
    · exact workBelow_driveKey (Nat.le_refl _) _
  · have hover : endKey k r f (setRun q s) = finishRun (writeResult k r f (setRun q s)) := by
      obtain hend | hend := endKey_cases k r f (setRun q s)
      · exact hend
      · rw [hend]
        exact workBelow_of_no_keys fun j hj => (congrArg (BitVec.getLsbD · j.val) h.keys).trans (hlast j hj)
    rw [hover]
    refine ⟨by rw [finishRun_run], fun l => ⟨finishRun_calDone _ l, fun hfault => (finishRun_noticed ?_ l).2⟩⟩
    rw [writeResult_run, setRun_run, h.failed]
    exact (Bool.or_eq_true ..).mpr hfault.symm

/-! ### Where a search goes (R155, R156, R157) -/

/-- `t` is `s` with a fresh rest wait of the run as `q` has it (R152). -/
def RunWaits (q : RunController) (s t : State) : Prop := t = setRun { q with wait := .rest (s.now + 2000000) } s

/-- The search probes a level next, or the key ends BUDGET after its 64th pulse (R156). -/
def SearchGoesOn (k : Key) (q : RunController) (level : Nat) (s t : State) : Prop :=
  if s.run.probes < 64 then RunWaits { q with level := level } s t
  else KeyEnded k (bankGet s.map.keys k) .budget s t

/-- The entry a search that found threshold `n` writes, by the copied entry's state (R157). -/
def foundEntry (copy : EntryCopy) (n : Nat) (e : KeyEntry) : KeyEntry :=
  if copy.entry.state = 1 then e.withThreshold n else createdEntry n

/-- The search has found its threshold (R157). -/
def SearchFound (k : Key) (copy : EntryCopy) (n : Nat) (s t : State) : Prop :=
  KeyEnded k (foundEntry copy n (bankGet s.map.keys k)) .ok s t

/-- The fine phase at a level: the coarse strike is the threshold once it is reached (R155). -/
def SearchGoesFine (k : Key) (copy : EntryCopy) (q : RunController) (coarse level : Nat) (s t : State) : Prop :=
  if coarse ≤ level then SearchFound k copy coarse s t else SearchGoesOn k { q with phase := .fine } level s t

section
variable {k : Key} {s : State} {q : RunController}

theorem searchNext_goesOn (h : s.run.SameKey q) (level : Nat) :
    SearchGoesOn k q level s (searchNext k level (setRun q s)) := by
  have hnext : searchNext k level (setRun q s) =
      if 64 ≤ s.run.probes then endKey k .budget id (setRun q s)
      else setRun { q with level := level, wait := .rest (s.now + 2000000) } s := by
    rw [← h.probes]
    rfl
  rw [hnext, SearchGoesOn]
  split
  · next hlt => exact if_neg (Nat.not_le.mpr hlt)
  · next hge =>
    rw [if_pos (Nat.not_lt.mp hge)]
    exact endKey_ended k .budget id h

theorem searchFound_found {copy : EntryCopy} (h : s.run.SameKey q) (hc : s.run.copy = some copy) (n : Nat) :
    SearchFound k copy n s (searchFound k n (setRun q s)) := by
  have hcopy : (setRun q s).run.copy = some copy := h.copy.trans hc
  have hwrite : (fun e : KeyEntry => if copy.entry.isSet then e.withThreshold n else createdEntry n) = foundEntry copy n := by
    funext e
    simp only [foundEntry, KeyEntry.isSet, decide_eq_true_eq]
  rw [searchFound, hcopy]
  dsimp only
  rw [hwrite]
  exact endKey_ended k .ok (foundEntry copy n) h

theorem searchFine_goesFine {copy : EntryCopy} {coarse : Nat} (h : s.run.SameKey q) (hc : s.run.copy = some copy)
    (hcoarse : q.coarse = some coarse) (level : Nat) :
    SearchGoesFine k copy q coarse level s (searchFine k level (setRun q s)) := by
  have hfine : s.run.SameKey { q with phase := .fine } := ⟨h.keys, h.failed, h.copy, h.probes⟩
  have hsearch : searchFine k level (setRun q s) =
      if coarse ≤ level then searchFound k coarse (setRun { q with phase := .fine } s)
      else searchNext k level (setRun { q with phase := .fine } s) := by
    simp only [searchFine, setRun_run, hcoarse]
    rfl
  rw [hsearch, SearchGoesFine]
  split
  · exact searchFound_found hfine hc coarse
  · exact searchNext_goesOn hfine level

end

/-! ### A hit and a miss in each phase (R154, R155) -/

section
variable {k : Key} {s : State} {copy : EntryCopy}

theorem searchHit_stuck (h : s.run.level < 4) : KeyEnded k (bankGet s.map.keys k) .stuck s (searchHit k s) := by
  rw [searchHit, if_pos h]
  exact endKey_ended k .stuck id (.refl _)

theorem searchHit_down (h : 4 ≤ s.run.level) (hp : s.run.phase = .first ∨ s.run.phase = .down) :
    SearchGoesOn k { s.run with coarse := some s.run.level, phase := .down } (s.run.level - 32) s (searchHit k s) := by
  have hmove : searchHit k s =
      searchNext k (s.run.level - 32) (setRun { s.run with coarse := some s.run.level, phase := .down } s) := by
    obtain hp | hp := hp <;> simp only [searchHit, if_neg (Nat.not_lt.mpr h), hp]
  rw [hmove]
  exact searchNext_goesOn (q := { s.run with coarse := some s.run.level, phase := .down }) (.moved ..) _

theorem searchHit_up {m : Nat} (h : 4 ≤ s.run.level) (hp : s.run.phase = .up) (hm : s.run.lastMiss = some m)
    (hc : s.run.copy = some copy) :
    SearchGoesFine k copy { s.run with coarse := some s.run.level } s.run.level (m + 4) s (searchHit k s) := by
  have hmove : searchHit k s = searchFine k (m + 4) (setRun { s.run with coarse := some s.run.level } s) := by
    simp only [searchHit, if_neg (Nat.not_lt.mpr h), hp, hm, Option.getD_some]
  rw [hmove]
  exact searchFine_goesFine (s := s) (.moved ..) hc rfl _

theorem searchHit_fine (h : 4 ≤ s.run.level) (hp : s.run.phase = .fine) (hc : s.run.copy = some copy) :
    SearchFound k copy s.run.level s (searchHit k s) := by
  have hmove : searchHit k s = searchFound k s.run.level (setRun s.run s) := by
    simp only [searchHit, if_neg (Nat.not_lt.mpr h), hp]
    rfl
  rw [hmove]
  exact searchFound_found (.refl s.run) hc _

theorem searchMiss_first (hp : s.run.phase = .first) :
    SearchGoesOn k { s.run with lastMiss := some s.run.level, phase := .up } (s.run.level + 32) s (searchMiss k s) := by
  have hmove : searchMiss k s =
      searchNext k (s.run.level + 32) (setRun { s.run with lastMiss := some s.run.level, phase := .up } s) := by
    simp only [searchMiss, hp]
  rw [hmove]
  exact searchNext_goesOn (q := { s.run with lastMiss := some s.run.level, phase := .up }) (.moved ..) _

theorem searchMiss_up (hp : s.run.phase = .up) (h : s.run.level + 32 ≤ 4095) :
    SearchGoesOn k { s.run with lastMiss := some s.run.level } (s.run.level + 32) s (searchMiss k s) := by
  have hmove : searchMiss k s = searchNext k (s.run.level + 32) (setRun { s.run with lastMiss := some s.run.level } s) := by
    simp only [searchMiss, hp, if_neg (Nat.not_lt.mpr h)]
  rw [hmove]
  exact searchNext_goesOn (q := { s.run with lastMiss := some s.run.level }) (.moved ..) _

theorem searchMiss_top (hp : s.run.phase = .up) (h : 4095 < s.run.level + 32) :
    KeyEnded k (bankGet s.map.keys k) .noStrike s (searchMiss k s) := by
  have hmove : searchMiss k s = endKey k .noStrike id (setRun { s.run with lastMiss := some s.run.level } s) := by
    simp only [searchMiss, hp, if_pos h]
  rw [hmove]
  exact endKey_ended k .noStrike id (.moved ..)

theorem searchMiss_down {coarse : Nat} (hp : s.run.phase = .down) (hcoarse : s.run.coarse = some coarse)
    (hc : s.run.copy = some copy) :
    SearchGoesFine k copy { s.run with lastMiss := some s.run.level } coarse (s.run.level + 4) s (searchMiss k s) := by
  have hmove : searchMiss k s = searchFine k (s.run.level + 4) (setRun { s.run with lastMiss := some s.run.level } s) := by
    simp only [searchMiss, hp]
  rw [hmove]
  exact searchFine_goesFine (q := { s.run with lastMiss := some s.run.level }) (.moved ..) hc hcoarse _

theorem searchMiss_fine {coarse : Nat} (hp : s.run.phase = .fine) (hcoarse : s.run.coarse = some coarse)
    (hc : s.run.copy = some copy) :
    SearchGoesFine k copy s.run coarse (s.run.level + 4) s (searchMiss k s) := by
  have hmove : searchMiss k s = searchFine k (s.run.level + 4) (setRun s.run s) := by
    simp only [searchMiss, hp]
    rfl
  rw [hmove]
  exact searchFine_goesFine (.refl s.run) hc hcoarse _

/-- Where a hit takes a search of the run `r` on a key with entry `e` (R154, R155). -/
theorem searchHit_moves {r : RunController} {e : KeyEntry} {t : State} (hr : s.run = r) (hc : r.copy = some copy)
    (he : bankGet s.map.keys k = e) (ht : t = searchHit k s) :
    (r.level < 4 → KeyEnded k e .stuck s t) ∧
    (4 ≤ r.level →
      (r.phase = .first ∨ r.phase = .down →
        SearchGoesOn k { r with coarse := some r.level, phase := .down } (r.level - 32) s t) ∧
      (∀ m, r.phase = .up → r.lastMiss = some m →
        SearchGoesFine k copy { r with coarse := some r.level } r.level (m + 4) s t) ∧
      (r.phase = .fine → SearchFound k copy r.level s t)) := by
  subst hr he ht
  exact ⟨searchHit_stuck, fun h =>
    ⟨searchHit_down h, fun m hp hm => searchHit_up h hp hm hc, fun hp => searchHit_fine h hp hc⟩⟩

/-- Where a miss takes a search of the run `r` on a key with entry `e` (R154, R155). -/
theorem searchMiss_moves {r : RunController} {e : KeyEntry} {t : State} (hr : s.run = r) (hc : r.copy = some copy)
    (he : bankGet s.map.keys k = e) (ht : t = searchMiss k s) :
    (r.phase = .first → SearchGoesOn k { r with lastMiss := some r.level, phase := .up } (r.level + 32) s t) ∧
    (r.phase = .up → r.level + 32 ≤ 4095 → SearchGoesOn k { r with lastMiss := some r.level } (r.level + 32) s t) ∧
    (r.phase = .up → 4095 < r.level + 32 → KeyEnded k e .noStrike s t) ∧
    ∀ coarse, r.coarse = some coarse →
      (r.phase = .down → SearchGoesFine k copy { r with lastMiss := some r.level } coarse (r.level + 4) s t) ∧
      (r.phase = .fine → SearchGoesFine k copy r coarse (r.level + 4) s t) := by
  subst hr he ht
  exact ⟨searchMiss_first, searchMiss_up, searchMiss_top, fun coarse hcoarse =>
    ⟨fun hp => searchMiss_down hp hcoarse hc, fun hp => searchMiss_fine hp hcoarse hc⟩⟩

end

end Sys2Proof.Machine
end

section
/-! SUPPORT. The strikes of a proof (R158 to R160), and the answer to a pulse in flight, by an echo or by its grace (R141). The
statement O57. -/

namespace Sys2Proof.Machine

/-! ### The strikes of a proof (R158, R159, R160) -/

/-- The run with a proof strike's answer counted: the velocity and the error of a hit that has one (R158). -/
def RunController.heard (r : RunController) (now firedAt : Nat) (seen : Option Nat) : RunController :=
  { r with
    velSum := r.velSum + seen.getD 0
    errSum := r.errSum + if seen.isSome then (now : Int) - (firedAt + r.flight) else 0
    hits := r.hits + if seen.isSome then 1 else 0 }

theorem heard_sameKey (r : RunController) (now firedAt : Nat) (seen : Option Nat) : r.SameKey (r.heard now firedAt seen) :=
  ⟨rfl, rfl, rfl, rfl⟩

theorem heard_none (r : RunController) (now firedAt : Nat) : r.heard now firedAt none = r := by simp [RunController.heard]

/-- The rounded mean of naturals is the natural quotient. -/
theorem roundedMean_toNat (sum n : Nat) : (roundedMean sum n).toNat = (2 * sum + n) / (2 * n) := by
  have hcast : roundedMean sum n = (((2 * sum + n) / (2 * n) : Nat) : Int) := by
    simp only [roundedMean]
    norm_cast
  rw [hcast, Int.toNat_natCast]

/-- The gain a proof writes from its hits (R159). -/
def RunController.newGain (q : RunController) (copy : EntryCopy) : Nat :=
  provedGain copy.entry.g.toNat q.velocity ((2 * q.velSum + q.hits) / (2 * q.hits))

theorem newGain_eq (q : RunController) (copy : EntryCopy) :
    q.newGain copy =
      let v := (2 * q.velSum + q.hits) / (2 * q.hits)
      max 8192 (min 32767 ((2 * copy.entry.g.toNat * q.velocity + v) / (2 * v))) := clampNat_eq (by decide)

theorem provedLead_eq (lfix : Nat) (mean : Int) :
    provedLead lfix mean = (max 0 (min 20000 ((lfix : Int) + mean))).toNat :=
  congrArg Int.toNat (clampInt_eq (by decide))

/-- The mean lateness of a proof's hits (R159). -/
def RunController.meanError (q : RunController) : Int := roundedMean q.errSum q.hits

/-- An entry with the gain of a proof whose lead is out of range (R159). -/
def KeyEntry.withGain (g : Nat) (e : KeyEntry) : KeyEntry := { e with g := BitVec.ofNat 16 g }

/-- An entry with the gain and the fixed lead of a proof (R159). -/
def KeyEntry.withProof (g lfix : Nat) (e : KeyEntry) : KeyEntry :=
  { e with g := BitVec.ofNat 16 g, lfix := BitVec.ofNat 16 lfix }

section
variable {k : Key} {s : State} {q : RunController} {copy : EntryCopy}

theorem proofNext_waits (h : q.probes < q.repeats) : RunWaits q s (proofNext k (setRun q s)) :=
  if_neg (Nat.not_le.mpr h)

theorem proofNext_done (h : q.repeats ≤ q.probes) : proofNext k (setRun q s) = proofDone k (setRun q s) := if_pos h

theorem proofDone_noHits (h : s.run.SameKey q) (hc : s.run.copy = some copy) (hn : q.hits = 0) :
    KeyEnded k (bankGet s.map.keys k) .noStrike s (proofDone k (setRun q s)) := by
  have hdone : proofDone k (setRun q s) = endKey k .noStrike id (setRun q s) := by
    simp only [proofDone, setRun_run, h.copy, hc]
    exact if_pos hn
  rw [hdone]
  exact endKey_ended k .noStrike id h

theorem proofDone_fault (h : s.run.SameKey q) (hc : s.run.copy = some copy) (hn : 0 < q.hits)
    (hi : copy.integrity = .fault) : KeyEnded k (bankGet s.map.keys k) .ok s (proofDone k (setRun q s)) := by
  have hdone : proofDone k (setRun q s) = endKey k .ok id (setRun q s) := by
    simp only [proofDone, setRun_run, h.copy, hc, if_neg hn.ne', hi]
  rw [hdone]
  exact endKey_ended k .ok id h

theorem proofDone_inRange (h : s.run.SameKey q) (hc : s.run.copy = some copy) (hn : 0 < q.hits)
    (hi : copy.integrity = .good) (hlow : -10000 ≤ q.meanError) (hhigh : q.meanError ≤ 10000) :
    KeyEnded k ((bankGet s.map.keys k).withProof (q.newGain copy) (provedLead copy.entry.lfix.toNat q.meanError)) .ok s
      (proofDone k (setRun q s)) := by
  have hdone : proofDone k (setRun q s) =
      endKey k .ok (KeyEntry.withProof (q.newGain copy) (provedLead copy.entry.lfix.toNat q.meanError)) (setRun q s) := by
    simp only [proofDone, setRun_run, h.copy, hc, if_neg hn.ne', hi, roundedMean_toNat]
    exact if_pos ⟨hlow, hhigh⟩
  rw [hdone]
  exact endKey_ended k .ok (KeyEntry.withProof _ _) h

theorem proofDone_leadRange (h : s.run.SameKey q) (hc : s.run.copy = some copy) (hn : 0 < q.hits)
    (hi : copy.integrity = .good) (hout : q.meanError < -10000 ∨ 10000 < q.meanError) :
    KeyEnded k ((bankGet s.map.keys k).withGain (q.newGain copy)) .leadRange s (proofDone k (setRun q s)) := by
  have hdone : proofDone k (setRun q s) = endKey k .leadRange (KeyEntry.withGain (q.newGain copy)) (setRun q s) := by
    simp only [proofDone, setRun_run, h.copy, hc, if_neg hn.ne', hi, roundedMean_toNat]
    exact if_neg fun ⟨hlow, hhigh⟩ => hout.elim hlow.not_gt hhigh.not_gt
  rw [hdone]
  exact endKey_ended k .leadRange (KeyEntry.withGain _) h

/-- Where a counted answer takes a proof on a key with entry `e` (R158, R159, R160). -/
theorem proofNext_moves {e : KeyEntry} {t : State} (h : s.run.SameKey q) (hc : s.run.copy = some copy)
    (he : bankGet s.map.keys k = e) (ht : t = proofNext k (setRun q s)) :
    (q.probes < q.repeats → RunWaits q s t) ∧
    (q.repeats ≤ q.probes →
      (q.hits = 0 → KeyEnded k e .noStrike s t) ∧ (0 < q.hits → copy.integrity = .fault → KeyEnded k e .ok s t) ∧
      (0 < q.hits → copy.integrity = .good →
        (-10000 ≤ q.meanError → q.meanError ≤ 10000 →
          KeyEnded k (e.withProof (q.newGain copy) (provedLead copy.entry.lfix.toNat q.meanError)) .ok s t) ∧
        (q.meanError < -10000 ∨ 10000 < q.meanError → KeyEnded k (e.withGain (q.newGain copy)) .leadRange s t))) := by
  subst he ht
  refine ⟨proofNext_waits, fun hlast => ?_⟩
  rw [proofNext_done hlast]
  exact ⟨proofDone_noHits h hc, proofDone_fault h hc, fun hn hi =>
    ⟨proofDone_inRange h hc hn hi, proofDone_leadRange h hc hn hi⟩⟩

end

/-! ### The answer to a pulse of the run (R154, R158) -/

/-- The run waits for the answer to its pulse on a key. -/
abbrev State.awaitsAnswer (s : State) (k : Key) : Prop :=
  s.run.state = .running ∧ s.run.wait = .inFlight ∧ s.run.current = some k

/-- A pulse of the run answered: by an echo with the velocity the capture unit computed, or by its grace running out. -/
def runAnswered (hit : Bool) (k : Key) (firedAt : Nat) (velocity : Option Nat) (s : State) : State :=
  if hit then runHit k firedAt s.now velocity s else runMiss k s

section
variable {hit : Bool} {k : Key} {firedAt : Nat} {velocity : Option Nat} {s : State}

theorem runAnswered_unawaited (h : ¬ s.awaitsAnswer k) : runAnswered hit k firedAt velocity s = s := by
  cases hit
  · exact if_neg h
  · exact if_neg h

theorem runAnswered_threshold (h : s.awaitsAnswer k) (hk : s.run.kind = .threshold) :
    runAnswered hit k firedAt velocity s = if hit then searchHit k s else searchMiss k s := by
  cases hit <;> simp only [runAnswered, runHit, runMiss, if_pos h, hk]

theorem runHit_proof (h : s.awaitsAnswer k) (hk : s.run.kind = .proof) (gate2At : Nat) :
    runHit k firedAt gate2At velocity s = proofNext k (setRun (s.run.heard gate2At firedAt velocity) s) := by
  unfold runHit
  rw [if_pos h]
  split
  · next hthreshold => cases hk.symm.trans hthreshold
  · split
    · rfl
    · rw [heard_none]
      rfl

theorem runMiss_proof (h : s.awaitsAnswer k) (hk : s.run.kind = .proof) (gate2At : Nat) :
    runMiss k s = proofNext k (setRun (s.run.heard gate2At firedAt none) s) := by
  rw [runMiss, if_pos h, heard_none]
  split
  · next hthreshold => cases hk.symm.trans hthreshold
  · rfl

theorem runAnswered_proof (h : s.awaitsAnswer k) (hk : s.run.kind = .proof) :
    runAnswered hit k firedAt velocity s =
      proofNext k (setRun (s.run.heard s.now firedAt (if hit then velocity else none)) s) := by
  cases hit
  · exact runMiss_proof h hk s.now
  · exact runHit_proof h hk s.now

end

/-! ### The end of a pulse (R141) -/

/-- A key record whose pulse has been answered: in LETGO, with no fire in flight. -/
def DriveKey.answered (d : DriveKey) (now : Nat) : DriveKey := { d.lettingGo now with fire := none }

theorem endPulse_of_nothing {k : Key} {s : State} (h : (s.driveKey k).state = .probe) (hn : NothingToSchedule s) :
    endPulse k s = s.setDriveKey k ((s.driveKey k).answered s.now) := by
  have hput : putDriveKey k ((s.driveKey k).answered s.now) s = s.setDriveKey k ((s.driveKey k).answered s.now) :=
    putDriveKey_driven (by rw [h]; decide) (by simp [DriveKey.answered, DriveKey.lettingGo])
  refine (congrArg (respond s) hput).trans ?_
  exact respond_of_nothing (hn.setDriveKey k _)

theorem takeEcho_pulse {k : Key} {velocity : Option Nat} {s : State} {fire : Fire} (h : (s.driveKey k).state = .probe)
    (hf : (s.driveKey k).fire = some fire) (hk : fire.kind = .pulse) :
    takeEcho k velocity s = runHit k fire.firedAt s.now velocity (endPulse k s) := by
  obtain ⟨kind, firedAt, grace, applied⟩ := fire
  cases hk
  simp only [takeEcho, h, hf]

theorem pulseGrace_due {k : Key} {s : State} {fire : Fire} (h : (s.driveKey k).state = .probe)
    (hf : (s.driveKey k).fire = some fire) (hk : fire.kind = .pulse) (hg : fire.grace ≤ s.now) :
    pulseGrace k s = runMiss k (endPulse k s) := by
  obtain ⟨kind, firedAt, grace, applied⟩ := fire
  cases hk
  simp only [pulseGrace, h, hf, if_pos hg]

/-- The part with the pulse on a key answered, before the run takes the answer. -/
def State.pulseEnded (s : State) (hit : Bool) (k : Key) : State :=
  State.setDriveKey (if hit then s.setCapKey k { (s.capKey k) with gate1At := none } else s) k
    ((s.driveKey k).answered s.now)

theorem pulseEnded_kept (s : State) (hit : Bool) (k : Key) :
    (s.pulseEnded hit k).run = s.run ∧ (s.pulseEnded hit k).map = s.map ∧ (s.pulseEnded hit k).now = s.now := by
  cases hit <;> exact ⟨rfl, rfl, rfl⟩

theorem pulseEnded_driveKey (s : State) (hit : Bool) (k : Key) :
    (s.pulseEnded hit k).driveKey k = (s.driveKey k).answered s.now := driveKey_setDriveKey_same ..

theorem exec_pulseAnswer {hit : Bool} {k : Key} {s : State} {fire : Fire} (hn : NothingToSchedule s)
    (h : (s.driveKey k).state = .probe) (hf : (s.driveKey k).fire = some fire) (hk : fire.kind = .pulse)
    (hg : hit = false → fire.grace ≤ s.now) :
    exec (if hit then .gate2Event k .toward else .pulseGraceExpiry k) s =
      .next (runAnswered hit k fire.firedAt (passageVelocity k s) (s.pulseEnded hit k)) := by
  cases hit with
  | false =>
    refine congrArg Host.Outcome.next ((pulseGrace_due h hf hk (hg rfl)).trans ?_)
    rw [endPulse_of_nothing h hn]
    rfl
  | true =>
    have hdriven : (s.driveKey k).state ≠ .rest := by rw [h]; decide
    refine congrArg Host.Outcome.next ((gate2_driven hdriven).trans ?_)
    rw [takeEcho_pulse (s := s.setCapKey k _) h hf hk, endPulse_of_nothing (s := s.setCapKey k _) h (hn.setCapKey k _)]
    rfl

/-- Every result but OK and ABORTED is a failure (R161). -/
theorem RunResult.fails_of_code_ne {r : RunResult} (hr : r ≠ .aborted) (h : BitVec.ofNat 16 r.code ≠ 1) :
    r.fails = true := by
  cases r with
  | ok => exact absurd rfl h
  | aborted => exact absurd rfl hr
  | _ => rfl

/-- Settles O57: the pulse ended, then the search's move phase by phase, or the proof's count and its end. -/
theorem pulseAnswersMoveTheRun : Obligations.PulseAnswersMoveTheRun := by
  unfold Obligations.PulseAnswersMoveTheRun
  intro k s fire hit hn hprobe hfire hkind hgrace c base freed u r answered waits e ends velocity
  obtain ⟨t, ht⟩ : ∃ t, t = runAnswered hit k fire.firedAt velocity u := ⟨_, rfl⟩
  have hexec : exec c s = .next t := (exec_pulseAnswer hn hprobe hfire hkind hgrace).trans (congrArg Host.Outcome.next ht.symm)
  obtain ⟨hrun, hmap, hnow⟩ : u.run = s.run ∧ u.map = s.map ∧ u.now = s.now := pulseEnded_kept s hit k
  have hkey : u.driveKey k = freed := pulseEnded_driveKey s hit k
  have hwaits {q : RunController} (h : RunWaits q u t) : waits q := by
    rw [RunWaits, hnow] at h
    exact hexec.trans (congrArg Host.Outcome.next h)
  have hends {e' : KeyEntry} {result : RunResult} (hr : result ≠ .aborted) (h : KeyEnded k e' result u t) :
      ends e' (BitVec.ofNat 16 result.code) := by
    obtain ⟨hentry, habove, hcheck, hfreed, hcurrent, hlast⟩ := h
    rw [hmap] at habove hcheck
    rw [hrun] at hlast
    refine ⟨t, hexec, hentry, habove, hcheck, hfreed.trans hkey, hcurrent, fun hkeys => ?_⟩
    obtain ⟨hidle, hnotices⟩ := hlast hkeys
    exact ⟨hidle, fun l => ⟨(hnotices l).1, fun hf => (hnotices l).2 (hf.imp_left (RunResult.fails_of_code_ne hr))⟩⟩
  have hentry : bankGet u.map.keys k = e := by rw [hmap]
  have hanswered : u.awaitsAnswer k ↔ answered := by rw [State.awaitsAnswer, hrun]
  refine ⟨fun h => ?_, fun h hthreshold copy hcopy => ?_, fun h hproof copy hcopy => ?_⟩
  · rw [hexec, ht, runAnswered_unawaited (mt hanswered.mp h)]
  · intro found next fine
    have hmove : t = if hit then searchHit k u else searchMiss k u := by
      rw [ht, runAnswered_threshold (hanswered.mpr h) (by rw [hrun]; exact hthreshold)]
    have hfound {n : Nat} (h : SearchFound k copy n u t) : found n := by
      have hended := hends (by decide) h
      rw [hentry, foundEntry] at hended
      change if copy.entry.state = 1 then _ else _
      split
      · next hset => rw [if_pos hset] at hended; exact hended
      · next hset => rw [if_neg hset] at hended; exact hended
    have hnext {q : RunController} {level : Nat} (h : SearchGoesOn k q level u t) : next q level := by
      rw [SearchGoesOn, hrun, hentry] at h
      change if r.probes < 64 then _ else _
      split
      · next hbudget => rw [if_pos hbudget] at h; exact hwaits h
      · next hbudget => rw [if_neg hbudget] at h; exact hends (by decide) h
    have hfine {q : RunController} {coarse level : Nat} (h : SearchGoesFine k copy q coarse level u t) :
        fine q coarse level := by
      rw [SearchGoesFine] at h
      change if coarse ≤ level then _ else _
      split
      · next hreached => rw [if_pos hreached] at h; exact hfound h
      · next hreached => rw [if_neg hreached] at h; exact hnext h
    have hhit (hyes : hit = true) := searchHit_moves hrun hcopy hentry (hmove.trans (if_pos hyes))
    have hmiss (hno : hit = false) := searchMiss_moves hrun hcopy hentry (hmove.trans (if_neg (by simp [hno])))
    refine ⟨fun hyes hlow => hends (by decide) ((hhit hyes).1 hlow), fun hyes hlevel => ?_, fun hno => ?_⟩
    · obtain ⟨hdown, hup, hlowest⟩ := (hhit hyes).2 hlevel
      exact ⟨fun hp => hnext (hdown hp), fun m hp hm => hfine (hup m hp hm), fun hp => hfound (hlowest hp)⟩
    · obtain ⟨hfirst, hup, htop, hcoarse⟩ := hmiss hno
      exact ⟨fun hp => hnext (hfirst hp), fun hp hle => hnext (hup hp hle), fun hp hlt => hends (by decide) (htop hp hlt),
        fun coarse hc => ⟨fun hp => hfine ((hcoarse coarse hc).1 hp), fun hp => hfine ((hcoarse coarse hc).2 hp)⟩⟩
  · intro seen sum err n
    have hmove : t = proofNext k (setRun (r.heard s.now fire.firedAt seen) u) := by
      rw [ht, runAnswered_proof (hanswered.mpr h) (by rw [hrun]; exact hproof), hrun, hnow]
    have hsame : u.run.SameKey (r.heard s.now fire.firedAt seen) := by
      rw [hrun]
      exact heard_sameKey ..
    obtain ⟨hagain, hdone⟩ := proofNext_moves hsame (by rw [hrun]; exact hcopy) hentry hmove
    refine ⟨fun hmore => hwaits (hagain hmore), fun hlast => ?_⟩
    obtain ⟨hnone, hfault, hgood⟩ := hdone hlast
    refine ⟨fun hzero => hends (by decide) (hnone hzero), fun hn hi => hends (by decide) (hfault hn hi), fun hn hi => ?_⟩
    obtain ⟨hrange, hout⟩ := hgood hn hi
    intro v mean g
    have hgain : (r.heard s.now fire.firedAt seen).newGain copy = g := newGain_eq ..
    rw [hgain] at hrange hout
    refine ⟨fun hlow hhigh => ?_, fun hwide => hends (by decide) (hout hwide)⟩
    have hended := hrange hlow hhigh
    rw [provedLead_eq] at hended
    exact hends (by decide) hended

end Sys2Proof.Machine
end

section
/-! SUPPORT. The keys CAL RUN takes (R151), the keys a proof ends at once (R158), and the end CAL STOP makes (R162). The statement
O55. -/

namespace Sys2Proof.Machine

/-! ### The highest key of a set -/

theorem keysOf_sorted (ks : BitVec 88) : (keysOf ks).Pairwise (· ≤ ·) :=
  ((List.sortedLT_finRange 88).pairwise.imp le_of_lt).filter _

theorem highestKey_eq_some {ks : BitVec 88} {top : Key} (h : ks.getLsbD top.val = true)
    (habove : ∀ k : Key, top < k → ks.getLsbD k.val = false) : highestKey ks = some top := by
  have hmem : top ∈ keysOf ks := mem_keysOf.mpr h
  have hlast : (keysOf ks).getLast (List.ne_nil_of_mem hmem) = top := by
    refine le_antisymm (not_lt.mp fun hlt => ?_) ((keysOf_sorted ks).rel_getLast hmem)
    have hmember : inKeySet ks _ = true := mem_keysOf.mp (List.getLast_mem (List.ne_nil_of_mem hmem))
    exact Bool.false_ne_true ((habove _ hlt).symm.trans hmember)
  rw [highestKey, List.getLast?_eq_some_getLast (List.ne_nil_of_mem hmem), hlast]

theorem highestKey_eq_none {ks : BitVec 88} : highestKey ks = none ↔ ks = 0 := by
  rw [highestKey, List.getLast?_eq_none_iff, List.eq_nil_iff_forall_not_mem]
  refine ⟨fun h => BitVec.eq_of_getLsbD_eq fun i hi => ?_, ?_⟩
  · have habsent := h ⟨i, hi⟩
    rw [mem_keysOf, inKeySet, Bool.not_eq_true] at habsent
    rw [habsent]
    exact BitVec.getLsbD_zero.symm
  · rintro rfl k hk
    simp [mem_keysOf, inKeySet] at hk

/-! ### A key taken by the run (R151, R154, R158) -/

/-- The run at a key it has just taken, waiting for it to be at rest. -/
def State.runAt (s : State) (k : Key) : RunController :=
  { prepareKey (bankGet s.map.keys k) s.map.integrity (copyKey k s).run with wait := .rest (s.now + 2000000) }

theorem prepareKey_threshold {e : KeyEntry} {i : Integrity} {r : RunController} (h : r.kind = .threshold) :
    prepareKey e i r = { r with level := if e.state = 1 then e.t.toNat - 128 else 0, flight := 0, lead := 0 } := by
  simp only [prepareKey, h, KeyEntry.isSet, decide_eq_true_eq]

/-- A key freed for the run: out of BLOCKED, with the capture unit's part (R141, R151). -/
def State.freed (s : State) (k : Key) : State :=
  if (s.driveKey k).state = .blocked then
    (s.setDriveKey k (s.driveKey k).resting).setCapKey k { (s.capKey k) with state := .up, gate1At := none, held := false }
  else s

theorem freeForRun_copyKey (k : Key) (s : State) : freeForRun k (copyKey k s) = setRun (copyKey k s).run (s.freed k) := by
  by_cases h : (s.driveKey k).state = .blocked
  · have hdriven : ((copyKey k s).driveKey k).state ≠ .rest := fun hrest => nomatch h.symm.trans hrest
    rw [State.freed, if_pos h]
    exact (if_pos h).trans (enterRest_eq hdriven)
  · rw [State.freed, if_neg h]
    exact if_neg h

theorem freed_kept (s : State) (k : Key) : (s.freed k).map = s.map ∧ (s.freed k).now = s.now := by
  unfold State.freed
  split <;> exact ⟨rfl, rfl⟩

theorem setRun_freed (r q : RunController) (s : State) (k : Key) :
    setRun r ((setRun q s).freed k) = setRun r (s.freed k) := by
  have hkey : (setRun q s).driveKey k = s.driveKey k := rfl
  simp only [State.freed, hkey]
  split <;> rfl

theorem keyOf_val (k : Key) : keyOf k.val = some k := keyOf_of_eq rfl

/-- A SET key, or any key of a threshold run, is freed and begins its rest wait. -/
theorem workBelow_waits {k : Key} {s : State} (hk : inKeySet s.run.keys k = true)
    (h : s.run.kind = .threshold ∨ (bankGet s.map.keys k).isSet = true) :
    workBelow (k.val + 1) s = setRun (s.runAt k) (s.freed k) := by
  obtain ⟨hmap, hnow⟩ := freed_kept s k
  have hgoes : ¬ ((copyKey k s).run.kind = .proof ∧ ¬ (bankGet s.map.keys k).isSet = true) := by
    rintro ⟨hproof, hunset⟩
    exact h.elim (fun hthreshold => nomatch hthreshold.symm.trans hproof) hunset
  simp only [workBelow, keyOf_val, hk, if_true, freeForRun_copyKey, setRun_map, setRun_run, hmap, if_neg hgoes, State.runAt,
    ← hnow]
  rfl

/-- An UNSET key of a proof that goes on after a failure is written NO_STRIKE, and the next key is taken. -/
theorem workBelow_unset {k : Key} {s : State} (hk : inKeySet s.run.keys k = true) (hkind : s.run.kind = .proof)
    (hstop : s.run.stopOnFault = false) (hunset : (bankGet s.map.keys k).isSet = false)
    (hfree : (s.driveKey k).state ≠ .blocked) :
    workBelow (k.val + 1) s = workBelow k.val (writeResult k .noStrike id (copyKey k s)) := by
  have hcopy : freeForRun k (copyKey k s) = copyKey k s := if_neg hfree
  have hends : (copyKey k s).run.kind = .proof ∧ ¬ (bankGet (copyKey k s).map.keys k).isSet = true :=
    ⟨hkind, Bool.not_eq_true _ ▸ hunset⟩
  have hon : ¬ (writeResult k .noStrike id (copyKey k s)).run.stopOnFault = true := Bool.not_eq_true _ ▸ hstop
  simp only [workBelow, keyOf_val, hk, if_true, hcopy, if_pos hends, if_neg hon]

/-- A key that is not in the set is passed over. -/
theorem workBelow_absent {k : Key} {s : State} (h : inKeySet s.run.keys k = false) :
    workBelow (k.val + 1) s = workBelow k.val s := by
  simp only [workBelow, keyOf_val, h, Bool.false_eq_true, if_false]

/-- The keys above the highest of the set are passed over. -/
theorem workBelow_highest {s : State} {top : Key} (h : ∀ k : Key, top < k → inKeySet s.run.keys k = false) {n : Nat}
    (hn : n ≤ 88) (htop : top.val + 1 ≤ n) : workBelow n s = workBelow (top.val + 1) s := by
  induction n, htop using Nat.le_induction with
  | base => rfl
  | succ n hle ih =>
    obtain ⟨k, rfl⟩ : ∃ k : Key, n = k.val := ⟨⟨n, hn⟩, rfl⟩
    exact (workBelow_absent (h k hle)).trans (ih (Nat.le_of_succ_le hn))

/-! ### A proof over UNSET keys (R158, R161) -/

/-- `t` is `s` with NO_STRIKE written to the keys of the run's set below number `n`. -/
structure NoStrikes (n : Nat) (s t : State) : Prop where
  entry  : ∀ k : Key, bankGet t.map.keys k =
    if k.val < n ∧ inKeySet s.run.keys k = true then (bankGet s.map.keys k).withResult .noStrike else bankGet s.map.keys k
  pedals : t.map.pedals = s.map.pedals
  check  : t.map.sum - t.map.check = s.map.sum - s.map.check
  failed : (s.run.failed = true ∨ ∃ k : Key, k.val < n ∧ inKeySet s.run.keys k = true) → t.run.failed = true
  drive  : t.drive = s.drive
  clk    : t.clk = s.clk
  cap    : t.cap = s.cap
  store  : t.store = s.store
  sched  : t.sched = s.sched

theorem NoStrikes.zero (s : State) : NoStrikes 0 s s :=
  ⟨fun _ => (if_neg fun h => absurd h.1 (Nat.not_lt_zero _)).symm, rfl, rfl,
    fun h => h.elim id fun ⟨_, hk, _⟩ => absurd hk (Nat.not_lt_zero _), rfl, rfl, rfl, rfl, rfl⟩

theorem key_lt_succ {j k : Key} : j.val < k.val + 1 ↔ j.val < k.val ∨ j = k := by
  rw [Nat.lt_succ_iff_lt_or_eq, Fin.ext_iff]

theorem NoStrikes.absent {k : Key} {s t : State} (h : NoStrikes k.val s t) (hk : inKeySet s.run.keys k = false) :
    NoStrikes (k.val + 1) s t := by
  have hsame (j : Key) : j.val < k.val + 1 ∧ inKeySet s.run.keys j = true ↔ j.val < k.val ∧ inKeySet s.run.keys j = true := by
    refine and_congr_left fun hmem => key_lt_succ.trans (or_iff_left ?_)
    rintro rfl
    exact Bool.false_ne_true (hk.symm.trans hmem)
  exact { h with entry := by simpa only [hsame] using h.entry, failed := by simpa only [hsame] using h.failed }

/-- A key of the set written first, then the keys below it. -/
theorem NoStrikes.written {k : Key} {s t : State} (hk : inKeySet s.run.keys k = true)
    (h : NoStrikes k.val (writeResult k .noStrike id (copyKey k s)) t) : NoStrikes (k.val + 1) s t where
  entry j := by
    rw [h.entry j]
    change (if j.val < k.val ∧ inKeySet s.run.keys j = true then _ else _) = _
    have hmap : (writeResult k .noStrike id (copyKey k s)).map.keys =
        bankSet s.map.keys k ((bankGet s.map.keys k).withResult .noStrike) := rfl
    simp only [hmap, key_lt_succ]
    by_cases hj : j = k
    · subst hj
      simp [hk]
    · simp [hj, bankGet_bankSet_other]
  pedals := h.pedals
  check := h.check.trans (sum_sub_check_writeKey ..)
  failed _ := h.failed (.inl (Bool.or_true _))
  drive := h.drive
  clk := h.clk
  cap := h.cap
  store := h.store
  sched := h.sched

/-- A proof whose keys below `n` are all UNSET, none of them BLOCKED, ends each with NO_STRIKE, and then itself. -/
theorem workBelow_noStrikes {n : Nat} (hn : n ≤ 88) {s : State} (hkind : s.run.kind = .proof)
    (hstop : s.run.stopOnFault = false)
    (h : ∀ k : Key, k.val < n → inKeySet s.run.keys k = true →
      (bankGet s.map.keys k).isSet = false ∧ (s.driveKey k).state ≠ .blocked) :
    ∃ t, NoStrikes n s t ∧ workBelow n s = finishRun t := by
  induction n generalizing s with
  | zero => exact ⟨s, .zero s, rfl⟩
  | succ n ih =>
    obtain ⟨k, rfl⟩ : ∃ k : Key, n = k.val := ⟨⟨n, hn⟩, rfl⟩
    cases hk : inKeySet s.run.keys k with
    | false =>
      obtain ⟨t, ht, hwork⟩ := ih k.isLt.le hkind hstop fun j hlt => h j (Nat.lt_succ_of_lt hlt)
      exact ⟨t, ht.absent hk, (workBelow_absent hk).trans hwork⟩
    | true =>
      have hrest (j : Key) (hlt : j.val < k.val) : bankGet (writeResult k .noStrike id (copyKey k s)).map.keys j =
          bankGet s.map.keys j := bankGet_bankSet_other _ _ (Fin.ne_of_lt hlt)
      obtain ⟨t, ht, hwork⟩ := ih (s := writeResult k .noStrike id (copyKey k s)) k.isLt.le hkind hstop fun j hlt hmem => by
        rw [hrest j hlt]
        exact h j (Nat.lt_succ_of_lt hlt) hmem
      obtain ⟨hunset, hfree⟩ := h k (Nat.lt_succ_self _) hk
      exact ⟨t, ht.written hk, (workBelow_unset hk hkind hstop hunset hfree).trans hwork⟩

theorem finishRun_store (s : State) : (finishRun s).store = s.store := by
  rw [finishRun_of_failed]
  dsimp only
  split <;> rfl

/-! ### The answer to CAL RUN (R150) -/

/-- The operands a run may have (R150). -/
def CalRunGood (kind stop repeats : Byte) (keys : BitVec 88) (velocity : Word16) : Prop :=
  kind.toNat ≤ 1 ∧ stop.toNat ≤ 1 ∧ keys ≠ 0 ∧ 40 ≤ velocity.toNat ∧ velocity.toNat ≤ 1000 ∧ 1 ≤ repeats.toNat ∧
    repeats.toNat ≤ 8

/-- The run controller with the options of a run that begins (R150). -/
def RunController.started (r : RunController) (kind stop repeats : Byte) (keys : BitVec 88) (velocity : Word16) :
    RunController :=
  { r with
    state := .running, kind := if kind = 0 then .threshold else .proof, keys := keys, failed := false, lastFire := none
    stopOnFault := decide (stop = 1), velocity := velocity.toNat, repeats := repeats.toNat }

section
variable {kind stop repeats : Byte} {keys : BitVec 88} {velocity : Word16} {s : State}

theorem answerCalRun_bad (h : ¬ CalRunGood kind stop repeats keys velocity) :
    answerCalRun kind keys stop velocity repeats s = refuse .badVal s := by
  unfold answerCalRun
  split
  · rfl
  · next hoptions =>
    obtain ⟨hkind, hstop⟩ : kind.toNat ≤ 1 ∧ stop.toNat ≤ 1 := by
      rw [byte_le_one, byte_le_one]
      tauto
    split
    · rfl
    · next top htop =>
      have hkeys : keys ≠ 0 := fun hzero => nomatch htop.symm.trans (highestKey_eq_none.mpr hzero)
      refine if_pos ?_
      by_contra hrange
      refine h ⟨hkind, hstop, hkeys, ?_⟩
      omega

theorem CalRunGood.exists_highest (h : CalRunGood kind stop repeats keys velocity) : ∃ top, highestKey keys = some top := by
  obtain ⟨-, -, hkeys, -⟩ := h
  exact Option.ne_none_iff_exists'.mp (mt highestKey_eq_none.mp hkeys)

/-- R150's table from operands that pass: the run that stands, the clock and the drive unit, then the start. -/
theorem answerCalRun_good (h : CalRunGood kind stop repeats keys velocity) {top : Key} (htop : highestKey keys = some top) :
    answerCalRun kind keys stop velocity repeats s =
      if s.run.state ≠ .idle then refuse .calRun s
      else if s.clk.state ≠ .stopped ∨ s.drive.power ≠ .active then refuse .state s
      else
        { status := .ok
          body := [1, kind] ++ bytes32 (BitVec.ofNat 32 (keysOf keys).length) ++ [BitVec.ofNat 8 top.val]
          state := workBelow 88 (setRun (s.run.started kind stop repeats keys velocity) s) } := by
  obtain ⟨hkind, hstop, -, hvelocity, hvelocity', hrepeats, hrepeats'⟩ := h
  have hoptions : ¬ ((kind ≠ 0 ∧ kind ≠ 1) ∨ (stop ≠ 0 ∧ stop ≠ 1)) := by
    rw [byte_le_one] at hkind hstop
    tauto
  have hrange : ¬ (velocity.toNat < 40 ∨ 1000 < velocity.toNat ∨ repeats.toNat < 1 ∨ 8 < repeats.toNat) := by omega
  have hcode : BitVec.ofNat 8 (if kind = 0 then RunKind.threshold else .proof).code = kind := by
    obtain rfl | rfl := byte_le_one.mp hkind <;> rfl
  simp only [answerCalRun, if_neg hoptions, htop, if_neg hrange, byte1_eq, byte4_eq, hcode]
  rfl

theorem answerCalRun_active (h : CalRunGood kind stop repeats keys velocity) (hrun : s.run.state ≠ .idle) :
    answerCalRun kind keys stop velocity repeats s = refuse .calRun s := by
  obtain ⟨top, htop⟩ := h.exists_highest
  rw [answerCalRun_good h htop, if_pos hrun]

theorem answerCalRun_unready (h : CalRunGood kind stop repeats keys velocity) (hrun : s.run.state = .idle)
    (hstate : s.clk.state ≠ .stopped ∨ s.drive.power ≠ .active) :
    answerCalRun kind keys stop velocity repeats s = refuse .state s := by
  obtain ⟨top, htop⟩ := h.exists_highest
  rw [answerCalRun_good h htop, if_neg (not_not.mpr hrun), if_pos hstate]

/-- A run that starts works its keys from the highest down. -/
theorem answerCalRun_starts (h : CalRunGood kind stop repeats keys velocity) (hrun : s.run.state = .idle)
    (hclk : s.clk.state = .stopped) (hpower : s.drive.power = .active) {top : Key} (hmem : keys.getLsbD top.val = true)
    (habove : ∀ k : Key, top < k → keys.getLsbD k.val = false) :
    answerCalRun kind keys stop velocity repeats s =
      { status := .ok
        body := [1, kind] ++ bytes32 (BitVec.ofNat 32 (keysOf keys).length) ++ [BitVec.ofNat 8 top.val]
        state := workBelow (top.val + 1) (setRun (s.run.started kind stop repeats keys velocity) s) } := by
  rw [answerCalRun_good h (highestKey_eq_some hmem habove), if_neg (not_not.mpr hrun), if_neg (by simp [hclk, hpower]),
    workBelow_highest (s := setRun _ s) habove le_rfl (Nat.succ_le_of_lt top.isLt)]

/-- The first key of a run that starts, where it is SET or the run is a threshold run. -/
theorem workBelow_started {top : Key} (hmem : keys.getLsbD top.val = true)
    (hset : kind = 0 ∨ (bankGet s.map.keys top).state = 1) :
    workBelow (top.val + 1) (setRun (s.run.started kind stop repeats keys velocity) s) =
      setRun ((setRun (s.run.started kind stop repeats keys velocity) s).runAt top) (s.freed top) := by
  have hkind : kind = 0 → (s.run.started kind stop repeats keys velocity).kind = .threshold := fun h => if_pos h
  rw [workBelow_waits (s := setRun (s.run.started kind stop repeats keys velocity) s) hmem (hset.imp hkind decide_eq_true),
    setRun_freed]

/-- A proof that starts on UNSET keys alone, none of them BLOCKED, and goes on after a failure. -/
theorem workBelow_started_unset {top : Key} (hkind : kind = 1) (hstop : stop = 0)
    (hunset : ∀ k : Key, keys.getLsbD k.val = true →
      (bankGet s.map.keys k).state ≠ 1 ∧ (s.driveKey k).state ≠ .blocked) :
    ∃ t, NoStrikes (top.val + 1) (setRun (s.run.started kind stop repeats keys velocity) s) t ∧
      workBelow (top.val + 1) (setRun (s.run.started kind stop repeats keys velocity) s) = finishRun t := by
  subst hkind hstop
  exact workBelow_noStrikes (s := setRun _ s) top.isLt rfl rfl fun k _ hk =>
    ⟨decide_eq_false (hunset k hk).1, (hunset k hk).2⟩

/-- What a run that starts holds once it has taken its first key (R151, R154, R158). -/
theorem runAt_started (hkind : kind.toNat ≤ 1) (top : Key) :
    (setRun (s.run.started kind stop repeats keys velocity) s).runAt top =
      let e := bankGet s.map.keys top
      let sv := strikeValues e s.map.integrity velocity.toNat
      { state := .running, kind := if kind = 0 then .threshold else .proof, keys := keys, current := some top
        copy := some { entry := e, integrity := s.map.integrity }, phase := .first
        level := if kind = 0 then (if e.state = 1 then e.t.toNat - 128 else 0) else sv.demand
        flight := if kind = 0 then 0 else sv.flight, lead := if kind = 0 then 0 else sv.lead
        lastMiss := none, coarse := none, probes := 0, velSum := 0, errSum := 0, hits := 0
        wait := .rest (s.now + 2000000), lastFire := none, failed := false, stopOnFault := decide (stop = 1)
        velocity := velocity.toNat, repeats := repeats.toNat } := by
  obtain rfl | rfl := byte_le_one.mp hkind
  · rw [State.runAt, prepareKey_threshold rfl]
    rfl
  · rfl

end

/-! ### The answer to CAL STOP (R162) -/

section
variable {s : State} {k : Key}

theorem answerCalStop_idle (h : s.run.state = .idle) : answerCalStop s = refuse .state s := by simp only [answerCalStop, h]

theorem answerCalStop_stopping (h : s.run.state = .stopping) :
    answerCalStop s =
      { status := .ok
        body := [2, (match s.run.current with
          | some k => BitVec.ofNat 8 k.val
          | none => 255)]
        state := s } := by
  simp only [answerCalStop, h, optByte1, byte1_eq]
  cases s.run.current <;> rfl

/-- ABORTED is no failure (R161). -/
theorem writeResult_aborted (k : Key) (s : State) :
    writeResult k .aborted id s =
      { s with
        map := s.map.writeKey k ((bankGet s.map.keys k).withResult .aborted), run := { s.run with wait := .none } } := by
  have hfailed : (s.run.failed || RunResult.aborted.fails) = s.run.failed := Bool.or_false _
  have hrun := writeResult_run k .aborted id s
  rw [hfailed] at hrun
  exact congrArg (setRun · (runWrite k (fun e => e.withResult .aborted) s)) hrun

/-- A RUNNING run withdraws its pulse and writes ABORTED; a key that was cut holds it in STOPPING. -/
theorem answerCalStop_running (h : s.run.state = .running) (hk : s.run.current = some k) :
    answerCalStop s =
      let w := writeResult k .aborted id (withdrawPulse k s)
      let stopping := setRun { w.run with state := .stopping } w
      if (s.driveKey k).state = .probe then { status := .ok, body := [2, BitVec.ofNat 8 k.val], state := stopping }
      else { status := .ok, body := [0, BitVec.ofNat 8 k.val], state := finishRun stopping } := by
  simp only [answerCalStop, h, hk, byte1_eq]
  by_cases hp : (s.driveKey k).state = .probe
  · simp only [if_pos hp]
    rfl
  · simp only [if_neg hp, finishRun_state]
    rfl

/-- With no pulse in flight the run ends at once. -/
theorem answerCalStop_ends (h : s.run.state = .running) (hk : s.run.current = some k) (hp : (s.driveKey k).state ≠ .probe) :
    answerCalStop s =
      { status := .ok, body := [0, BitVec.ofNat 8 k.val]
        state := finishRun { s with
          map := s.map.writeKey k ((bankGet s.map.keys k).withResult .aborted)
          drive := { s.drive with pulse := none } } } := by
  have hwithdrawn : withdrawPulse k s = { s with drive := { s.drive with pulse := none } } := if_neg hp
  rw [answerCalStop_running h hk, hwithdrawn, writeResult_aborted]
  exact if_neg hp

/-- With a pulse in flight the key is cut and the run goes to STOPPING. -/
theorem answerCalStop_cuts (h : s.run.state = .running) (hk : s.run.current = some k) (hp : (s.driveKey k).state = .probe)
    (hn : NothingToSchedule s) :
    answerCalStop s =
      { status := .ok, body := [2, BitVec.ofNat 8 k.val]
        state := State.setDriveKey
          { s with
            map := s.map.writeKey k ((bankGet s.map.keys k).withResult .aborted), drive := { s.drive with pulse := none }
            run := { s.run with state := .stopping, wait := .none } }
          k ((s.driveKey k).answered s.now) } := by
  have hwithdrawn : withdrawPulse k s =
      ({ s with drive := { s.drive with pulse := none } } : State).setDriveKey k ((s.driveKey k).answered s.now) :=
    (if_pos hp).trans (endPulse_of_nothing hp (hn.of_eq rfl rfl rfl rfl rfl))
  rw [answerCalStop_running h hk, hwithdrawn, writeResult_aborted]
  exact if_pos hp

end

/-- Settles O55: R150's table, the highest key as the run takes it, a proof over UNSET keys, and the end of a run. -/
theorem calRunStartsAndStops : Obligations.CalRunStartsAndStops := by
  unfold Obligations.CalRunStartsAndStops
  constructor
  · intro l kind stop repeats keys velocity s q hl answered good
    have hexec : exec (.calRun l kind keys stop velocity repeats) s =
        .next (serve l q (answerCalRun kind keys stop velocity repeats) s) := rfl
    refine ⟨fun h => exec_of_refusal hexec hl (answerCalRun_bad h),
      fun h hrun => exec_of_refusal hexec hl (answerCalRun_active h hrun),
      fun h hrun hstate => exec_of_refusal hexec hl (answerCalRun_unready h hrun hstate), ?_⟩
    intro h hidle hclk hpower top hmem habove e body sv rk run
    have hstart := exec_of_answer hexec hl (answerCalRun_starts h hidle hclk hpower hmem habove)
    refine ⟨fun hset => ?_, fun hproof hstop hunset => ?_⟩
    · rw [workBelow_started hmem hset, runAt_started h.1] at hstart
      refine ⟨fun hfree => ?_, fun hblocked => ?_⟩
      · rw [State.freed, if_neg hfree] at hstart
        exact hstart
      · rw [State.freed, if_pos hblocked] at hstart
        exact hstart
    · obtain ⟨t, ht, hwork⟩ := workBelow_started_unset hproof hstop hunset
      rw [hwork] at hstart
      have htaken (k : Key) : k.val < top.val + 1 ∧ inKeySet keys k = true ↔ keys.getLsbD k.val = true := by
        refine and_iff_right_of_imp fun hk => Nat.lt_succ_of_le (not_lt.mp fun hlt => ?_)
        exact Bool.false_ne_true ((habove k hlt).symm.trans hk)
      obtain ⟨-, -, hfclk, hfmap, hfcap, hfdrive, hfsched, -⟩ := finishRun_only t
      have hnoticed (m : Link) := finishRun_noticed (ht.failed (.inr ⟨top, (htaken top).mpr hmem⟩)) m
      refine ⟨_, hstart, by rw [replied_link]; rfl, ?_⟩
      simp only [replied_run, replied_map, replied_drive, replied_clk, replied_cap, replied_store, replied_sched, finishRun_run,
        hfclk, hfmap, hfcap, hfdrive, hfsched, finishRun_store]
      refine ⟨trivial, trivial, trivial, fun m => ⟨noticed_replied (hnoticed m).1 .., noticed_replied (hnoticed m).2 ..⟩,
        fun k => ?_, ht.pedals, ht.check, ht.drive, ht.clk, ht.cap, ht.store, ht.sched⟩
      exact (ht.entry k).trans (if_congr (htaken k) rfl rfl)
  · intro l s hl answered
    have hexec : exec (.calStop l) s = .next (serve l .calStop answerCalStop s) := rfl
    refine ⟨fun h => exec_of_refusal hexec hl (answerCalStop_idle h),
      fun h => exec_of_answer hexec hl (answerCalStop_stopping h), fun k h hk => ?_⟩
    refine ⟨_, sum_sub_check_writeKey s.map k ((bankGet s.map.keys k).withResult .aborted), fun hp => ?_, fun hp hn => ?_⟩
    · exact exec_of_answer hexec hl (answerCalStop_ends h hk hp)
    · exact exec_of_answer hexec hl (answerCalStop_cuts h hk hp hn)

end Sys2Proof.Machine
end
